-- ==== Sys2Proof/Word.lean ====
section
/-! DEFINITION. The word types of the FXB-3 (R3, R10): bytes, 32-bit instruction words, 64-bit
registers, 512-bit vectors, 6-bit significance counts and the numbers that name registers. -/
namespace Sys2Proof

/-- One byte of any memory. -/
abbrev Byte := BitVec 8
/-- One instruction word (R34). -/
abbrev IWord := BitVec 32
/-- A general register, an address, a doubleword (R10). -/
abbrev Word := BitVec 64
/-- A vector register, a shift-store line, a command (R10, R203, R232). -/
abbrev VWord := BitVec 512
/-- A significance count (R82). -/
abbrev Count := BitVec 6
/-- A register number of a five-bit field (R35). -/
abbrev Reg := BitVec 5
/-- A core id: die in [11:10], y in [9:5], x in [4:0] (R294). -/
abbrev CoreId := BitVec 12
/-- A context number of a core (R187). -/
abbrev CtxNo := BitVec 2

end Sys2Proof
end

