-- ==== Sys2Proof/Config.lean ====
section
/-! DEFINITION. What one package fixes and the specification leaves to it (log entries 1, 3, 6). A
constant without a body is a free value: no proof can see what it is. -/
namespace Sys2Proof.Config

/-- What a byte of a memory that nothing has written reads as (log entry 1: DESIGN CHOICE). -/
def unwritten : Byte := 0

/-- The fuse map: core sites fused off (R1). None is (log entry 3: DESIGN CHOICE). -/
def fusedOff : List CoreId := []

/-- A free value for the n-th draw: a word the specification does not state (log entry 6). -/
opaque freeWord : Nat → Word

/-- The data of a REPORT of a discarded record to the hosts (R397): its core, cause, message id and committed
flag in a layout the specification does not state (log entry 70). -/
opaque reportData : CoreId → Nat → BitVec 32 → Bool → List Byte

/-- The data of a REPORT of a fatal error (R397): the record of the loss of a core, in a layout the specification
does not state (log entry 70). -/
opaque fatalData : CoreId → List Byte

/-- How many cores of another package of a pod barrier the present phase still waits for, at a time of the 4 GHz
clock (R302): the specification does not say how a package learns it (log entry 96). -/
opaque podLeft : BitVec 4 → BitVec 9 → Nat → Nat

/-- The OP of what R395 carries between packages and R397 numbers no operation for: 0 a store to slot 0, 1 an increment,
2 a release, 3 a store of single bytes (log entry 97). -/
opaque podOp : Nat → BitVec 8

/-- How many cycles of the 4 GHz clock longer the stretch of a core that follows n others makes its cycle: until its
supply recovers (R376, log entry 88). -/
opaque stretchTicks (n : Nat) : Nat

end Sys2Proof.Config
end

