-- ==== Sys2Proof/Syntax.lean ====
section
/-! DEFINITION. The instructions and events of the FXB-3: one constructor of Instr for each row of
spec/opcode_table.json. A row with a word carries that word's operand fields (R34-R55), already read
as registers, names and numbers. A row without a word is an event of another agent (a port, an
engine, the pricking, the supervisor, the power controller, a host); it carries what comes to the
event from outside the machine's state. Where an event names no core it is an event of the core in
focus (State.core). The constructors stand in this order: words with operands, events with
operands, and those without any operand. -/
namespace Sys2Proof

/-- Rounding codes 0-6 (R74). -/
inductive Rnd where
  | rne | rna | rtz | rdn | rup | sr | dyn
  deriving DecidableEq, Repr

/-- Scalar floating-point precision (R40). -/
inductive Prec where
  | f32 | f64
  deriving DecidableEq, Repr

/-- Lane formats of the floating-point vector groups, codes 0-3 (R54). -/
inductive FTy where
  | f64 | f32 | bf16 | f16
  deriving DecidableEq, Repr

/-- Lane widths of the Int and Width groups and of XQ-V, codes 0-3 (R52, R54). -/
inductive Wd where
  | w64 | w32 | w16 | w8
  deriving DecidableEq, Repr

/-- Format codes of VCVT and CONVERT (R55). -/
inductive Fmt where
  | f64 | f32 | bf16 | f16 | e4m3 | e5m2 | i8 | i16 | i32 | i64 | n8 | n16 | n32 | n64
  deriving DecidableEq, Repr

/-- Scopes of an atomic (R43, R118). -/
inductive Scope where
  | core | quad | die | pkg | pod
  deriving DecidableEq, Repr

/-- Ordering suffix of an atomic (R43, R120). -/
inductive MemOrd where
  | rlx | acq | rel | acqrel
  deriving DecidableEq, Repr

/-- Size of an atomic (R43). -/
inductive Size where
  | w | d
  deriving DecidableEq, Repr

/-- Scopes of a barrier (R46). -/
inductive BarScope where
  | quad | die | pkg | pod
  deriving DecidableEq, Repr

/-- The system registers 0-27 (R51). -/
inductive SysReg where
  | taskid | coreid | corecount | sigthr | sigmode | sigvec | sigpc | sigop | frm | repstate | tagbase | scalebase5 | scalebase6 | wdbudget | inboxcfg | framecfg | headpri | shiftinj | mxbudget | mxgov | topoev | gen | stackbase | stacklimit | lb1 | lb2 | lb3 | cycles
  deriving DecidableEq, Repr

/-- Operands of a VV form with a second source: vd, va, b, the broadcast bit S, the mask and U (R54). -/
structure VArgs where
  d : Reg
  a : Reg
  b : Reg
  s : Bool
  m : BitVec 2
  u : Bool
  deriving DecidableEq, Repr

/-- Operands of a VV form that takes no vb, or takes a g register there by itself (R54). -/
structure UArgs where
  d : Reg
  a : Reg
  m : BitVec 2
  u : Bool
  deriving DecidableEq, Repr

/-- The end of a route: a core with all its ports, or a memory channel 0-23 (R342). -/
inductive Port where
  | core (c : CoreId)
  | chan (n : BitVec 5)
  deriving DecidableEq, Repr

/-- A route (R342). -/
structure Route where
  src : Port
  dst : Port
  deriving DecidableEq, Repr

/-- Who makes a line transfer at a bank (R205). -/
inductive Agent where
  | ctx (c : CtxNo)
  | engine
  deriving DecidableEq, Repr

/-- What an access to a page wants to do (R370). -/
inductive Access where
  | read | write | atomic | fetch
  deriving DecidableEq, Repr

/-- A barrier: its scope, the quad (die * 256 + number) or die it belongs to, its id (R301). -/
structure BarKey where
  scope : BarScope
  inst  : BitVec 10
  id    : BitVec 6
  deriving DecidableEq, Repr

/-- What a write of the barrier configuration port carries: control word and masks (R301-R303), and, for a
pod barrier, REDCFG, SRCADDR and RESADDR where they are written with it (R400; log entry 7). The per-die
QMASK and CMASK of die n stand at bits 256*n and 1024*n. -/
structure BarCfg where
  ctl   : Word
  cmask : BitVec 3072
  qmask : BitVec 768
  dmask : BitVec 3
  pmask : BitVec 512
  red   : Option (Word × Word × Word)
  deriving DecidableEq, Repr

/-- A port that has a trace ring (R277, R349). -/
inductive PortKey where
  | scratch (c : CoreId)
  | weight (c : CoreId)
  | bank (c : CoreId) (b : BitVec 8)
  | istore (c : CoreId)
  | entries (c : CoreId)
  | queues (c : CoreId)
  | chan (n : BitVec 5)
  deriving DecidableEq, Repr

/-- The transport services and semantics an Ultra Ethernet packet may ask for (R393). -/
inductive Service where
  | ordered | unordered | unreliable
  deriving DecidableEq, Repr

inductive Semantics where
  | send | write | read | other
  deriving DecidableEq, Repr

/-- An operation that arrives over Ultra Ethernet: the endpoint that sent it, its header, its data
(R396, R397), its service and semantics (R393). -/
structure HostReq where
  endpoint : BitVec 16
  hdr      : BitVec 128
  data     : List Byte
  service  : Service
  sem      : Semantics
  deriving DecidableEq, Repr

/-- What another package answers to an access of ours (R395); contained: its walk read poison (R367). -/
inductive PodAnswer where
  | data (bytes : List Byte)
  | pageFault
  | access (contained : Bool)
  | staleGen
  | poisoned
  | linkDown
  deriving DecidableEq, Repr

/-- What another package asks of memory homed here (R395). masked: stores of bytes that are no whole doublewords, by
their offsets from the address, such as a drain of a line (log entry 97). -/
inductive PodOp where
  | read (n : Nat)
  | write (bytes : List Byte)
  | masked (cells : List (BitVec 10 × Byte))
  | atomic (fn : BitVec 4) (z : Size) (b e : Word)
  | frameStore (x : Word) (slot0 : Bool)
  | increment (n : Nat)
  | release
  | fetch (n : Nat)
  | accumulate (lt : BitVec 4) (bytes : List Byte)
  deriving DecidableEq, Repr

/-- Who asks: the package and its core, with the space, the generation and the privilege of the access (R395). -/
structure PodSource where
  pkg   : BitVec 9
  core  : CoreId
  space : BitVec 16
  gen   : BitVec 8
  priv  : Bool
  deriving DecidableEq, Repr

/-- An access carried between packages (R395): package pkg's answer to the oldest access that context c of a
core of ours, or an engine or a drained line on its account, has under way there; or that it has found the page of
access n of the group there absent (log entry 90); or a request with the TAG of its
header at an address homed here; or the requests of one chunk, which stay together (R343, R348); or a packet of
another service or semantics (R393). -/
inductive PodAccess where
  | answer (core : CoreId) (c : CtxNo) (pkg : BitVec 9) (a : PodAnswer)
  | absent (core : CoreId) (c : CtxNo) (pkg : BitVec 9) (n : Nat)
  | request (src : PodSource) (tag : BitVec 32) (va : Word) (op : PodOp)
  | group (src : PodSource) (ops : List (BitVec 32 × Word × PodOp))
  | unsupported
  deriving DecidableEq, Repr

/-- The instructions and events: one constructor per row of the opcode table. -/
inductive Instr where
  /-- ADD (R94). -/
  | add (d a b : Reg)
  /-- SUB (R94). -/
  | sub (d a b : Reg)
  /-- AND (R94). -/
  | and (d a b : Reg)
  /-- OR (R94). -/
  | or (d a b : Reg)
  /-- XOR (R94). -/
  | xor (d a b : Reg)
  /-- ANDN (R94). -/
  | andn (d a b : Reg)
  /-- ORN (R94). -/
  | orn (d a b : Reg)
  /-- SLL (R94). -/
  | sll (d a b : Reg)
  /-- SRL (R94). -/
  | srl (d a b : Reg)
  /-- SRA (R94). -/
  | sra (d a b : Reg)
  /-- ROL (R94). -/
  | rol (d a b : Reg)
  /-- ROR (R94). -/
  | ror (d a b : Reg)
  /-- SLT (R94). -/
  | slt (d a b : Reg)
  /-- SLTU (R94). -/
  | sltu (d a b : Reg)
  /-- MIN (R94). -/
  | min (d a b : Reg)
  /-- MAX (R94). -/
  | max (d a b : Reg)
  /-- MINU (R94). -/
  | minu (d a b : Reg)
  /-- MAXU (R94). -/
  | maxu (d a b : Reg)
  /-- MUL (R94). -/
  | mul (d a b : Reg)
  /-- MULHI (R94). -/
  | mulhi (d a b : Reg)
  /-- MULHIN (R94). -/
  | mulhin (d a b : Reg)
  /-- MULHIX (R94). -/
  | mulhix (d a b : Reg)
  /-- QUO (R95). -/
  | quo (d a b : Reg)
  /-- QUON (R95). -/
  | quon (d a b : Reg)
  /-- RMD (R95). -/
  | rmd (d a b : Reg)
  /-- RMDN (R95). -/
  | rmdn (d a b : Reg)
  /-- CLZ (R94). -/
  | clz (d a : Reg)
  /-- CTZ (R94). -/
  | ctz (d a : Reg)
  /-- POPC (R94). -/
  | popc (d a : Reg)
  /-- BSWAP (R94). -/
  | bswap (d a : Reg)
  /-- SEXTB (R94). -/
  | sextb (d a : Reg)
  /-- SEXTH (R94). -/
  | sexth (d a : Reg)
  /-- SEXTW (R94). -/
  | sextw (d a : Reg)
  /-- ADDI (R96). -/
  | addi (d a : Reg) (i : BitVec 16)
  /-- ANDI (R96). -/
  | andi (d a : Reg) (i : BitVec 16)
  /-- ORI (R96). -/
  | ori (d a : Reg) (i : BitVec 16)
  /-- XORI (R96). -/
  | xori (d a : Reg) (i : BitVec 16)
  /-- SLLI (R97). -/
  | slli (d a : Reg) (n : BitVec 6)
  /-- SRLI (R97). -/
  | srli (d a : Reg) (n : BitVec 6)
  /-- SRAI (R97). -/
  | srai (d a : Reg) (n : BitVec 6)
  /-- SLTI (R96). -/
  | slti (d a : Reg) (i : BitVec 16)
  /-- SLTIU (R96). -/
  | sltiu (d a : Reg) (i : BitVec 16)
  /-- LIZ (R98). -/
  | liz (d : Reg) (q : BitVec 2) (i : BitVec 16)
  /-- LIK (R98). -/
  | lik (d : Reg) (q : BitVec 2) (i : BitVec 16)
  /-- ADPC (R99). -/
  | adpc (d : Reg) (i : BitVec 16)
  /-- BEQ (R100). -/
  | beq (a b : Reg) (x : BitVec 16)
  /-- BNE (R100). -/
  | bne (a b : Reg) (x : BitVec 16)
  /-- BLT (R100). -/
  | blt (a b : Reg) (x : BitVec 16)
  /-- BGE (R100). -/
  | bge (a b : Reg) (x : BitVec 16)
  /-- BLTU (R100). -/
  | bltu (a b : Reg) (x : BitVec 16)
  /-- BGEU (R100). -/
  | bgeu (a b : Reg) (x : BitVec 16)
  /-- JAL (R101). -/
  | jal (x : BitVec 26)
  /-- JALR (R101). -/
  | jalr (d a : Reg) (i : BitVec 16)
  /-- BSIG (R103). -/
  | bsig (a : Reg) (t : BitVec 6) (x : BitVec 15)
  /-- BMASK.none (R104). -/
  | bmaskNone (v : Reg) (x : BitVec 18)
  /-- BMASK.any (R104). -/
  | bmaskAny (v : Reg) (x : BitVec 18)
  /-- BMASK.all (R104). -/
  | bmaskAll (v : Reg) (x : BitVec 18)
  /-- BMASK.nonec (R104). -/
  | bmaskNonec (v : Reg) (x : BitVec 18)
  /-- BMASK.anyc (R104). -/
  | bmaskAnyc (v : Reg) (x : BitVec 18)
  /-- BMASK.allc (R104). -/
  | bmaskAllc (v : Reg) (x : BitVec 18)
  /-- LB (R107). -/
  | lb (d a : Reg) (i : BitVec 16)
  /-- LBU (R107). -/
  | lbu (d a : Reg) (i : BitVec 16)
  /-- LH (R107). -/
  | lh (d a : Reg) (i : BitVec 16)
  /-- LHU (R107). -/
  | lhu (d a : Reg) (i : BitVec 16)
  /-- LW (R107). -/
  | lw (d a : Reg) (i : BitVec 16)
  /-- LWU (R107). -/
  | lwu (d a : Reg) (i : BitVec 16)
  /-- LD (R107). -/
  | ld (d a : Reg) (i : BitVec 16)
  /-- SB (R108). -/
  | sb (d a : Reg) (i : BitVec 16)
  /-- SH (R108). -/
  | sh (d a : Reg) (i : BitVec 16)
  /-- SW (R108). -/
  | sw (d a : Reg) (i : BitVec 16)
  /-- SD (R108). -/
  | sd (d a : Reg) (i : BitVec 16)
  /-- FADD (R111). -/
  | fadd (d a b : Reg) (p : Prec) (r : Rnd)
  /-- FSUB (R111). -/
  | fsub (d a b : Reg) (p : Prec) (r : Rnd)
  /-- FMUL (R111). -/
  | fmul (d a b : Reg) (p : Prec) (r : Rnd)
  /-- FDIV (R111). -/
  | fdiv (d a b : Reg) (p : Prec) (r : Rnd)
  /-- FSQRT (R111). -/
  | fsqrt (d a : Reg) (p : Prec) (r : Rnd)
  /-- FMIN (R112). -/
  | fmin (d a b : Reg) (p : Prec)
  /-- FMAX (R112). -/
  | fmax (d a b : Reg) (p : Prec)
  /-- FEQ (R112). -/
  | feq (d a b : Reg) (p : Prec)
  /-- FLT (R112). -/
  | flt (d a b : Reg) (p : Prec)
  /-- FLE (R112). -/
  | fle (d a b : Reg) (p : Prec)
  /-- FCLASS (R112). -/
  | fclass (d a : Reg) (p : Prec)
  /-- FCPS (R113). -/
  | fcps (d a b : Reg) (p : Prec)
  /-- FCPSN (R113). -/
  | fcpsn (d a b : Reg) (p : Prec)
  /-- FCPSX (R113). -/
  | fcpsx (d a b : Reg) (p : Prec)
  /-- FCVTI (R114). -/
  | fcvti (d a : Reg) (p : Prec) (r : Rnd)
  /-- FCVTU (R114). -/
  | fcvtu (d a : Reg) (p : Prec) (r : Rnd)
  /-- FCVTF (R114). -/
  | fcvtf (d a : Reg) (p : Prec) (r : Rnd)
  /-- FCVTFU (R114). -/
  | fcvtfu (d a : Reg) (p : Prec) (r : Rnd)
  /-- FCVTP (R114). -/
  | fcvtp (d a : Reg) (p : Prec) (r : Rnd)
  /-- FSIG (R113). -/
  | fsig (d a : Reg) (p : Prec)
  /-- FSETSIG (R113). -/
  | fsetsig (d a b : Reg) (p : Prec)
  /-- FRINT (R111). -/
  | frint (d a : Reg) (p : Prec) (r : Rnd)
  /-- FMVI (R113). -/
  | fmvi (d a : Reg) (p : Prec)
  /-- FMA (R116). -/
  | fma (d a b c : Reg) (p : Prec) (r : Rnd)
  /-- FMS (R116). -/
  | fms (d a b c : Reg) (p : Prec) (r : Rnd)
  /-- FNMA (R116). -/
  | fnma (d a b c : Reg) (p : Prec) (r : Rnd)
  /-- FNMS (R116). -/
  | fnms (d a b c : Reg) (p : Prec) (r : Rnd)
  /-- AADD (R117). -/
  | aadd (d a b : Reg) (s : Scope) (o : MemOrd) (z : Size)
  /-- AAND (R117). -/
  | aand (d a b : Reg) (s : Scope) (o : MemOrd) (z : Size)
  /-- AOR (R117). -/
  | aor (d a b : Reg) (s : Scope) (o : MemOrd) (z : Size)
  /-- AXOR (R117). -/
  | axor (d a b : Reg) (s : Scope) (o : MemOrd) (z : Size)
  /-- AMIN (R117). -/
  | amin (d a b : Reg) (s : Scope) (o : MemOrd) (z : Size)
  /-- AMAX (R117). -/
  | amax (d a b : Reg) (s : Scope) (o : MemOrd) (z : Size)
  /-- AMINU (R117). -/
  | aminu (d a b : Reg) (s : Scope) (o : MemOrd) (z : Size)
  /-- AMAXU (R117). -/
  | amaxu (d a b : Reg) (s : Scope) (o : MemOrd) (z : Size)
  /-- ASWP (R117). -/
  | aswp (d a b : Reg) (s : Scope) (o : MemOrd) (z : Size)
  /-- ACAS (R117). -/
  | acas (d a b : Reg) (s : Scope) (o : MemOrd) (z : Size)
  /-- AFADD (R117). -/
  | afadd (d a b : Reg) (s : Scope) (o : MemOrd) (z : Size)
  /-- LDF (R151). -/
  | ldf (d : Reg) (n : BitVec 2) (s : BitVec 11)
  /-- STF (R151). -/
  | stf (d : Reg) (n : BitVec 2) (s : BitVec 11)
  /-- LDFA (R151). -/
  | ldfa (d : Reg) (n : BitVec 2) (s : BitVec 11)
  /-- STFR (R151). -/
  | stfr (d : Reg) (n : BitVec 2) (s : BitVec 11)
  /-- FADR (R151). -/
  | fadr (d : Reg) (n : BitVec 2) (s : BitVec 11)
  /-- FREF (R154). -/
  | fref (n : BitVec 2)
  /-- FREL (R154). -/
  | frel (n : BitVec 2)
  /-- DSPL (R153). -/
  | dspl (d : Reg) (n : BitVec 2)
  /-- DSPS (R153). -/
  | dsps (d : Reg) (n : BitVec 2)
  /-- TSAVE (R155). -/
  | tsave (d a : Reg) (i : BitVec 14)
  /-- TRESTORE (R155). -/
  | trestore (d a : Reg) (i : BitVec 14)
  /-- VTSAVE (R155). -/
  | vtsave (d a : Reg) (i : BitVec 14)
  /-- VTRESTORE (R155). -/
  | vtrestore (d a : Reg) (i : BitVec 14)
  /-- SEND (R156). -/
  | send (d a b c : Reg)
  /-- SENDM (R157). -/
  | sendm (d a b c : Reg)
  /-- CDEC (R159). -/
  | cdec (a b : Reg)
  /-- SPAWN (R158). -/
  | spawn (d a b c : Reg)
  /-- SPAWN.cap (R23). -/
  | spawnCap (d a b c : Reg)
  /-- SEV (R162). -/
  | sev (a : Reg)
  /-- ARRIVE (R165). -/
  | arrive (d : Reg) (s : BarScope) (i : BitVec 6)
  /-- WAIT (R165). -/
  | wait (a : Reg) (s : BarScope) (i : BitVec 6)
  /-- BTEST (R165). -/
  | btest (d a : Reg) (s : BarScope) (i : BitVec 6)
  /-- QPUSH (R166). -/
  | qpush (a : Reg) (q : BitVec 2)
  /-- QPOP (R166). -/
  | qpop (d : Reg) (q : BitVec 2)
  /-- QTRY (R166). -/
  | qtry (d a : Reg) (q : BitVec 2)
  /-- QCNT (R166). -/
  | qcnt (d : Reg) (q : BitVec 2)
  /-- HBIND (R211). -/
  | hbind (a : Reg) (h : BitVec 2)
  /-- HFREE (R212). -/
  | hfree (h : BitVec 2)
  /-- SEEK (R213). -/
  | seek (a : Reg) (h : BitVec 2)
  /-- HWAIT (R214). -/
  | hwait (h : BitVec 2)
  /-- RDS (R215). -/
  | rds (d : Reg) (h : BitVec 2)
  /-- WRS (R216). -/
  | wrs (a : Reg) (h : BitVec 2)
  /-- RWD (R217). -/
  | rwd (h : BitVec 2)
  /-- HSTAT (R218). -/
  | hstat (d : Reg) (h : BitVec 2)
  /-- MXC (R231). -/
  | mxc (a : Reg)
  /-- MXR (R238). -/
  | mxr (d a : Reg) (c : BitVec 3) (r : BitVec 4) (h f : Bool) (b : Option (BitVec 3))
  /-- MXW (R239). -/
  | mxw (c : BitVec 3) (l : Bool)
  /-- MXS (R240). -/
  | mxs (d : Reg) (c : BitVec 3)
  /-- CPC (R261). -/
  | cpc (a : Reg)
  /-- CPS (R273). -/
  | cps (d : Reg)
  /-- REP (R148). -/
  | rep (c : BitVec 5) (l : BitVec 4) (d a b : BitVec 5)
  /-- SRR (R167). -/
  | srr (d : Reg) (s : SysReg)
  /-- SRW (R167). -/
  | srw (a : Reg) (s : SysReg)
  /-- SRX (R167). -/
  | srx (d a : Reg) (s : SysReg)
  /-- TRAP (R168). -/
  | trap (c : BitVec 13)
  /-- VFADD (R128). -/
  | vfadd (x : VArgs) (t : FTy)
  /-- VFSUB (R128). -/
  | vfsub (x : VArgs) (t : FTy)
  /-- VFMUL (R128). -/
  | vfmul (x : VArgs) (t : FTy)
  /-- VFDIV (R128). -/
  | vfdiv (x : VArgs) (t : FTy)
  /-- VFSQRT (R128). -/
  | vfsqrt (x : UArgs) (t : FTy)
  /-- VFMIN (R128). -/
  | vfmin (x : VArgs) (t : FTy)
  /-- VFMAX (R128). -/
  | vfmax (x : VArgs) (t : FTy)
  /-- VFABS (R128). -/
  | vfabs (x : UArgs) (t : FTy)
  /-- VFNEG (R128). -/
  | vfneg (x : UArgs) (t : FTy)
  /-- VADD (R130). -/
  | vadd (x : VArgs) (t : Wd)
  /-- VSUB (R130). -/
  | vsub (x : VArgs) (t : Wd)
  /-- VMUL (R130). -/
  | vmul (x : VArgs) (t : Wd)
  /-- VMULH (R130). -/
  | vmulh (x : VArgs) (t : Wd)
  /-- VAND (R130). -/
  | vand (x : VArgs) (t : Wd)
  /-- VOR (R130). -/
  | vor (x : VArgs) (t : Wd)
  /-- VXOR (R130). -/
  | vxor (x : VArgs) (t : Wd)
  /-- VSLL (R130). -/
  | vsll (x : VArgs) (t : Wd)
  /-- VSRL (R130). -/
  | vsrl (x : VArgs) (t : Wd)
  /-- VSRA (R130). -/
  | vsra (x : VArgs) (t : Wd)
  /-- VMIN (R130). -/
  | vmin (x : VArgs) (t : Wd)
  /-- VMAX (R130). -/
  | vmax (x : VArgs) (t : Wd)
  /-- VMINU (R130). -/
  | vminu (x : VArgs) (t : Wd)
  /-- VMAXU (R130). -/
  | vmaxu (x : VArgs) (t : Wd)
  /-- VADDS (R130). -/
  | vadds (x : VArgs) (t : Wd)
  /-- VSUBS (R130). -/
  | vsubs (x : VArgs) (t : Wd)
  /-- VFMA (R129). -/
  | vfma (x : VArgs) (t : FTy)
  /-- VFMS (R129). -/
  | vfms (x : VArgs) (t : FTy)
  /-- VFNMA (R129). -/
  | vfnma (x : VArgs) (t : FTy)
  /-- VFNMS (R129). -/
  | vfnms (x : VArgs) (t : FTy)
  /-- VDOT2 (R129). -/
  | vdot2 (x : VArgs) (t : FTy)
  /-- VFEQ (R131). -/
  | vfeq (x : VArgs) (t : FTy)
  /-- VFLT (R131). -/
  | vflt (x : VArgs) (t : FTy)
  /-- VFLE (R131). -/
  | vfle (x : VArgs) (t : FTy)
  /-- VEQ (R131). -/
  | veq (x : VArgs) (t : Wd)
  /-- VNE (R131). -/
  | vne (x : VArgs) (t : Wd)
  /-- VLT (R131). -/
  | vlt (x : VArgs) (t : Wd)
  /-- VLTU (R131). -/
  | vltu (x : VArgs) (t : Wd)
  /-- MAND (R132). -/
  | mand (d a b : Reg) (s : Bool) (t : Wd)
  /-- MOR (R132). -/
  | mor (d a b : Reg) (s : Bool) (t : Wd)
  /-- MXOR (R132). -/
  | mxor (d a b : Reg) (s : Bool) (t : Wd)
  /-- MANDN (R132). -/
  | mandn (d a b : Reg) (s : Bool) (t : Wd)
  /-- MNOT (R132). -/
  | mnot (d a : Reg) (s : Bool) (t : Wd)
  /-- MPOP (R132). -/
  | mpop (d a : Reg) (s : Bool) (t : Wd)
  /-- MFIRST (R132). -/
  | mfirst (d a : Reg) (s : Bool) (t : Wd)
  /-- MSET (R132). -/
  | mset (d b : Reg) (t : Wd)
  /-- VSLIDEUP (R133). -/
  | vslideup (x : UArgs) (b : Reg) (t : Wd)
  /-- VSLIDEDN (R133). -/
  | vslidedn (x : UArgs) (b : Reg) (t : Wd)
  /-- VPERM (R133). -/
  | vperm (x : UArgs) (b : Reg) (t : Wd)
  /-- VBCAST (R133). -/
  | vbcast (x : UArgs) (b : Reg) (t : Wd)
  /-- VSEL (R133). -/
  | vsel (x : VArgs) (t : Wd)
  /-- VCOMPRESS (R133). -/
  | vcompress (x : UArgs) (s : Bool) (t : Wd)
  /-- VRSUM (R135). -/
  | vrsum (d a : Reg) (m : BitVec 2) (t : FTy)
  /-- VRMAX (R135). -/
  | vrmax (d a : Reg) (m : BitVec 2) (t : FTy)
  /-- VRMIN (R135). -/
  | vrmin (d a : Reg) (m : BitVec 2) (t : FTy)
  /-- VRADD (R135). -/
  | vradd (d a : Reg) (m : BitVec 2) (t : Wd)
  /-- VRAND (R135). -/
  | vrand (d a : Reg) (m : BitVec 2) (t : Wd)
  /-- VCVT (R136). -/
  | vcvt (x : UArgs) (src dst : Fmt) (r : Rnd)
  /-- VCVTS (R136). -/
  | vcvts (x : UArgs) (src dst : Fmt) (r : Rnd)
  /-- VLD (R140). -/
  | vld (v a : Reg) (m : BitVec 2) (u : Bool) (z : Wd)
  /-- VLDS (R140). -/
  | vlds (v a b : Reg) (m : BitVec 2) (u : Bool) (z : Wd)
  /-- VLDP (R140). -/
  | vldp (v : Reg) (p : BitVec 3) (m : BitVec 2) (u : Bool) (z : Wd)
  /-- VST (R140). -/
  | vst (v a : Reg) (m : BitVec 2) (z : Wd) (n : Option (BitVec 3))
  /-- VSTS (R140). -/
  | vsts (v a b : Reg) (m : BitVec 2) (z : Wd) (n : Option (BitVec 3))
  /-- VSTP (R140). -/
  | vstp (v : Reg) (p : BitVec 3) (m : BitVec 2) (z : Wd) (n : Option (BitVec 3))
  /-- VGATHER (R140). -/
  | vgather (v a b : Reg) (m : BitVec 2) (u : Bool) (z : Wd)
  /-- VSCATTER (R140). -/
  | vscatter (v a b : Reg) (m : BitVec 2) (z : Wd)
  /-- MADD3 (R146). -/
  | madd3 (d a b : BitVec 3) (t : FTy) (r : Rnd)
  /-- MSUB3 (R146). -/
  | msub3 (d a b : BitVec 3) (t : FTy) (r : Rnd)
  /-- MMUL3 (R146). -/
  | mmul3 (d a b : BitVec 3) (t : FTy) (r : Rnd)
  /-- MFMA3 (R146). -/
  | mfma3 (d a b : BitVec 3) (t : FTy) (r : Rnd)
  /-- MMIN3 (R146). -/
  | mmin3 (d a b : BitVec 3) (t : FTy)
  /-- MMAX3 (R146). -/
  | mmax3 (d a b : BitVec 3) (t : FTy)
  /-- VSIGM (R138). -/
  | vsigm (x : UArgs) (b : Reg) (t : FTy)
  /-- VSIGR (R138). -/
  | vsigr (x : UArgs) (t : FTy)
  /-- VSIGW (R138). -/
  | vsigw (x : UArgs) (t : FTy)
  /-- VSPLAT (R134). -/
  | vsplat (d b : Reg) (m : BitVec 2) (u : Bool) (t : Wd)
  /-- VINS (R134). -/
  | vins (d a b : Reg) (t : Wd)
  /-- VEXT (R134). -/
  | vext (d a b : Reg) (t : Wd)
  /-- VMOVV (R134). -/
  | vmovv (x : UArgs) (t : Wd)
  /-- IMPLICIT_COMMIT (R283). -/
  | implicitCommit (c : CtxNo)
  /-- RECORD_PROMOTION (R13). -/
  | recordPromotion (k : Nat)
  /-- WATCHDOG_EXPIRY (R18). -/
  | watchdogExpiry (c : CtxNo)
  /-- CONTEXT_RELEASE (R160). -/
  | contextRelease (c : CtxNo)
  /-- SUPERVISOR_RESUME (R168). -/
  | supervisorResume (c : CtxNo) (upd : List (BitVec 3 × Word))
  /-- CONTEXT_SAVE (R289). -/
  | contextSave (c : CtxNo)
  /-- CONTEXT_RESTORE (R289). -/
  | contextRestore (c : CtxNo)
  /-- BAND_RELEASE (R31). -/
  | bandRelease (b : BitVec 2)
  /-- RECORD_DISCARD (R31). -/
  | recordDiscard (b : BitVec 2)
  /-- FRAMECFG_WRITE (R193). -/
  | framecfgWrite (x : Word)
  /-- INBOXCFG_WRITE (R193). -/
  | inboxcfgWrite (x : Word)
  /-- HEADPRI_WRITE (R207). -/
  | headpriWrite (x : Word)
  /-- SHIFTINJ_WRITE (R224). -/
  | shiftinjWrite (x : Word)
  /-- FRM_WRITE (R75). -/
  | frmWrite (c : CtxNo) (x : Word)
  /-- MXBUDGET_WRITE (R243). -/
  | mxbudgetWrite (x : Word)
  /-- MXGOV_WRITE (R244). -/
  | mxgovWrite (x : Word)
  /-- MESSAGE_ACCEPT (R200). -/
  | messageAccept (r : Route)
  /-- NACK_RECEIPT (R201). -/
  | nackReceipt (r : Route)
  /-- NACK_RESEND (R201). -/
  | nackResend (k : Nat)
  /-- CHUNK_SEND (R318). -/
  | chunkSend (c : CtxNo)
  /-- REMOTE_LOAD (R344). -/
  | remoteLoad (r : Route)
  /-- LOAD_REPLY (R107). -/
  | loadReply (r : Route)
  /-- REMOTE_STORE (R343). -/
  | remoteStore (r : Route)
  /-- REMOTE_ATOMIC (R117). -/
  | remoteAtomic (r : Route)
  /-- ATOMIC_REPLY (R119). -/
  | atomicReply (r : Route)
  /-- ACKNOWLEDGEMENT (R283). -/
  | acknowledgement (r : Route)
  /-- ERROR_PACKET (R320). -/
  | errorPacket (r : Route)
  /-- POISONED_PACKET (R319). -/
  | poisonedPacket (r : Route)
  /-- LINK_RETRY (R315). -/
  | linkRetry (link : Nat)
  /-- SEV_LATCH_WRITE (R162). -/
  | sevLatchWrite (r : Route)
  /-- COUNTDOWN_DECREMENT (R159). -/
  | countdownDecrement (r : Route)
  /-- FRAME_INCREMENT (R23). -/
  | frameIncrement (r : Route)
  /-- FRAME_RELEASE (R24). -/
  | frameRelease (r : Route)
  /-- LANDING_F32_ADD (R322). -/
  | landingF32Add (r : Route)
  /-- LANDING_BF16_ACCUMULATE (R322). -/
  | landingBf16Accumulate (r : Route)
  /-- LANDING_E4M3_WIDEN (R322). -/
  | landingE4m3Widen (r : Route)
  /-- LANDING_STRIDED_SCATTER (R322). -/
  | landingStridedScatter (r : Route)
  /-- LANDING_TRANSPOSE (R322). -/
  | landingTranspose (r : Route)
  /-- LANDING_F32_MAX (R322). -/
  | landingF32Max (r : Route)
  /-- LANDING_XOR (R322). -/
  | landingXor (r : Route)
  /-- ENTRY_TABLE_WRITE (R199). -/
  | entryTableWrite (r : Route)
  /-- INSTRUCTION_STORE_WRITE (R195). -/
  | instructionStoreWrite (r : Route)
  /-- BOOT_LOAD (R358). -/
  | bootLoad (r : Route)
  /-- PRICKING_APPEND (R332). -/
  | prickingAppend (r : Route)
  /-- GATHER_DRAIN_TIMEOUT (R285). -/
  | gatherDrainTimeout (k : Nat)
  /-- HEAD_CLAIM_GRANT (R208). -/
  | headClaimGrant (bank : BitVec 8)
  /-- BANK_ALIGNED (R204). -/
  | bankAligned (bank : BitVec 8)
  /-- LINE_TRANSFER (R205). -/
  | lineTransfer (who : Agent)
  /-- TRACK_REMAP (R222). -/
  | trackRemap (bank : BitVec 8)
  /-- BARRIER_COMPLETION (R305). -/
  | barrierCompletion (b : BarKey)
  /-- BARRIER_CONFIG_WRITE (R303). -/
  | barrierConfigWrite (b : BarKey) (cfg : BarCfg)
  /-- QUEUE_CONTROL_WRITE (R329). -/
  | queueControlWrite (die : BitVec 2) (q : BitVec 16) (x : Word)
  /-- PRICKING_SELECTION (R336). -/
  | prickingSelection (die : BitVec 2)
  /-- START_MESSAGE_SEND (R340). -/
  | startMessageSend (die : BitVec 2)
  /-- SPRAY_TREE_WRITE (R327). -/
  | sprayTreeWrite (router : CoreId) (tree : BitVec 6) (mask : Option (BitVec 5))
  /-- TRACE_RING_CONTROL_WRITE (R349). -/
  | traceRingControlWrite (p : PortKey) (x : Word) (entries : List (BitVec 128))
  /-- TRACE_REPLAY_TIMEOUT (R350). -/
  | traceReplayTimeout (p : PortKey)
  /-- MEMORY_LINE_WRITE (R366). -/
  | memoryLineWrite (pa : Nat) (bytes : List Byte)
  /-- MEMORY_LINE_READ (R367). -/
  | memoryLineRead (pa : Nat) (errs : List (BitVec 7))
  /-- PATROL_SCRUB (R368). -/
  | patrolScrub (pa : Nat) (errs : List (BitVec 7))
  /-- ERASURE_REGISTER_WRITE (R365). -/
  | erasureRegisterWrite (rank : BitVec 6) (x : Word)
  /-- FRAME_TAG_WRITE (R372). -/
  | frameTagWrite (frame : BitVec 25) (x : Word)
  /-- ROOT_TABLE_WRITE (R369). -/
  | rootTableWrite (die : BitVec 2) (space : BitVec 16) (x : Word)
  /-- PAGE_WALK (R370). -/
  | pageWalk (va : Word) (acc : Access)
  /-- THERMAL_TRIP (R377). -/
  | thermalTrip (die : BitVec 2)
  /-- THERMAL_CLEAR (R377). -/
  | thermalClear (die : BitVec 2)
  /-- TELEMETRY_FRAME (R378). -/
  | telemetryFrame (f : BitVec 128)
  /-- MEASURING_WINDOW_CLOSE (R383): the power off the core rails in W, of each core and, of the part off the rails,
  that of each region in mW (log entry 78). -/
  | measuringWindowClose (base : Nat) (cores : List (CoreId × Nat)) (off : Vector Nat 48)
  /-- CLASS_SLOWDOWN (R385). -/
  | classSlowdown (c : BitVec 3)
  /-- PCAP_WRITE (R381). -/
  | pcapWrite (x : Word)
  /-- CLASSFLOOR_WRITE (R381). -/
  | classfloorWrite (x : BitVec 128)
  /-- VCURVE_WRITE (R382). -/
  | vcurveWrite (x : BitVec 1024)
  /-- FCURVE_WRITE (R382). -/
  | fcurveWrite (x : BitVec 1024)
  /-- REG_WRITE (R397). -/
  | regWrite (q : HostReq)
  /-- REG_READ (R397). -/
  | regRead (q : HostReq)
  /-- LOAD (R397). -/
  | load (q : HostReq)
  /-- STORE (R397). -/
  | store (q : HostReq)
  /-- ATOMIC (R397). -/
  | atomic (q : HostReq)
  /-- LAUNCH_APPEND (R397). -/
  | launchAppend (q : HostReq)
  /-- ACCUMULATE (R397). -/
  | accumulate (q : HostReq)
  /-- POD_BARRIER_ARRIVAL (R399). -/
  | podBarrierArrival (id : BitVec 4) (pkg : BitVec 9) (x : Word)
  /-- POD_BARRIER_COMPLETION (R400). -/
  | podBarrierCompletion (id : BitVec 4) (x : Word)
  /-- POD_REMOTE_ACCESS (R395). -/
  | podRemoteAccess (x : PodAccess)
  /-- FIRMWARE_UPDATE (R388). -/
  | firmwareUpdate (ongoing : Bool)
  /-- HOST_CREDENTIAL_INSTALL (R396). -/
  | hostCredentialInstall (slot : BitVec 3) (endpoint : BitVec 16) (space : BitVec 16) (gen : BitVec 8)
  /-- FKEEP (R153). -/
  | fkeep
  /-- EXIT (R160). -/
  | exit
  /-- COMMIT (R161). -/
  | commit
  /-- COMMIT.W (R161). -/
  | commitW
  /-- WFE (R162). -/
  | wfe
  /-- FENCE.R (R163). -/
  | fenceR
  /-- FENCE.W (R163). -/
  | fenceW
  /-- FENCE.RW (R163). -/
  | fenceRw
  /-- XFENCE (R164). -/
  | xfence
  /-- CPW (R272). -/
  | cpw
  /-- SRET (R169). -/
  | sret
  /-- ERET (R170). -/
  | eret
  /-- IFLUSH (R171). -/
  | iflush
  /-- ISSUE_QUANTUM_EXPIRY (R187). -/
  | issueQuantumExpiry
  /-- TASK_DISPATCH (R12). -/
  | taskDispatch
  /-- FRAMECFG_APPLY (R193). -/
  | framecfgApply
  /-- INBOXCFG_APPLY (R193). -/
  | inboxcfgApply
  /-- PARK_TIMEOUT (R202). -/
  | parkTimeout
  /-- LOCAL_POST_ACCEPT (R200). -/
  | localPostAccept
  /-- MATRIX_COMMAND_START (R242). -/
  | matrixCommandStart
  /-- K_STEP_COMPLETE (R230). -/
  | kStepComplete
  /-- TABLE_REREAD (R250). -/
  | tableReread
  /-- TABLE_GIVE_UP (R251). -/
  | tableGiveUp
  /-- MATRIX_COMMAND_COMPLETE (R237). -/
  | matrixCommandComplete
  /-- BUCKET_REFILL (R243). -/
  | bucketRefill
  /-- GOVERNOR_WINDOW (R244). -/
  | governorWindow
  /-- COPY_COMMAND_START (R260). -/
  | copyCommandStart
  /-- COPY_FAULT_RESUME (R275). -/
  | copyFaultResume
  /-- COPY_COMMAND_COMPLETE (R272). -/
  | copyCommandComplete
  /-- TASK_END_REPORT (R333). -/
  | taskEndReport
  /-- CORE_KILL (R352). -/
  | coreKill
  /-- PACKAGE_RESET (R357). -/
  | packageReset
  /-- CYCLE_STRETCH (R376). -/
  | cycleStretch
  /-- CURRENT_LIMIT (R377). -/
  | currentLimit
  /-- TELEMETRY_FRAME_MISSING (R378). -/
  | telemetryFrameMissing
  /-- FAILSAFE_ENTRY (R378). -/
  | failsafeEntry
  /-- FAILSAFE_TICK (R378). -/
  | failsafeTick
  /-- CLASS_RESTORE (R386). -/
  | classRestore
  /-- HWHOLD_CLEAR (R387). -/
  | hwholdClear
  /-- FIRMWARE_WATCHDOG_EXPIRY (R388). -/
  | firmwareWatchdogExpiry
  /-- FIRMWARE_KICK (R388). -/
  | firmwareKick
  deriving DecidableEq, Repr

end Sys2Proof
end

