-- ==== Sys2Proof/Machine/State.lean ====
section
/-! DEFINITION. The state of an FXB-3 package as plain data: contexts, cores, dies, the package, what
is in flight between them, and the model's own counters (time, agenda, effect ids). Sparse tables are
lists of (key, value) with strictly rising keys and no entry equal to what an unlisted key reads as.
State.reset is the machine right after package reset. -/
namespace Sys2Proof.Machine

/-- Why the machine stops. -/
inductive Fault where
  /-- Raised by step when the agenda names a core id beyond the package (R294). Safe: no such core
  exists, and nothing is done. -/
  | noSuchCore
  deriving DecidableEq, Repr

/-- Why an instruction has no meaning. -/
inductive Refusal where
  /-- Raised by exec for an instruction without a meaning in this model. Safe: nothing is done. -/
  | notModelled (mnemonic : String)
  deriving DecidableEq, Repr

/-- A byte memory in canonical form: addresses strictly rising, no byte equal to what an unlisted
address reads as. -/
abbrev Memory := List Host.Cell

/-- A sparse table in the same form. -/
abbrev Table (α : Type) := List (Nat × α)

/-- The abortive causes (R29) by name. -/
inductive Cause where
  | illegal | access | align | staleGen | guard | bound | track | watchdog | sigAbort
  deriving DecidableEq, Repr

/-- A head register (R206). -/
structure Head where
  bank : BitVec 8
  pos  : BitVec 8
  step : BitVec 5
  bnd  : Bool
  disp : Bool
  busy : Bool
  rcnt : BitVec 4
  err  : Bool
  deriving DecidableEq, Repr

/-- An entry of the entry table (R198). -/
structure Entry where
  d0 : Word
  d1 : Word
  deriving DecidableEq, Repr

/-- A capture block (R158): three descriptors and the counted bits. -/
structure Capture where
  dsc  : Vector Word 3
  cntd : BitVec 3
  deriving DecidableEq, Repr

/-- The launch a start task belongs to (R333): die, launch number on the die, its exit barrier if the
task is a gang member, its power class (R340). -/
structure LaunchRef where
  die    : BitVec 2
  id     : Nat
  pclass : BitVec 3
  exitB  : Option (BitVec 6)
  remote : Bool
  persist : Bool
  gang   : List CoreId
  deriving DecidableEq, Repr

/-- A space id, a generation and the privilege of who makes a fabric access (R370, R372). -/
structure Tag where
  space : BitVec 16
  gen   : BitVec 8
  priv  : Bool
  deriving DecidableEq, Repr

/-- What a record brings from the run before it was restarted: the tag of the references kept with it, the cause of
the abortive trap that returned it, if one did, its committed flag then, and whether its band has been released for it
(R29, R351). -/
structure Past where
  tag       : Tag
  cause     : Option Cause
  committed : Bool
  retried   : Bool
  deriving DecidableEq, Repr

/-- A message (R316): header, capture block, payload after decompression, its bits as coded (R326),
what its network interface knows of its sender, the argument of a restarted countdown or retirement
task (R354), and how often it was sent; past, of a restarted record, the tag of the references kept with it, and the
cause and committed flag of the abortive trap that returned it, if one did, with the flag as it stood (R351, R354). -/
structure Msg where
  h0      : Word
  h1      : Word
  cap     : Option Capture
  payload : List Byte
  coded   : Option (List Bool)
  cls     : BitVec 3
  priv    : Bool
  quad    : Bool
  launch  : Option LaunchRef
  kept    : Option (Vector Word 3 × BitVec 3)
  arg     : Word
  tries   : Nat
  past    : Option Past := none
  deriving DecidableEq, Repr

/-- What an effect or a request does at its port. Addresses are scratchpad or instruction-store
offsets at a core, physical addresses at a channel, virtual ones towards another package. -/
inductive Op where
  /-- Plain bytes (R105, R144, R151). -/
  | store (cells : List Host.Cell)
  /-- A frame-operand store to slot 0 (R152). -/
  | slot0 (a : Nat) (x : Word)
  /-- Bytes of an instruction store (R195). -/
  | istore (cells : List Host.Cell)
  /-- Whole entries of an entry table (R195, R199). -/
  | entries (es : List (Nat × Entry))
  /-- An atomic (R117). -/
  | atomic (fn : BitVec 4) (z : Size) (a : Nat) (b e : Word)
  /-- A load of the listed bytes (R344). -/
  | load (addrs : List Nat)
  /-- A message (R316). -/
  | msg (m : Msg)
  /-- A countdown decrement of n (R159). -/
  | cdec (a n : Nat) (user : Option Word)
  /-- A frame increment of n (R23, R338). -/
  | frameInc (a n : Nat)
  /-- The increment a SPAWN makes for the parent's d0, which may make that frame live (R23). -/
  | frameOwn (a : Nat)
  /-- A frame release (R24). -/
  | frameRel (a : Nat)
  /-- A write of event latches (R162). -/
  | sev (mask : BitVec 4)
  /-- The retirement task that a channel posts on a core, with its entry and argument (R25). -/
  | retire (entry : BitVec 8) (arg : Word)
  deriving DecidableEq, Repr

/-- An effect of a hoop (R283): its id, its size in the hoop, where it goes, what it does. A SPAWN's increments
stand before it; ahead marks them: they are acknowledged before the SPAWN's message leaves (R23). sent: it has left
the hoop's chunk for its route. copies is the number of acknowledgements it awaits (R328). drops names the display
register whose release it is, as it stood (R29). -/
structure Effect where
  eid   : Nat
  size  : Nat
  dst   : Port
  pkg   : Option (BitVec 9)
  tag   : Tag
  va    : Nat
  op    : Op
  ahead : Bool
  sent  : Bool
  copies : Nat
  drops : Option (BitVec 2 × Word)
  deriving DecidableEq, Repr

/-- A committed chunk of a hoop (R283): those of its effects that are not all acknowledged. -/
structure Chunk where
  effs  : List Effect
  deriving DecidableEq, Repr

/-- What travels on a route. -/
inductive Body where
  /-- A request or an effect. -/
  | op (o : Op)
  /-- The bytes a load reads (R107). -/
  | loadReply (bytes : List Byte)
  /-- The value an atomic reads (R117). -/
  | atomicReply (v : Word)
  /-- An acknowledgement (R161). -/
  | ack
  /-- A refusal with its cause and the request refused: a message (R201, R323), or whatever a missing sampler holds
  back (R325). -/
  | nack (cause : BitVec 8) (o : Op)
  /-- An error packet with its cause, and the message or the USER of an engine's decrement that it answers, if it
  answers one (R237, R272, R320, R353). -/
  | err (cause : BitVec 8) (m : Option Msg) (user : Option Word)
  /-- A reply refused by a frame tag (R373). -/
  | stale
  /-- A reply that carries poison (R367). -/
  | poisoned
  deriving DecidableEq, Repr

/-- Who sent a packet within its source. -/
inductive Origin where
  | ctx (c : CtxNo)
  | engine
  | matrix
  | ni
  | pricking
  deriving DecidableEq, Repr

/-- A packet in flight (R316, R318): more marks that its group goes on (R343). A spray's copy travels in a
class of its own (R313). dr: it is the first sent again after a refusal for want of a sampler, the DR of a packet that
is no message (R325). -/
structure Packet where
  route  : Route
  who    : Origin
  eid    : Nat
  more   : Bool
  spray  : Bool
  tag    : Tag
  va     : Nat
  body   : Body
  dr     : Bool := false
  deriving DecidableEq, Repr

/-- How the bytes a load delivers are written. -/
inductive Dest where
  /-- A scalar load or frame load (R107, R151). -/
  | g (d : Reg) (signed : Bool)
  /-- TRESTORE and VTRESTORE (R155). -/
  | gcounts (d : Reg)
  | vcounts (d : Reg)
  /-- A vector load of raw lanes of width w, the active ones listed (R141). -/
  | lanes (d : Reg) (w : Nat) (u : Bool) (act : List Bool)
  /-- An atomic's old value (R117). -/
  | amo (d : Reg)
  /-- A line of far code homed on another package (R395). -/
  | code (va : Nat)
  deriving DecidableEq, Repr

/-- An access whose answer the context awaits: the bytes found so far, the places in them of the bytes
asked for, and what is still to be asked of other packages (place and virtual address of each byte). -/
structure Pending where
  eid  : Nat
  fwd  : List (Option Byte)
  pos  : List Nat
  more : List (BitVec 9 × List (Nat × Nat))
  dest : Dest
  deriving DecidableEq, Repr

/-- A barrier by number: scope code * 2^16 + instance * 64 + id (R301). -/
abbrev BarNo := Nat

/-- What a context stalls for at a local queue (R166): to push a word, to pop one into a register. -/
inductive QOp where
  | push (x : Word)
  | pop (d : Reg)
  deriving DecidableEq, Repr

/-- Why a context stalls, as far as another rule asks: in WAIT (R165, R385), in an operation of a head that
waits for its bank (R209), at a local queue (R166), at the fetch of an instruction that replay holds back (R350), for
anything else. -/
inductive Stall where
  | other
  | fetch
  | queue (q : BitVec 2) (op : QOp)
  | barrier (b : BarNo)
  | head (h : BitVec 2)
  deriving DecidableEq, Repr

/-- Why a context is suspended (R28, R168). -/
inductive Suspend where
  | pageFault (va : Word)
  | fetchMiss (va : Word)
  | trap (code : BitVec 13)
  deriving DecidableEq, Repr

/-- What a context is doing. -/
inductive Phase where
  | free
  | running
  | suspended (w : Suspend)
  /-- The task has ended; the hoop drains (R160). again: the record was requeued (R170). -/
  | ending
  /-- A gang member whose exit arrival waits for its acknowledgements, then parked (R298). -/
  | leaving
  | parked
  /-- Saved by the supervisor (R289); it was suspended for w. -/
  | saved (w : Suspend)
  deriving DecidableEq, Repr

/-- A task record of the inbox (R11, R16, R199, R200). since is the time its wait in its band counts from (R13), in
cycles of its core; front, of a record an abortive trap returned, when that was: it stands before those with 0, the
latest first (R29); trapped, of a record an abortive trap returned and the supervisor has not decided on, its cause
and committed flag (R31, R351); retried, that its band was once released for it; tag, that of the task that held the
references kept with it. -/
structure Record where
  cls     : BitVec 3
  msgid   : BitVec 32
  src     : CoreId
  pri     : BitVec 3
  band    : BitVec 2
  entryIx : BitVec 8
  entry   : Entry
  arg     : Word
  place   : Nat
  size    : Nat
  payOff  : Nat
  payLen  : Nat
  cap     : Option Capture
  kept    : Option (Vector Word 3 × BitVec 3)
  quad    : Bool
  launch  : Option LaunchRef
  msg     : Option Msg
  arrived : Nat
  since   : Nat
  front   : Nat
  retried : Bool
  trapped : Option (Cause × Bool)
  tag     : Tag
  deriving DecidableEq, Repr

/-- SIGMODE (R88). -/
structure SigMode where
  mode   : BitVec 2
  sticky : Bool
  inh    : Bool
  deriving DecidableEq, Repr

/-- Where a byte lies: by its physical address here, by its address and space on another package. -/
structure LinePlace where
  home : Option (BitVec 9)
  tag  : Tag
  va   : Nat
  pa   : Nat
  deriving DecidableEq, Repr

/-- A thread context (R10, R172). Of a fabric store at hand that has had to wait for a line of the gather buffer:
storing, the bytes of it that are still to be merged, its checks made and their places known (R144); evicted, whether
the oldest line drains for it (R285). caught: the words that the REP at hand has captured while replay holds the next
one back (R148, R350). lvDue: the ending of the task has still to read slot 0 of its d0 frame, which replay holds back
(R29, R298, R350). -/
structure Ctx where
  g          : Vector Word 32
  gc         : Vector Count 32
  v          : Vector VWord 32
  vc         : Vector (Vector Count 32) 32
  d          : Vector Word 4
  held       : BitVec 4
  h          : Vector Head 4
  pc         : Word
  sigthr     : BitVec 6
  sigmode    : SigMode
  sigvec     : Word
  sigpc      : Word
  sigop      : Word
  frm        : BitVec 3
  rep        : BitVec 34
  body       : List IWord
  caught     : List IWord
  replaying  : Bool
  tagbase    : Word
  scale5     : Word
  scale6     : Word
  gen        : BitVec 24
  stackbase  : Word
  stacklimit : Word
  actSeq     : BitVec 50
  lfsr       : BitVec 32
  latch      : Bool
  hoop       : List Effect
  chunks     : List Chunk
  committed  : Bool
  sinceCommit : Nat
  phase      : Phase
  stall      : Option Stall
  asleep     : Bool
  pending    : Option Pending
  frefWait   : Option (BitVec 2 × Nat)
  storing    : Option (List (LinePlace × Byte))
  evicted    : Bool
  lvDue      : Bool
  task       : Option Record
  trapDue    : Option (Cause × Bool × List Nat)
  wdAcc      : Nat
  wdFrom     : Option Nat
  deriving DecidableEq, Repr

/-- An area register (R192): the layout in force and a pending one. -/
structure Area where
  base : BitVec 8
  size : BitVec 8
  pend : Option (BitVec 8 × BitVec 8)
  deriving DecidableEq, Repr

/-- SHIFTINJ (R224). -/
structure Inj where
  bank  : BitVec 8
  pos   : BitVec 8
  ofs   : BitVec 4
  arm   : Bool
  fired : Bool
  deriving DecidableEq, Repr

/-- MXBUDGET (R243). -/
structure MxBudget where
  rate   : BitVec 16
  cap    : BitVec 16
  en     : Bool
  bucket : BitVec 24
  deriving DecidableEq, Repr

/-- MXGOV (R244) and the K-steps begun in the present window. FORCED is the power controller's (State.power). -/
structure MxGov where
  limit   : BitVec 16
  en      : Bool
  stalled : BitVec 32
  begun   : Nat
  deriving DecidableEq, Repr

/-- The clock of a core (R375); stretched: one cycle that lasts until the supply recovers (R376). -/
inductive Clock where
  | run | stretched | slowed | paused
  deriving DecidableEq, Repr

/-- A bound register and its flag (R241). -/
structure Bound where
  lo   : BitVec 32
  hi   : BitVec 32
  act  : BitVec 2
  flag : Bool
  deriving DecidableEq, Repr

/-- An accumulator cell: bits and count (R228). -/
structure Cell40 where
  bits  : BitVec 40
  count : Count
  deriving DecidableEq, Repr

/-- An f64 cell of an accumulator pair. -/
structure Cell64 where
  bits  : Word
  count : Count
  deriving DecidableEq, Repr

/-- A matrix command as queued (R231): its eight doublewords, the windows captured, its age, how
often it was passed over, its estimate once it is a head (R242). -/
structure MxCmd where
  dw     : Vector Word 8
  tag    : Word
  sc5    : Word
  sc6    : Word
  age    : Nat
  passed : Nat
  est    : Nat
  deriving DecidableEq, Repr

/-- A chain of a cell (R79): a value and its count; the value as bits of fa40 or f64. -/
structure Chain where
  bits  : Word
  count : Count
  deriving DecidableEq, Repr

/-- The running matrix command (R229, R235, R238): its owner, the cells before it, the chains E and O by
cell number, K-steps completed (of a weight load, lines loaded), table stall cycles of the stalls that are
over. Of the K-step at hand: fetched, the scratchpad and the weight buffer as its fetch of A, scales and B
found them (R236, R256); the table lines of its blocks that have started; ahead, the line read for the next
block (R250). Of a block that waits: the core cycle its stall began in, and its re-reads. waited: the
governor has held the next K-step back (R244). -/
structure MxRun where
  own     : CtxNo
  cmd     : MxCmd
  before  : List Chain
  even    : List Chain
  odd     : List Chain
  steps   : Nat
  tstall  : Nat
  fetched : Option (Memory × Memory)
  tables  : List (List Byte)
  ahead   : Option (List Byte)
  stall   : Option Nat
  reread  : Nat
  waited  : Bool
  deriving DecidableEq, Repr

/-- A copy command as queued (R261): its eight doublewords, what CPC captures, the reach and activation
of the issuing task, its age. -/
structure CpCmd where
  dw     : Vector Word 8
  tag    : Tag
  frm    : BitVec 3
  sbase  : Word
  slimit : Word
  reach  : List CoreId
  wide   : Bool
  age    : Nat
  seq    : BitVec 50
  deriving DecidableEq, Repr

/-- The running copy command (R260, R266): its owner, its next block, where a page fault holds it, the
bytes of other packages its block has, the accesses to other packages it awaits (R395); wrote: those
are the writes of its block, which is done with their answers (R275); checked: the packages it writes to have said
that it may (log entry 74); heldAt: the core at whose port replay holds an access of its block back, and with it the
route behind it (R350). -/
structure CpRun where
  own   : CtxNo
  cmd   : CpCmd
  block : Nat
  fault : Option Word
  got   : List (Nat × Byte)
  waits : List Nat
  wrote : Bool
  checked : Bool
  heldAt : Option CoreId := none
  deriving DecidableEq, Repr

/-- Who holds or claims a bank (R208). -/
inductive Holder where
  | head (c : CtxNo) (h : BitVec 2)
  | engine (h : Bool)
  deriving DecidableEq, Repr

/-- A bank of the shift store (R204, R205, R208, R222): the counted position, the true one, its holder, the
position it moves to and the core cycle that motion begins in, a rewind in progress, the claims that wait with their
time, the core cycle from which the holder has had no operation, the first one after the last line transfer's
occupancy and the head that transfer is of, the first boundary after that of its last grant: a boundary grants one
claim at the most; the spare that stands in for it. -/
structure Bank where
  counted : BitVec 8
  track   : Int
  holder  : Option Holder
  moving  : Option (BitVec 8)
  began   : Nat
  rewind  : Bool
  claims  : List (Holder × Nat)
  idle    : Nat
  taken   : Nat
  lastBy  : Option Holder
  granted : Nat
  spare   : Option (BitVec 4)
  failed  : Bool
  deriving DecidableEq, Repr

/-- A line of the store gather buffer (R285): its virtual and physical address, its bytes with their
writers, the tag of the last writer and that context with its activation, when it was last written; whether its
drain has begun: 0 until its channel performs it or it is sent (R281, R350), else the id of the access to its home
package that awaits its answer. -/
structure GLine where
  va    : Nat
  pa    : Nat
  home  : Option (BitVec 9)
  bytes : List (Option (Byte × CtxNo))
  tag   : Tag
  who   : CtxNo × BitVec 50
  last  : Nat
  drain : Option Nat
  deriving DecidableEq, Repr

/-- A leaf translation of a TLB or the translation cache (R371). -/
structure Leaf where
  tag   : BitVec 24
  vpage : Nat
  bits  : Nat
  pa    : Nat
  r     : Bool
  w     : Bool
  x     : Bool
  priv  : Bool
  deriving DecidableEq, Repr

/-- A line of the instruction cache (R197). -/
structure ILine where
  va    : Nat
  gen   : BitVec 24
  bytes : List Byte
  deriving DecidableEq, Repr

/-- A sampler (R325): the other core, its 64 entries (sparse, 0), whether the next coded message
carries DR, whether its parity shows an error. -/
structure Sampler where
  peer    : CoreId
  entries : Table Word
  reset   : Bool
  bad     : Bool
  deriving DecidableEq, Repr

/-- A request that waits to be sent again: a message (R201), or what the receiver refused for want of its sampler
(R325), with its place in its group (R343), its tag and address. -/
structure Resend where
  op   : Op
  samp : Bool
  who  : Origin
  eid  : Nat
  dst  : CoreId
  more : Bool
  tag  : Tag
  va   : Nat
  due  : Nat
  deriving DecidableEq, Repr

/-- A local post (R200): a task a core posts itself, a send failure, a core event. pri is the priority of a
core event's header, none the entry's; frees names the effect whose final outcome the posting is (R201); kept and
past are those of a restarted record (R354). -/
structure Post where
  cls     : BitVec 3
  pri     : Option (BitVec 3)
  entryIx : BitVec 8
  arg     : Word
  src     : CoreId
  msgid   : BitVec 32
  payload : List Byte
  cap     : Option Capture
  frees   : Option (CtxNo × Nat)
  kept    : Option (Vector Word 3 × BitVec 3) := none
  past    : Option Past := none
  deriving DecidableEq, Repr

/-- The memories of a core that carry SEC-DED: by words of 8 bytes the scratchpad and the weight buffer
(R191, R228), by words of 4 the instruction store (R197), by 8 words a line the shift store (R223). -/
inductive Array where
  | scratch | weight | istore | lines
  deriving DecidableEq, Repr

/-- A word of such a memory whose check bits show an error: one bit, or more (uncorrectable). -/
structure Flip where
  arr  : Array
  word : Nat
  bad  : Bool
  deriving DecidableEq, Repr

/-- A core (08, 09, 11, 14, 15). turn is the context current under R187, cur the one that issues or looks whether its
stall has ended. saves holds the contexts a save recorded (R289). doomed: the trap at hand has met an uncorrectable
error, which kills the core as the step ends (R191). frameWait: the frame of the record last chosen did not fit, and
no frame space has been freed since (R12). -/
structure Core where
  ctxs     : Vector Ctx 4
  saves    : Vector (Option Ctx) 4
  cur      : CtxNo
  turn     : CtxNo
  issued   : Nat
  doomed   : Bool := false
  frameWait : Bool := false
  killed   : Bool
  wdbudget : BitVec 6
  framecfg : Area
  inboxcfg : Area
  headpri  : BitVec 8
  inj      : Inj
  mxbudget : MxBudget
  mxgov    : MxGov
  lb       : Vector Word 3
  cycles   : Nat
  since    : Nat
  clock    : Clock
  clsSlow  : Bool
  stretch  : Nat
  corrected : Nat
  flips    : List Flip
  mem      : Memory
  wbuf     : Memory
  istore   : Memory
  icache   : List ILine
  entries  : Table Entry
  inbox    : List Record
  heldBands : BitVec 4
  heldAt   : Vector Nat 4
  frames   : List (Nat × Nat)
  park     : Option (Msg × Packet × Nat)
  posts    : List Post
  msgId    : BitVec 32
  q        : Vector (List Word) 4
  acc      : Table Cell40
  tiles    : Table Cell64
  f64tag   : BitVec 8
  steps    : Vector Nat 8
  tstall   : Vector Nat 8
  lattice  : Option (List Byte)
  bounds   : Vector Bound 8
  mxq      : Vector (List MxCmd) 4
  mxrun    : Option MxRun
  cpq      : Vector (List CpCmd) 4
  cprun    : Option CpRun
  cpdone   : Vector Nat 4
  eng      : Vector Head 2
  lines    : Table VWord
  banks    : Table Bank
  spares   : BitVec 8
  gather   : List GLine
  tlb      : List Leaf
  txSamp   : List Sampler
  rxSamp   : List Sampler
  refuse   : List CoreId
  resend   : List Resend
  ends     : List LaunchRef
  deriving DecidableEq, Repr

/-- A launch record with who appended it and under which tag (R330, R341), what of it has been placed:
its tasks or gangs, and its start tasks (R340). -/
structure Launch where
  dw     : Vector Word 8
  src    : Option CoreId
  tag    : Tag
  placed : Nat
  tasks  : Nat
  id     : Nat
  deriving DecidableEq, Repr

/-- A work queue (R329). starve: the selections through which its head has been ineligible only for want of open
cores; quals: those since which it qualifies for a reservation (R337). -/
structure Queue where
  en    : Bool
  sys   : Bool
  priv  : Bool
  level : BitVec 3
  age   : BitVec 16
  recs  : List Launch
  starve : Nat
  quals  : Nat
  deriving DecidableEq, Repr

/-- A launch some of whose tasks have been placed (R333, R341): its queue, its tasks ended, the core of
each task in flight. -/
structure Flight where
  launch  : Launch
  queue   : BitVec 16
  ended   : Nat
  cores   : List CoreId
  deriving DecidableEq, Repr

/-- A start message chosen by a placement and not yet sent (R338, R340). -/
structure Start where
  dst   : CoreId
  msg   : Msg
  flight : Nat
  deriving DecidableEq, Repr

/-- A die (19, 20, 23). placing: the queue and the id of the record being placed (R335, R338); resend: start messages
to be sent again (R339); again: the launches, one for each task to be placed again, whose queue has no
room for their record (R329, R339). -/
structure Die where
  queues   : Table Queue
  last     : Vector (BitVec 16) 8
  msgCnt   : BitVec 32
  launchCnt : Nat
  flights  : List Flight
  starts   : List Start
  incs     : List Nat
  placing  : Option (BitVec 16 × Nat)
  resend   : List Resend
  again    : List Nat
  gangs    : List (BitVec 6 × List CoreId × Nat)
  reserve  : Option (BitVec 16 × Nat × List CoreId)
  withheld : BitVec 16
  trees    : Table (BitVec 6)
  roots    : Table Word
  tcache   : List Leaf
  hot      : Bool
  deriving DecidableEq, Repr

/-- A barrier (R301, R302). podCame: at the root of a pod barrier the packages that have arrived (R399), at another
package the root, once a completion of it that replay holds back has come (R350). emptied: its last living member has
been killed in the present phase (R307). -/
structure Barrier where
  en     : Bool
  shed   : Bool
  pclass : BitVec 3
  exitb  : Bool
  p      : Bool
  held   : Bool
  cmask  : BitVec 3072
  qmask  : BitVec 768
  dmask  : BitVec 3
  pmask  : BitVec 512
  came   : List CoreId
  told   : Bool
  podCame : List (BitVec 9)
  emptied : Bool
  deriving DecidableEq, Repr

/-- A pod barrier's reduction (R400) and the root's accumulator. -/
structure PodRed where
  lt   : BitVec 4
  tag  : BitVec 24
  src  : Word
  res  : Word
  acc  : Option Word
  deriving DecidableEq, Repr

/-- A rank's erasure register (R365). -/
structure Erasure where
  marks   : BitVec 32
  cecnt   : BitVec 16
  lastpos : BitVec 7
  deriving DecidableEq, Repr

/-- A trace ring (R349): entries oldest first, the first being at index head - fill; in replay the first left of them
wait for their accesses (R350). -/
structure Ring where
  en      : Bool
  stop    : Bool
  onlyrem : Bool
  replay  : Bool
  lost    : Bool
  head    : BitVec 8
  log     : List (BitVec 128)
  left    : Nat
  since   : Nat
  deriving DecidableEq, Repr

/-- A codeword of a memory module (R364): a half of a line's slot by its number, a block of a channel's
metadata array, a block of the tag array (R372; log entry 48). -/
inductive Codeword where
  | half (h : Nat)
  | codes (chan blk : Nat)
  | tags (n : Nat)
  deriving DecidableEq, Repr

/-- What the supervisors receive (R29, R168, R351). adds: what a rule adds to the fields of a fault record, KIND and
block number (R275), bank and position (R222), or all four for an engine's track fault. fabricErr: the frame error
record of a fabric frame by its physical address, with the package and core whose release or increment it is, none of
a host (R26). performed: whether the effect of an atomic that a fault record answers for was performed, where it is
known (R121). -/
inductive SupRec where
  | fault (core : CoreId) (c : CtxNo) (cause : Cause) (pc : Word) (msgid : BitVec 32)
      (committed : Bool) (contained : Bool) (adds : List Nat) (performed : Option Bool)
  | restartable (core : CoreId) (c : CtxNo) (w : Suspend) (pc : Word) (msgid : BitVec 32)
  | service (core : CoreId) (c : CtxNo) (code : BitVec 13) (pc : Word) (msgid : BitVec 32)
  | saved (core : CoreId) (c : CtxNo)
  | copyFault (core : CoreId) (va : Word)
  | frameErr (frame : Nat) (core src : CoreId)
  | fabricErr (pa : Nat) (src : Option (BitVec 9 × CoreId))
  | countdown (core : CoreId) (a : Nat) (user : Option Word)
  | error (core : CoreId) (code : Nat) (a : Nat)
  | discarded (core : CoreId) (cause : Option Cause) (msgid : BitVec 32) (committed : Bool)
  | fatal
  deriving DecidableEq, Repr

/-- A response to a host (R397): the endpoint, the header, its data. -/
structure Response where
  endpoint : BitVec 16
  hdr      : BitVec 128
  data     : List Byte
  deriving DecidableEq, Repr

/-- What this package sends to others of its pod (R395, R399): an access that awaits its answer, what a
barrier carries, the answer to an access of theirs. The accesses of one chunk to one package follow one
another (R343, R348). hdr: the header of the operation (R397); none of an error packet (R353, R395). -/
inductive PodOut where
  | access (hdr : BitVec 128) (core : CoreId) (c : CtxNo) (eid : Nat) (va : Nat) (tag : Tag) (pkg : BitVec 9) (op : Op)
      (more : Bool)
  | barrier (hdr : BitVec 128) (id : BitVec 4) (pkg : BitVec 9) (x : Word) (completion : Bool)
  | reply (hdr : Option (BitVec 128)) (pkg : BitVec 9) (a : PodAnswer)
  deriving DecidableEq, Repr

/-- The power controller (R378-R388): its registers, the shares of the last window with the power of each
region, the shares of shed classes, which classes have been shed for a millisecond, the times the rules
count from; issued: of each core, its cycles of the window at hand in which it issued for each class; marks: the
cycles each core had counted as the window began, windowAt of a core then as reset left it; the
status of the last write at the package power port (R379). -/
structure Power where
  capReg    : BitVec 16
  capForce  : BitVec 16
  shed      : BitVec 8
  hwhold    : BitVec 8
  target    : BitVec 16
  idleFloor : BitVec 16
  failsafe  : Bool
  fwfail    : Bool
  updating  : Bool
  floors    : Vector (BitVec 16) 8
  nomv      : BitVec 32
  nomf      : BitVec 32
  vfloor    : BitVec 32
  vcurve    : Vector (BitVec 32 × BitVec 11) 16
  fcurve    : Vector (BitVec 32 × BitVec 11) 16
  headroom  : BitVec 16
  shares    : Option (Nat × Vector Nat 8)
  regions   : Vector Nat 48
  issued    : Table (Vector Nat 8)
  marks     : Table Nat
  windowAt  : Nat
  status    : BitVec 8
  sl        : Vector Nat 8
  shedAt    : Vector Nat 8
  slowing   : BitVec 8
  fseq      : Option (BitVec 16)
  lastFrame : Nat
  missed    : Nat
  tickAt    : Nat
  restoreAt : Option Nat
  holdAt    : Option Nat
  kickAt    : Nat
  kicked    : Bool
  badFrames : Nat
  deriving DecidableEq, Repr

/-- A host credential (R396). -/
structure Credential where
  endpoint : BitVec 16
  space    : BitVec 16
  gen      : BitVec 8
  deriving DecidableEq, Repr

/-- What comes from outside without being a row of the opcode table (log entry 57): errors that radiation makes in the
memories of the core in focus (R191, R374), in a codeword of a module (R364) or in a sampler (R325), and the writes of
the package supervisor at the power port and of PODCFG that have no row of their own (R379, R394). A host's release of
its reference to a fabric frame (R27). The firmware image that a host writes and the boot loads that firmware sends
(R357-R359). And the order of the classes in the mesh: on a route the oldest spray copy goes ahead of the other
requests there, or the oldest of those ahead of the spray copies (R313, R328). -/
inductive Outside where
  | flip (f : Flip)
  | symbols (w : Codeword) (at_ : List (BitVec 7))
  | parity (send : Bool) (peer : CoreId)
  | powerPort (reg : Nat) (bytes : List Byte)
  | podcfg (x : BitVec 10)
  | hostRelease (endpoint : BitVec 16) (va : Word)
  | overtake (r : Route) (spray : Bool)
  | image
  | bootLoads (die : BitVec 2) (loads : List (Bool × BitVec 12 × List Byte))
  deriving DecidableEq, Repr

/-- One entry of the agenda (log entry 4): cycles of the 4 GHz clock that pass first, the core in
focus, what comes from outside besides, and the event, or none for an instruction of that core. -/
structure Agendum where
  wait : Nat
  core : CoreId
  out  : Option Outside
  ev   : Option Instr
  deriving DecidableEq, Repr

/-- How far boot has come before its step 4 (R357): the routers are up; core 0x000 runs from ROM as the package
supervisor, has collected the maps of the dies, has brought up the ports and waits for the firmware image; a host has
written it. -/
inductive BootStage where
  | routers | rom | image
  deriving DecidableEq, Repr

/-- What the discovery packet collects of a die (R357): the sites fused off, and the free spares of those cores whose
shift store has not all eight. -/
structure DieMap where
  fuses  : List CoreId
  spares : List (CoreId × BitVec 8)
  deriving DecidableEq, Repr

/-- The package. core is the core in focus, coreId its id; others holds every other core that is not as reset left it.
COREID's logical numbers, CORECOUNT and TOPOEV, which every core reads alike (R355), stand once: logmap lists the
numbers that differ from those of boot. bootAt, maps, started: boot up to its step 3, what discovery collected, the
supervisors that run; booted: step 4 is done (R357). Of the memory modules, poison lists the halves written as poison,
badWords such blocks of metadata and tags, symErrs the symbols in error, rawLines the lines that a direct write of one
half left raw though their bytes fit a shorter form (R363, R366). -/
structure State where
  core      : Core
  coreId    : CoreId
  others    : Table Core
  dies      : Vector Die 3
  bars      : Table Barrier
  reds      : Table PodRed
  dram      : Memory
  poison    : List Nat
  symErrs   : List (Codeword × List (BitVec 7))
  badWords  : List Codeword
  rawLines  : List Nat
  erasures  : Table Erasure
  ftags     : Table (BitVec 26)
  net       : List Packet
  downLinks : List Nat
  retries   : Table Nat
  rings     : Table Ring
  records   : List SupRec
  responses : List Response
  podOut    : List PodOut
  power     : Power
  bootAt    : BootStage
  maps      : List DieMap
  started   : List CoreId
  booted    : Bool
  podcfg    : BitVec 10
  podDrop   : BitVec 32
  creds     : Table (Option Credential)
  stopped   : Bool
  logmap    : Table (Option (BitVec 12))
  count     : BitVec 16
  topoev    : BitVec 32
  eids      : Nat
  free      : Nat
  now       : Nat
  agenda    : List Agendum
  deriving DecidableEq, Repr

/-- An unbound head (R206). -/
def Head.unbound : Head :=
  { bank := 0, pos := 0, step := 0, bnd := false, disp := false, busy := false, rcnt := 0, err := false }

/-- The seed of a context's LFSR (R76). -/
def lfsrSeed (core : CoreId) (c : CtxNo) : BitVec 32 :=
  0x5A7C0001 ^^^ (core.setWidth 32 <<< 4) ^^^ (c.setWidth 32 <<< 2)

/-- A context at package reset (R172; log entry 2). -/
def Ctx.reset (core : CoreId) (c : CtxNo) : Ctx :=
  { g := Vector.replicate 32 0, gc := Vector.replicate 32 63
    v := Vector.replicate 32 0, vc := Vector.replicate 32 (Vector.replicate 32 63)
    d := Vector.replicate 4 0, held := 0, h := Vector.replicate 4 Head.unbound, pc := 0
    sigthr := 0, sigmode := { mode := 0, sticky := false, inh := false }
    sigvec := 0, sigpc := 0, sigop := 0, frm := 0, rep := 0, body := [], caught := [], replaying := false
    tagbase := 0, scale5 := 0, scale6 := 0, gen := 0, stackbase := 0, stacklimit := 0
    actSeq := 0, lfsr := lfsrSeed core c, latch := false, hoop := [], chunks := []
    committed := false, sinceCommit := 0, phase := .free, stall := none, asleep := false
    pending := none, frefWait := none, storing := none, evicted := false, lvDue := false, task := none, trapDue := none
    wdAcc := 0, wdFrom := none }

/-- A bound register at reset (R241). -/
def Bound.reset : Bound := { lo := 0xFF800000, hi := 0x7F800000, act := 0, flag := false }

/-- A bank at reset (R203). -/
def Bank.reset : Bank :=
  { counted := 0, track := 0, holder := none, moving := none, began := 0, rewind := false, claims := []
    idle := 0, taken := 0, lastBy := none, granted := 0, spare := none, failed := false }

/-- A core at package reset. DESIGN CHOICE (log entry 63): MXGOV resets to LIMIT 0x0020 and EN 1 as R244's field map
has it, where R172's table has 0. Unsafe. -/
def Core.reset (c : CoreId) : Core :=
  { ctxs := #v[Ctx.reset c 0, Ctx.reset c 1, Ctx.reset c 2, Ctx.reset c 3], saves := Vector.replicate 4 none
    cur := 0, turn := 0, issued := 0, doomed := false, killed := false, wdbudget := 22
    framecfg := { base := 0x60, size := 0x40, pend := none }
    inboxcfg := { base := 0xA0, size := 0x20, pend := none }
    headpri := 0, inj := { bank := 0, pos := 0, ofs := 0, arm := false, fired := false }
    mxbudget := { rate := 0, cap := 0, en := false, bucket := 0 }
    mxgov := { limit := 0x0020, en := true, stalled := 0, begun := 0 }
    lb := Vector.replicate 3 0, cycles := 0, since := 0, clock := .run, clsSlow := false
    stretch := 0, corrected := 0, flips := [], mem := [], wbuf := [], istore := [], icache := []
    entries := [], inbox := [], heldBands := 0, heldAt := Vector.replicate 4 0, frames := [], park := none, posts := []
    msgId := 0, q := Vector.replicate 4 [], acc := [], tiles := [], f64tag := 0
    steps := Vector.replicate 8 0, tstall := Vector.replicate 8 0, lattice := none
    bounds := Vector.replicate 8 Bound.reset, mxq := Vector.replicate 4 [], mxrun := none
    cpq := Vector.replicate 4 [], cprun := none, cpdone := Vector.replicate 4 0
    eng := Vector.replicate 2 Head.unbound, lines := [], banks := [], spares := 0xFF
    gather := [], tlb := [], txSamp := [], rxSamp := [], refuse := [], resend := [], ends := [] }

/-- A queue at reset (R329). -/
def Queue.reset : Queue :=
  { en := false, sys := false, priv := false, level := 0, age := 0, recs := [], starve := 0, quals := 0 }

/-- A die at reset. -/
def Die.reset : Die :=
  { queues := [], last := Vector.replicate 8 0xFFFF, msgCnt := 0, launchCnt := 0, flights := []
    starts := [], incs := [], placing := none, resend := [], again := [], gangs := [], reserve := none, withheld := 0, trees := [], roots := []
    tcache := [], hot := false }

/-- A barrier at reset (R302). -/
def Barrier.reset : Barrier :=
  { en := false, shed := false, pclass := 0, exitb := false, p := false, held := false, cmask := 0
    qmask := 0, dmask := 0, pmask := 0, came := [], told := false, podCame := [], emptied := false }

/-- A pod barrier's reduction registers at reset (log entry 2). -/
def PodRed.reset : PodRed := { lt := 0, tag := 0, src := 0, res := 0, acc := none }

/-- An erasure register at reset (R365). -/
def Erasure.reset : Erasure := { marks := 0, cecnt := 0, lastpos := 0 }

/-- A trace ring at reset (R349). -/
def Ring.reset : Ring :=
  { en := false, stop := false, onlyrem := true, replay := false, lost := false, head := 0
    log := [], left := 0, since := 0 }

/-- A droop curve at reset (R382): DEV = -15 + i, FRAC = 1,024. -/
def curveReset : Vector (BitVec 32 × BitVec 11) 16 :=
  #v[(0xFFFFFFF1, 1024), (0xFFFFFFF2, 1024), (0xFFFFFFF3, 1024), (0xFFFFFFF4, 1024),
     (0xFFFFFFF5, 1024), (0xFFFFFFF6, 1024), (0xFFFFFFF7, 1024), (0xFFFFFFF8, 1024),
     (0xFFFFFFF9, 1024), (0xFFFFFFFA, 1024), (0xFFFFFFFB, 1024), (0xFFFFFFFC, 1024),
     (0xFFFFFFFD, 1024), (0xFFFFFFFE, 1024), (0xFFFFFFFF, 1024), (0, 1024)]

/-- The power controller at reset (R380, R382). -/
def Power.reset : Power :=
  { capReg := 2400, capForce := 2400, shed := 0, hwhold := 0, target := 2400, idleFloor := 360
    failsafe := false, fwfail := false, updating := false, floors := Vector.replicate 8 0
    nomv := 54000, nomf := 50000, vfloor := 42000, vcurve := curveReset, fcurve := curveReset
    headroom := 0, shares := none, regions := Vector.replicate 48 0, issued := [], marks := [], windowAt := 0, status := 0, slowing := 0, sl := Vector.replicate 8 0, shedAt := Vector.replicate 8 0
    fseq := none, lastFrame := 0, missed := 0, tickAt := 0, restoreAt := none, holdAt := none, kickAt := 0, kicked := false
    badFrames := 0 }

/-- The package right after package reset, its routers up (R357): core 0x001, logical number 0, in focus; nothing in
any memory, no task anywhere, no packet, no agenda. -/
def State.reset : State :=
  { core := Core.reset 1, coreId := 1, others := [], dies := Vector.replicate 3 Die.reset
    bars := [], reds := [], dram := [], poison := [], symErrs := [], badWords := [], rawLines := [], erasures := [], ftags := [], net := []
    downLinks := [], retries := [], rings := [], records := [], responses := [], podOut := []
    power := Power.reset, bootAt := .routers, maps := [], started := [], booted := false, podcfg := 0, podDrop := 0, creds := [], stopped := false
    logmap := [], count := BitVec.ofNat 16 (3069 - Config.fusedOff.length), topoev := 0, eids := 1
    free := 0, now := 0, agenda := [] }

end Sys2Proof.Machine
end

