-- ==== Sys2Proof/Machine/Store.lean ====
section
/-! DEFINITION. Sparse tables and byte memories (log entry 1), little-endian numbers (R3), bits of
vectors, and small list operations. -/
namespace Sys2Proof.Machine

/-- What a table holds at a key; dflt where no entry lists it. -/
def tget {α : Type} (dflt : α) : Table α → Nat → α
  | [], _ => dflt
  | (k, x) :: t, a => if k = a then x else tget dflt t a

/-- The table without key a. -/
def tdel {α : Type} : Table α → Nat → Table α
  | [], _ => []
  | (k, y) :: t, a => if k = a then tdel t a else (k, y) :: tdel t a

/-- The table with an entry for key a, in its place. -/
def tins {α : Type} : Table α → Nat → α → Table α
  | [], a, x => [(a, x)]
  | (k, y) :: t, a, x =>
    if a < k then (a, x) :: (k, y) :: t else if a = k then (a, x) :: t else (k, y) :: tins t a x

/-- The table with x at key a, in canonical form: no entry where x is what an unlisted key reads as. -/
def tput {α : Type} [DecidableEq α] (dflt : α) (t : Table α) (a : Nat) (x : α) : Table α :=
  if x = dflt then tdel t a else tins t a x

/-- The table with f applied at key a. -/
def tmod {α : Type} [DecidableEq α] (dflt : α) (t : Table α) (a : Nat) (f : α → α) : Table α :=
  tput dflt t a (f (tget dflt t a))

/-- All keys of a table lie above lo, strictly rise, and none holds dflt. -/
def twfFrom {α : Type} [DecidableEq α] (dflt : α) : Option Nat → Table α → Bool
  | _, [] => true
  | lo, (k, x) :: t =>
    (match lo with | none => true | some l => decide (l < k)) && !(decide (x = dflt)) &&
      twfFrom dflt (some k) t

/-- The canonical form of a table. -/
def twf {α : Type} [DecidableEq α] (dflt : α) (t : Table α) : Bool := twfFrom dflt none t

/-- The canonical form of a byte memory: addresses strictly rising, none equal to the unlisted byte. -/
def Memory.wf (m : Memory) : Bool := twf Config.unwritten m

/-- One byte of a memory. -/
def rd8 (m : Memory) (a : Nat) : Byte := tget Config.unwritten m a

/-- A memory after the store of one byte. -/
def wr8 (m : Memory) (a : Nat) (x : Byte) : Memory := tput Config.unwritten m a x

/-- n bytes from a upward. -/
def rdBytes (m : Memory) (a : Nat) : Nat → List Byte
  | 0 => []
  | n + 1 => rd8 m a :: rdBytes m (a + 1) n

/-- A memory after the stores of a list of cells, in order. -/
def wrCells (m : Memory) : List Host.Cell → Memory
  | [] => m
  | c :: cs => wrCells (wr8 m c.1 c.2) cs

/-- The cells a list of bytes fills from a upward. -/
def cellsAt (a : Nat) : List Byte → List Host.Cell
  | [] => []
  | b :: bs => (a, b) :: cellsAt (a + 1) bs

/-- A memory after a store of bytes from a upward. -/
def wrBytes (m : Memory) (a : Nat) (bs : List Byte) : Memory := wrCells m (cellsAt a bs)

/-- The little-endian number of a list of bytes (R3). -/
def leNat : List Byte → Nat
  | [] => 0
  | b :: bs => b.toNat + 256 * leNat bs

/-- The low n bytes of a number, little-endian (R3). -/
def leBytes : Nat → Nat → List Byte
  | 0, _ => []
  | n + 1, x => BitVec.ofNat 8 x :: leBytes n (x / 256)

/-- n bytes from a upward as a number. -/
def rdNat (m : Memory) (a n : Nat) : Nat := leNat (rdBytes m a n)

/-- Lane i of width w bits of a vector register (R122). -/
def laneNat (x : VWord) (w i : Nat) : Nat := (x.toNat >>> (w * i)) % 2 ^ w

/-- The vector with lanes of width w from a list, lane 0 first; missing lanes are 0. -/
def ofLanes (w : Nat) : List Nat → Nat
  | [] => 0
  | x :: xs => x % 2 ^ w + 2 ^ w * ofLanes w xs

/-- The lanes of width w of a vector register. -/
def lanesOf (x : VWord) (w : Nat) : List Nat := (List.range (512 / w)).map (laneNat x w)

/-- A vector register of lanes. -/
def vecOf (w : Nat) (xs : List Nat) : VWord := BitVec.ofNat 512 (ofLanes w xs)

/-- A bit of a number. -/
def nbit (x i : Nat) : Bool := (x >>> i) % 2 == 1

/-- Bits [lo+n-1:lo] of a number. -/
def nfld (x lo n : Nat) : Nat := (x >>> lo) % 2 ^ n

/-- A number of w bits read as two's complement. -/
def sgn (w x : Nat) : Int := if 2 ^ (w - 1) ≤ x then (x : Int) - 2 ^ w else x

/-- A number modulo 2^w from an integer. -/
def wrapNat (w : Nat) (x : Int) : Nat := (x % (2 ^ w : Nat)).toNat

/-- x brought into [lo, hi]. -/
def clampInt (lo hi x : Int) : Int := if x < lo then lo else if hi < x then hi else x

/-- A Bool as a number. -/
def b2n (b : Bool) : Nat := if b then 1 else 0

/-- Lists cut into pieces of n, using at most fuel of them. -/
def chunksOf {α : Type} (n : Nat) : Nat → List α → List (List α)
  | 0, _ => []
  | fuel + 1, xs => if xs.isEmpty then [] else xs.take n :: chunksOf n fuel (xs.drop n)

/-- The doublewords of 64 bytes. -/
def dwords (x : VWord) : Vector Word 8 :=
  #v[x.extractLsb' 0 64, x.extractLsb' 64 64, x.extractLsb' 128 64, x.extractLsb' 192 64,
     x.extractLsb' 256 64, x.extractLsb' 320 64, x.extractLsb' 384 64, x.extractLsb' 448 64]

/-- The bytes of a vector register, byte 0 first. -/
def vbytes (x : VWord) : List Byte := leBytes 64 x.toNat

/-- Left fold with the index of each element. -/
def foldIdx {α σ : Type} (f : Nat → α → σ → σ) : Nat → List α → σ → σ
  | _, [], s => s
  | i, x :: xs, s => foldIdx f (i + 1) xs (f i x s)

/-- The CRC-32C of a list of bytes, reflected, with initial value and final xor all ones (R276, R378). -/
def crcBit (c : Nat) : Nat := if c % 2 = 1 then (c / 2) ^^^ 0x82F63B78 else c / 2

def crcByte (c : Nat) (b : Byte) : Nat :=
  let x := c ^^^ b.toNat
  crcBit (crcBit (crcBit (crcBit (crcBit (crcBit (crcBit (crcBit x)))))))

def crc32c (bs : List Byte) : BitVec 32 :=
  BitVec.ofNat 32 ((bs.foldl crcByte 0xFFFFFFFF) ^^^ 0xFFFFFFFF)

end Sys2Proof.Machine
end

