-- ==== Sys2Proof/Machine/Num.lean ====
section
/-! DEFINITION. Number formats, rounding and significance counts (03). A value is exact (FNum); every
operation forms its exact result, or one with a sticky digit below all that rounding looks at, and
delivers it by one rounding. -/
namespace Sys2Proof.Machine

/-- An exact value: NaN, an infinity, or (-1)^s * m * 2^e. -/
inductive FNum where
  | nan
  | inf (s : Bool)
  | fin (s : Bool) (m : Nat) (e : Int)
  deriving DecidableEq, Repr

/-- A floating-point format (R70): exponent and fraction widths; which all-ones words are special. -/
structure FFmt where
  eb   : Nat
  fb   : Nat
  kind : Nat
  deriving DecidableEq, Repr

def f64F : FFmt := ⟨11, 52, 0⟩
def f32F : FFmt := ⟨8, 23, 0⟩
def f16F : FFmt := ⟨5, 10, 0⟩
def bf16F : FFmt := ⟨8, 7, 0⟩
def fa40F : FFmt := ⟨8, 31, 0⟩
def e5m2F : FFmt := ⟨5, 2, 0⟩
/-- e4m3 has no infinity (kind 1), e2m1 neither infinity nor NaN (kind 2) (R72). -/
def e4m3F : FFmt := ⟨4, 3, 1⟩
def e2m1F : FFmt := ⟨2, 1, 2⟩

def fmtBits (f : FFmt) : Nat := 1 + f.eb + f.fb
def fmtBias (f : FFmt) : Nat := 2 ^ (f.eb - 1) - 1
/-- The precision p (R70). -/
def fmtP (f : FFmt) : Nat := f.fb + 1
/-- The exponent of the last place of subnormals: log2 of the smallest subnormal. -/
def fmtQmin (f : FFmt) : Int := 1 - (fmtBias f : Int) - f.fb
/-- The largest finite value as significand and exponent. -/
def fmtMax (f : FFmt) : Nat × Int :=
  match f.kind with
  | 0 => (2 ^ (f.fb + 1) - 1, (2 ^ f.eb - 2 : Int) - fmtBias f - f.fb)
  | 1 => (14, 5)
  | _ => (3, 1)

/-- The value of a word (R71, R72). -/
def decodeF (f : FFmt) (x : Nat) : FNum :=
  let s := nbit x (f.eb + f.fb)
  let e := nfld x f.fb f.eb
  let m := nfld x 0 f.fb
  if e = 0 then .fin s m (fmtQmin f)
  else if f.kind = 0 && e == 2 ^ f.eb - 1 then (if m = 0 then .inf s else .nan)
  else if f.kind = 1 && e == 15 && m == 7 then .nan
  else .fin s (2 ^ f.fb + m) ((e : Int) - fmtBias f - f.fb)

/-- floor(log2 |x|) of a finite nonzero value (R83). -/
def fexp (m : Nat) (e : Int) : Int := (Nat.log2 m : Int) + e

/-- The canonical NaN (R72); e2m1 has none and takes +0 (R77). -/
def nanBits (f : FFmt) : Nat :=
  match f.kind with
  | 0 => (2 ^ f.eb - 1) * 2 ^ f.fb + 2 ^ (f.fb - 1)
  | 1 => 0x7F
  | _ => 0

/-- The word of a value that the format holds exactly. -/
def encodeF (f : FFmt) : FNum → Nat
  | .nan => nanBits f
  | .inf s => b2n s * 2 ^ (f.eb + f.fb) +
      (match f.kind with | 0 => (2 ^ f.eb - 1) * 2 ^ f.fb | 1 => 0x7F | _ => 7)
  | .fin s m e =>
    let sb := b2n s * 2 ^ (f.eb + f.fb)
    if m = 0 then sb
    else
      let q := max (fexp m e - f.fb) (fmtQmin f)
      let mm := if e ≥ q then m <<< (e - q).toNat else m >>> (q - e).toNat
      if mm < 2 ^ f.fb then sb + mm
      else sb + ((q + f.fb + fmtBias f).toNat) * 2 ^ f.fb + (mm - 2 ^ f.fb)

/-- Whether the magnitude lo rounds up, rem/2^k being what lies below it (R74, R76). -/
def roundsUp (r : Rnd) (s : Bool) (u : BitVec 32) (lo rem k : Nat) : Bool :=
  match r with
  | .rne | .dyn => decide (2 ^ k < 2 * rem) || (2 * rem == 2 ^ k && lo % 2 == 1)
  | .rna => decide (2 ^ k ≤ 2 * rem)
  | .rtz => false
  | .rdn => s && decide (0 < rem)
  | .rup => !s && decide (0 < rem)
  | .sr => decide (u.toNat < (rem * 2 ^ 32) / 2 ^ k)

/-- A rounded value, whether it is the exact one, whether saturation changed it. -/
structure Rounded where
  n     : FNum
  exact : Bool
  satd  : Bool
  deriving DecidableEq, Repr

/-- The value delivered where a magnitude overflows (R77). -/
def overflowF (f : FFmt) (r : Rnd) (sat s : Bool) : Rounded :=
  let mx := FNum.fin s (fmtMax f).1 (fmtMax f).2
  if sat || f.kind == 2 then ⟨mx, false, true⟩
  else
    let toInf := match r with
      | .rtz => false
      | .rdn => s
      | .rup => !s
      | _ => true
    if toInf then ⟨if f.kind == 1 then .nan else .inf s, false, false⟩ else ⟨mx, false, false⟩

/-- An exact value rounded to a format (R74-R77). u is the LFSR state of an SR rounding. -/
def roundF (f : FFmt) (r : Rnd) (sat : Bool) (u : BitVec 32) : FNum → Rounded
  | .nan => if f.kind == 2 then ⟨.fin false 0 0, false, false⟩ else ⟨.nan, true, false⟩
  | .inf s =>
    if sat || f.kind == 2 then ⟨.fin s (fmtMax f).1 (fmtMax f).2, false, true⟩
    else if f.kind == 1 then ⟨.nan, false, false⟩
    else ⟨.inf s, true, false⟩
  | .fin s m e =>
    if m = 0 then ⟨.fin s 0 0, true, false⟩
    else
      let q := max (fexp m e - f.fb) (fmtQmin f)
      let lo := if e ≥ q then m <<< (e - q).toNat else m >>> (q - e).toNat
      let k := (q - e).toNat
      let rem := if e ≥ q then 0 else m % 2 ^ k
      let up := decide (e < q) && roundsUp r s u lo rem k
      let m1 := if up then lo + 1 else lo
      let m2 := if m1 = 2 ^ (f.fb + 1) then 2 ^ f.fb else m1
      let q2 := if m1 = 2 ^ (f.fb + 1) then q + 1 else q
      if q2 > (fmtMax f).2 || (q2 == (fmtMax f).2 && decide ((fmtMax f).1 < m2)) then
        overflowF f r sat s
      else ⟨.fin s m2 q2, rem == 0, false⟩

def isZeroF : FNum → Bool
  | .fin _ m _ => m == 0
  | .nan | .inf _ => false

def isNanF : FNum → Bool
  | .nan => true
  | .inf _ | .fin _ _ _ => false

/-- Whether a value is an infinity or NaN. -/
def specialF : FNum → Bool
  | .nan | .inf _ => true
  | .fin _ _ _ => false

def negF : FNum → FNum
  | .nan => .nan
  | .inf s => .inf !s
  | .fin s m e => .fin (!s) m e

def signF : FNum → Bool
  | .nan => false
  | .inf s => s
  | .fin s _ _ => s

/-- A signed significand at exponent e0 ≤ e. -/
def alignF (s : Bool) (m : Nat) (e e0 : Int) : Int :=
  let x : Int := (m <<< (e - e0).toNat : Nat)
  if s then -x else x

/-- Exact sum; zero sums of unlike signs are +0, or -0 under RDN (R74). -/
def addF (r : Rnd) : FNum → FNum → FNum
  | .nan, _ => .nan
  | _, .nan => .nan
  | .inf s, .inf t => if s = t then .inf s else .nan
  | .inf s, .fin _ _ _ => .inf s
  | .fin _ _ _, .inf t => .inf t
  | .fin s m e, .fin t n k =>
    let e0 := min e k
    let z := alignF s m e e0 + alignF t n k e0
    if z = 0 then .fin (if m = 0 ∧ n = 0 ∧ s = t then s else r == .rdn) 0 0
    else .fin (decide (z < 0)) z.natAbs e0

/-- Exact product (R72). -/
def mulF : FNum → FNum → FNum
  | .nan, _ => .nan
  | _, .nan => .nan
  | .inf s, .inf t => .inf (s != t)
  | .inf s, .fin t n _ => if n = 0 then .nan else .inf (s != t)
  | .fin s m _, .inf t => if m = 0 then .nan else .inf (s != t)
  | .fin s m e, .fin t n k => .fin (s != t) (m * n) (e + k)

/-- Quotient to 70 bits more than any format keeps, with a sticky digit (R72, R111). -/
def divF : FNum → FNum → FNum
  | .nan, _ => .nan
  | _, .nan => .nan
  | .inf _, .inf _ => .nan
  | .inf s, .fin t _ _ => .inf (s != t)
  | .fin s _ _, .inf t => .fin (s != t) 0 0
  | .fin s m e, .fin t n k =>
    if n = 0 then (if m = 0 then .nan else .inf (s != t))
    else if m = 0 then .fin (s != t) 0 0
    else
      let sh := 140 + Nat.log2 n
      let x := m <<< sh
      let q := x / n
      .fin (s != t) (2 * q + (if x % n = 0 then 0 else 1)) (e - k - sh - 1)

/-- The integer square root, one bit a step from bit i downward. -/
def sqrtBits (x : Nat) : Nat → Nat → Nat
  | 0, acc => acc
  | i + 1, acc =>
    let t := acc + 2 ^ i
    sqrtBits x i (if t * t ≤ x then t else acc)

/-- Square root with a sticky digit (R72, R111). -/
def sqrtF : FNum → FNum
  | .nan => .nan
  | .inf s => if s then .nan else .inf false
  | .fin s m e =>
    if m = 0 then .fin s 0 0
    else if s then .nan
    else
      let odd := (e % 2).toNat
      let x := (m <<< odd) <<< 160
      let q := sqrtBits x (Nat.log2 x / 2 + 1) 0
      .fin false (2 * q + (if q * q = x then 0 else 1)) ((e - odd) / 2 - 80 - 1)

/-- Which of two values is the lesser, comparing exactly; zeros are equal. -/
def ltF : FNum → FNum → Bool
  | .nan, _ => false
  | _, .nan => false
  | .inf s, .inf t => s && !t
  | .inf s, .fin _ _ _ => s
  | .fin _ _ _, .inf t => !t
  | .fin s m e, .fin t n k => decide (alignF s m e (min e k) < alignF t n k (min e k))

def eqF : FNum → FNum → Bool
  | .nan, _ => false
  | _, .nan => false
  | a, b => !(ltF a b) && !(ltF b a)

def leF (a b : FNum) : Bool := ltF a b || eqF a b

/-- A value rounded to an integer by its rounding code (R78, R111): sign and magnitude. -/
def intF (r : Rnd) (u : BitVec 32) (s : Bool) (m : Nat) (e : Int) : Nat :=
  if e ≥ 0 then m <<< e.toNat
  else
    let k := (-e).toNat
    let lo := m >>> k
    if roundsUp r s u lo (m % 2 ^ k) k then lo + 1 else lo

/-- Conversion to an integer of w bits, signed or natural, saturated; NaN gives 0 (R78). -/
def toIntF (r : Rnd) (u : BitVec 32) (w : Nat) (nat : Bool) (x : FNum) : Nat :=
  let lo : Int := if nat then 0 else -(2 ^ (w - 1) : Nat)
  let hi : Int := if nat then (2 ^ w : Nat) - 1 else (2 ^ (w - 1) : Nat) - 1
  match x with
  | .nan => 0
  | .inf s => wrapNat w (if s then lo else hi)
  | .fin s m e =>
    let z : Int := intF r u s m e
    wrapNat w (clampInt lo hi (if s then -z else z))

/-- An integer as an exact value. -/
def ofIntF (x : Int) : FNum := .fin (decide (x < 0)) x.natAbs 0

/-- One advance of the LFSR (R76). -/
def lfsrNext (u : BitVec 32) : BitVec 32 :=
  let b := u.getLsbD 31 ^^ u.getLsbD 21 ^^ u.getLsbD 1 ^^ u.getLsbD 0
  (u <<< 1) ||| (BitVec.ofBool b).setWidth 32

/-! ### Significance counts (R82-R85) -/

/-- A value with its count as held, and p of the format it is read in. -/
structure FVal where
  n : FNum
  c : Count
  p : Nat
  deriving DecidableEq, Repr

/-- A count as read: 0 to p (R82). -/
def readCount (p : Nat) (c : Count) : Nat := if c.toNat ≤ p then c.toNat else p

/-- The count of a finite nonzero value gives its trust floor t (R83). -/
def floorT (x : FVal) : Option Int :=
  match x.n with
  | .fin _ m e => if m = 0 then none else some (fexp m e - readCount x.p x.c + 1)
  | .nan | .inf _ => none

def clampCount (p : Nat) (x : Int) : Count := BitVec.ofNat 6 (clampInt 0 p x).toNat

/-- The count of a result that is infinite or NaN is 0; a subnormal's is capped (R83, R84). -/
def capCount (f : FFmt) (n : FNum) (c : Count) : Count :=
  match n with
  | .nan => 0
  | .inf _ => 0
  | .fin _ m e =>
    if m = 0 then c
    else if fexp m e < 1 - (fmtBias f : Int) then
      BitVec.ofNat 6 (min c.toNat (fexp m e - fmtQmin f + 1).toNat)
    else c

/-- A zero of count 63 (R83). -/
def freeZero (x : FVal) : Bool := isZeroF x.n && x.c == 63

/-- The largest trust floor among the nonzero terms. -/
def maxT : List FVal → Option Int
  | [] => none
  | x :: xs =>
    match floorT x, maxT xs with
    | none, t => t
    | t, none => t
    | some a, some b => some (max a b)

/-- The add rule (R83): fl is e(r) - p + 1, or 0 for FRINT. -/
def addCount (p : Nat) (terms : List FVal) (r : FNum) (fl : Int → Int) : Count :=
  match r with
  | .nan => 0
  | .inf _ => 0
  | .fin _ m e =>
    if m = 0 then (if terms.all freeZero then 63 else 0)
    else
      let er := fexp m e
      let t := match maxT terms with
        | some x => max x (fl er)
        | none => fl er
      clampCount p (er - t + 1)

/-- The multiply and divide rule (R83), p being that of the result. -/
def mulCount (p : Nat) (a b : FVal) : Count :=
  if freeZero a || freeZero b then 63
  else
    let sa := readCount a.p a.c
    let sb := readCount b.p b.c
    if a.p ≤ sa && b.p ≤ sb then BitVec.ofNat 6 p
    else if a.p ≤ sa then BitVec.ofNat 6 (min sb p)
    else if b.p ≤ sb then BitVec.ofNat 6 (min sa p)
    else clampCount p ((min sa sb : Int) - 1)

/-- A result: its word and its count. -/
structure FRes where
  bits  : Nat
  count : Count
  deriving DecidableEq, Repr

/-- A value rounded into a format with a count of its own, capped (R84). -/
def deliver (f : FFmt) (n : FNum) (c : Count) : FRes := ⟨encodeF f n, capCount f n c⟩

/-- The value of a word with a count. -/
def fval (f : FFmt) (x : Nat) (c : Count) : FVal := ⟨decodeF f x, c, fmtP f⟩

def stdFloor (p : Nat) (er : Int) : Int := er - p + 1

def faddR (f : FFmt) (r : Rnd) (a b : FVal) : FRes :=
  let n := (roundF f r false 0 (addF r a.n b.n)).n
  deliver f n (addCount (fmtP f) [a, b] n (stdFloor (fmtP f)))

def fnegV (a : FVal) : FVal := { a with n := negF a.n }

def fmulR (f : FFmt) (r : Rnd) (a b : FVal) : FRes :=
  deliver f (roundF f r false 0 (mulF a.n b.n)).n (mulCount (fmtP f) a b)

def fdivR (f : FFmt) (r : Rnd) (a b : FVal) : FRes :=
  deliver f (roundF f r false 0 (divF a.n b.n)).n (mulCount (fmtP f) a b)

def fsqrtR (f : FFmt) (r : Rnd) (a : FVal) : FRes :=
  deliver f (roundF f r false 0 (sqrtF a.n)).n
    (BitVec.ofNat 6 (min (fmtP f) (readCount a.p a.c + 1)))

/-- An exact product as a term of a sum (R83, R116). -/
def prodV (p : Nat) (a b : FVal) : FVal := ⟨mulF a.n b.n, mulCount p a b, p⟩

/-- A product added to c, rounded once (R116). -/
def fmaR (f : FFmt) (r : Rnd) (n5 n4 : Bool) (a b c : FVal) : FRes :=
  let pr := prodV (fmtP f) a b
  let x := if n5 then fnegV pr else pr
  let y := if n5 != n4 then fnegV c else c
  faddR f r x y

/-- An integral value in the format, keeping the sign of a zero (R111). -/
def frintR (f : FFmt) (r : Rnd) (a : FVal) : FRes :=
  let n := match a.n with
    | .fin s m e => FNum.fin s (intF r 0 s m e) 0
    | x => x
  deliver f (roundF f .rne false 0 n).n
    (if isZeroF n && !isZeroF a.n then 0 else addCount (fmtP f) [a] n (fun _ => 0))

/-- Minimum and maximum of IEEE 754-2019 (R112): -0 < +0, the first of equals, the source's count. -/
def fminmaxR (f : FFmt) (isMax : Bool) (a b : FVal) : FRes :=
  if isNanF a.n || isNanF b.n then ⟨nanBits f, 0⟩
  else
    let less (x y : FNum) := ltF x y || (isZeroF x && isZeroF y && signF x && !signF y)
    let takeB := if isMax then less a.n b.n else less b.n a.n
    let x := if takeB then b else a
    ⟨encodeF f x.n, match x.n with | .inf _ => 0 | _ => x.c⟩

/-- Conversion between floating-point formats (R77, R83). -/
def widens (src dst : FFmt) : Bool :=
  decide (src.fb ≤ dst.fb) && decide (fmtQmin dst ≤ fmtQmin src) &&
    decide (fexp (fmtMax src).1 (fmtMax src).2 ≤ fexp (fmtMax dst).1 (fmtMax dst).2) && dst.kind == 0

def fcvtR (src dst : FFmt) (r : Rnd) (sat : Bool) (u : BitVec 32) (a : FVal) : FRes :=
  let x := roundF dst r sat u a.n
  let c : Count := if x.satd then 0
    else if widens src dst then a.c
    else BitVec.ofNat 6 (min (readCount (fmtP src) a.c) (fmtP dst))
  ⟨encodeF dst x.n, capCount dst x.n c⟩

/-- Conversion from an integer (R78, R82, R83). -/
def ofIntR (dst : FFmt) (r : Rnd) (sat : Bool) (u : BitVec 32) (z : Int) : FRes :=
  let x := roundF dst r sat u (ofIntF z)
  let c : Count := if x.satd then 0 else if x.exact then 63 else BitVec.ofNat 6 (fmtP dst)
  ⟨encodeF dst x.n, capCount dst x.n c⟩

/-- The class word of FCLASS (R112). -/
def fclassBits (f : FFmt) (x : Nat) : Nat :=
  let n := decodeF f x
  let sb := 8 * b2n (nbit x (f.eb + f.fb))
  match n with
  | .nan => 4 + sb
  | .inf _ => 3 + sb
  | .fin _ m e =>
    if m = 0 then sb
    else (if fexp m e < 1 - (fmtBias f : Int) then 1 else 2) + sb +
      wrapNat 16 (fexp m e) * 2 ^ 16

/-- The floating-point format of a lane type or of a conversion code. -/
def ftyFmt : FTy → FFmt
  | .f64 => f64F
  | .f32 => f32F
  | .bf16 => bf16F
  | .f16 => f16F

def precFmt : Prec → FFmt
  | .f32 => f32F
  | .f64 => f64F

def cvtFmt : Fmt → FFmt
  | .f64 => f64F
  | .f32 => f32F
  | .bf16 => bf16F
  | .f16 => f16F
  | .e4m3 => e4m3F
  | .e5m2 => e5m2F
  | _ => f64F

/-- A natural format (R55). -/
def cvtIsNat : Fmt → Bool
  | .n8 | .n16 | .n32 | .n64 => true
  | _ => false

end Sys2Proof.Machine

namespace Sys2Proof

/-- Lane widths in bits (R122). -/
def FTy.bits : FTy → Nat
  | .f64 => 64
  | .f32 => 32
  | .bf16 | .f16 => 16

def Wd.bits : Wd → Nat
  | .w64 => 64
  | .w32 => 32
  | .w16 => 16
  | .w8 => 8

end Sys2Proof
end

