-- ==== Sys2Proof/Machine/Ops.lean ====
section
/-! DEFINITION. The shared operations: the core and context in focus, registers (R37), the program
counter and replay (R148-R150), time and the watchdog (R18), the hoop (R283), frames (R19-R26), heads
leaving a task (R219), activation (R14), and the ways a task stops: the abortive trap (R29), the
significance trap (R32), suspension (R28). -/
namespace Sys2Proof.Machine

/-- What a meaning answers. -/
abbrev Out := Host.Outcome State Fault Refusal

/-! ### Cores and contexts in focus -/

/-- The first n sites of a die are fused off. -/
def allFused (d : Nat) : Nat → Bool
  | 0 => true
  | k + 1 => Config.fusedOff.contains (BitVec.ofNat 12 (1024 * d + k)) && allFused d k

/-- The supervisor core of a die: its first usable site (R351). -/
def isSupervisor (c : CoreId) : Bool := !(Config.fusedOff.contains c) && allFused (c.toNat / 1024) (c.toNat % 1024)

/-- A visible compute core (R1). -/
def visible (c : CoreId) : Bool :=
  decide (c < 0xC00) && !(Config.fusedOff.contains c) && !(isSupervisor c)

/-- The logical number boot gives a visible core (R355): its id less the supervisors below it. -/
def bootLogical (c : CoreId) : BitVec 12 :=
  BitVec.ofNat 12 (c.toNat - 1 - c.toNat / 1024 -
    (Config.fusedOff.filter fun f => decide (f < c)).length)

/-- The logical number of a core now (R355). -/
def State.logicalOf (s : State) (c : CoreId) : BitVec 12 :=
  (tget none s.logmap c.toNat).getD (bootLogical c)

/-- A core as reset left it. -/
def freshCore (c : CoreId) : Core := Core.reset c

/-- Any core by id. -/
def State.coreAt (s : State) (c : CoreId) : Core :=
  if c = s.coreId then s.core else tget (freshCore c) s.others c.toNat

/-- The state with another core in its place. -/
def State.setCore (s : State) (c : CoreId) (x : Core) : State :=
  if c = s.coreId then { s with core := x }
  else { s with others := tput (freshCore c) s.others c.toNat x }

/-- The state with f applied to a core. -/
def State.modCoreAt (s : State) (c : CoreId) (f : Core → Core) : State := s.setCore c (f (s.coreAt c))

/-- The state with f applied to the core in focus. -/
def State.modCore (s : State) (f : Core → Core) : State := { s with core := f s.core }

/-- The state with another core in focus. -/
def State.focus (s : State) (c : CoreId) : State :=
  if c = s.coreId then s
  else
    { s with
      core := tget (freshCore c) s.others c.toNat
      coreId := c
      others := tput (freshCore s.coreId) (tput (freshCore c) s.others c.toNat (freshCore c))
        s.coreId.toNat s.core }

/-- f done with another core in focus, the focus given back. -/
def State.onCore (s : State) (c : CoreId) (f : State → State) : State :=
  (f (s.focus c)).focus s.coreId

/-- A context of the core in focus. -/
def State.ctxAt (s : State) (c : CtxNo) : Ctx := s.core.ctxs[c.toNat]'(by have := c.isLt; omega)

/-- The current context (R187). -/
def State.ctx (s : State) : Ctx := s.ctxAt s.core.cur

/-- The state with f applied to a context of the core in focus. -/
def State.modCtxAt (s : State) (c : CtxNo) (f : Ctx → Ctx) : State :=
  { s with core := { s.core with
      ctxs := s.core.ctxs.set c.toNat (f (s.ctxAt c)) (by have := c.isLt; omega) } }

/-- The state with f applied to the current context. -/
def State.modCtx (s : State) (f : Ctx → Ctx) : State := s.modCtxAt s.core.cur f

/-- The state with f applied to a die. -/
def State.modDie (s : State) (d : BitVec 2) (f : Die → Die) : State :=
  { s with dies := s.dies.set (d.toNat % 3) (f (s.dies[d.toNat % 3]'(by omega))) (by omega) }

def State.die (s : State) (d : BitVec 2) : Die := s.dies[d.toNat % 3]'(by omega)

/-- The die of a core (R294). -/
def dieOf (c : CoreId) : BitVec 2 := c.extractLsb' 10 2

/-- The quad number of a core within its die (R294). -/
def quadOf (c : CoreId) : Nat := (nfld c.toNat 5 5 / 2) * 16 + nfld c.toNat 0 5 / 2

/-- The member index of a core within its quad (R294). -/
def memberOf (c : CoreId) : Nat := (nfld c.toNat 5 5 % 2) * 2 + nfld c.toNat 0 5 % 2

def sameQuad (a b : CoreId) : Bool := dieOf a == dieOf b && quadOf a == quadOf b

/-! ### Registers (R10, R37, R92) -/

/-- g of a context; g0 reads 0 (R37). -/
def gval (x : Ctx) (r : Reg) : Word :=
  if r = 0 then 0 else x.g[r.toNat]'(by have := r.isLt; omega)

/-- The count of a g register; g0 has 63 (R37). -/
def gcount (x : Ctx) (r : Reg) : Count :=
  if r = 0 then 63 else x.gc[r.toNat]'(by have := r.isLt; omega)

/-- The context with a g register and its count written; g0 discards (R37). -/
def setGC (x : Ctx) (r : Reg) (w : Word) (c : Count) : Ctx :=
  if r = 0 then x
  else { x with
    g := x.g.set r.toNat w (by have := r.isLt; omega)
    gc := x.gc.set r.toNat c (by have := r.isLt; omega) }

/-- A v register and its 32 chunk counts. -/
def vval (x : Ctx) (r : Reg) : VWord := x.v[r.toNat]'(by have := r.isLt; omega)
def vcounts (x : Ctx) (r : Reg) : Vector Count 32 := x.vc[r.toNat]'(by have := r.isLt; omega)

def setVC (x : Ctx) (r : Reg) (w : VWord) (c : Vector Count 32) : Ctx :=
  { x with
    v := x.v.set r.toNat w (by have := r.isLt; omega)
    vc := x.vc.set r.toNat c (by have := r.isLt; omega) }

/-- g of the current context. -/
def State.gr (s : State) (r : Reg) : Word := gval s.ctx r
def State.grc (s : State) (r : Reg) : Count := gcount s.ctx r

/-- The state with a g register written with a count (R82). -/
def State.setGC (s : State) (r : Reg) (w : Word) (c : Count) : State :=
  s.modCtx fun x => Machine.setGC x r w c

/-- The state with a g register written with count 63 (R82, R92). -/
def State.setG (s : State) (r : Reg) (w : Word) : State := s.setGC r w 63

def State.vr (s : State) (r : Reg) : VWord := vval s.ctx r
def State.vrc (s : State) (r : Reg) : Vector Count 32 := vcounts s.ctx r
def State.setVC (s : State) (r : Reg) (w : VWord) (c : Vector Count 32) : State :=
  s.modCtx fun x => Machine.setVC x r w c

/-- Every chunk with count 63. -/
def fullCounts : Vector Count 32 := Vector.replicate 32 63

/-- A display register (R20) and its held bit. -/
def State.dreg (s : State) (n : BitVec 2) : Word := s.ctx.d[n.toNat]'(by have := n.isLt; omega)
def State.heldBit (s : State) (n : BitVec 2) : Bool := s.ctx.held.getLsbD n.toNat
def setD (x : Ctx) (n : BitVec 2) (w : Word) : Ctx :=
  { x with d := x.d.set n.toNat w (by have := n.isLt; omega) }
def setHeld (x : Ctx) (n : BitVec 2) (b : Bool) : Ctx :=
  { x with held := if b then x.held ||| (1#4 <<< n.toNat) else x.held &&& ~~~(1#4 <<< n.toNat) }

/-- Whether the current context is privileged (R167, R198). -/
def ctxPriv (x : Ctx) : Bool :=
  match x.task with
  | none => false
  | some t => t.entry.d1.getLsbD 21

def State.priv (s : State) : Bool := ctxPriv s.ctx

/-- The tag of a context's fabric accesses (R172, R370). -/
def ctxTag (x : Ctx) : Tag :=
  { space := x.gen.extractLsb' 0 16, gen := x.gen.extractLsb' 16 8, priv := ctxPriv x }

/-! ### Replay and the program counter (R148, R150) -/

def repCnt (r : BitVec 34) : Nat := nfld r.toNat 0 5
def repLen (r : BitVec 34) : Nat := nfld r.toNat 5 4
def repIter (r : BitVec 34) : Nat := nfld r.toNat 24 5
def repPos (r : BitVec 34) : Nat := nfld r.toNat 29 4
def repAct (r : BitVec 34) : Bool := r.getLsbD 33

/-- REPSTATE at another step (R150). -/
def repAt (r : BitVec 34) (iter pos : Nat) : BitVec 34 :=
  BitVec.ofNat 34 (nfld r.toNat 0 24 + iter * 2 ^ 24 + pos * 2 ^ 29 + 2 ^ 33)

/-- Where a replay goes from its present step: the next step, or the end (R148, R150). -/
def repNext (x : Ctx) (at_ : Word) : Ctx :=
  let r := x.rep
  if repPos r < repLen r then
    { x with rep := repAt r (repIter r) (repPos r + 1), pc := at_ + 4, replaying := true }
  else if repIter r < repCnt r then
    { x with rep := repAt r (repIter r + 1) 0, pc := at_ - BitVec.ofNat 64 (4 * repPos r), replaying := true }
  else
    { x with rep := 0, pc := at_ - BitVec.ofNat 64 (4 * repPos r) + BitVec.ofNat 64 (4 * (repLen r + 1))
             replaying := false, body := [] }

/-- A context that has done its instruction goes on: PC + 4, or the next step of its replay. -/
def nextPc (x : Ctx) : Ctx :=
  let y := { x with stall := none, asleep := false }
  if x.replaying then repNext y x.pc else { y with pc := x.pc + 4 }

/-- The instruction of the current context is done. -/
def State.advance (s : State) : State := s.modCtx nextPc

/-- The current context goes on at an address. -/
def State.jump (s : State) (a : Word) : State :=
  s.modCtx fun x => { x with pc := a, stall := none, asleep := false }

/-- The current context stalls and keeps its PC (R188). -/
def State.stallAs (s : State) (w : Stall) : State :=
  s.modCtx fun x => { x with stall := some w, asleep := true }

def stallOut (s : State) : Out := .next (s.stallAs .other)

/-- The next state after an instruction that is done. -/
def done (s : State) : Out := .next s.advance

/-! ### Time (R4, R18, R172; log entry 5) -/

/-- Core cycles of a core at its clock (R375). Its cycles since were counted start at since, which lies ahead while a
stretched cycle lasts (R376). -/
def coreCycles (now : Nat) (c : Core) : Nat :=
  c.cycles + (match c.clock with
    | .run | .stretched => now - c.since
    | .slowed => (now - c.since) / 4
    | .paused => 0)

/-- The core with its cycles brought up to now and another clock. -/
def setClock (now : Nat) (c : Core) (k : Clock) : Core :=
  if c.clock = k then c else { c with cycles := coreCycles now c, since := max now c.since, clock := k }

/-- One cycle stretched (R376): counted, and the next cycle of the core lasts as much longer as its supply takes to
recover, a free value (log entry 88). -/
def stretchCycle (now : Nat) (k : Core) : Core :=
  let from0 := match k.clock with | .slowed => now - (now - k.since) % 4 | _ => max now k.since
  { k with
    stretch := k.stretch + 1, cycles := coreCycles now k, since := from0 + Config.stretchTicks k.stretch
    clock := if k.clock = .run then .stretched else k.clock }

def State.cyc (s : State) : Nat := coreCycles s.now s.core

/-- The watchdog of a context stops and starts (R18). -/
def wdStop (cyc : Nat) (x : Ctx) : Ctx :=
  match x.wdFrom with
  | none => x
  | some f => { x with wdAcc := x.wdAcc + (cyc - f), wdFrom := none }

def wdStart (cyc : Nat) (x : Ctx) : Ctx :=
  match x.wdFrom with
  | none => { x with wdFrom := some cyc }
  | some _ => x

def wdCount (cyc : Nat) (x : Ctx) : Nat :=
  x.wdAcc + (match x.wdFrom with | none => 0 | some f => cyc - f)

/-- The watchdog budget of a task as an exponent (R18). DESIGN CHOICE (log entry 79): a WDBUDGET that is rewritten
while a task with WDEXP 0 runs is its budget from then on; R18 does not say when it is read. Unsafe. -/
def wdExp (c : Core) (t : Record) : Nat :=
  let e := nfld t.entry.d1.toNat 14 6
  let w := if e ≠ 0 then e else c.wdbudget.toNat
  let hi := match t.launch with
    | some l => if l.persist then 48 else 40
    | none => 40
  max 16 (min hi w)

/-! ### The hoop (R283) -/

def effBytes (es : List Effect) : Nat := (es.map Effect.size).sum

/-- Bytes of a hoop in use. -/
def hoopUsed (x : Ctx) : Nat := effBytes x.hoop + (x.chunks.map fun k => effBytes k.effs).sum

/-- A context's open chunk closed (R283): an empty one commits nothing; the count starts again. -/
def commitCtx (x : Ctx) : Ctx :=
  if x.hoop.isEmpty then { x with sinceCommit := 0 }
  else { x with hoop := [], chunks := x.chunks ++ [⟨x.hoop⟩], committed := true, sinceCommit := 0 }

def State.commit (s : State) : State := s.modCtx commitCtx

/-- An instruction that another's action ends counted like any other; the 512th since the last commit commits the open
chunk (R283). -/
def countedCtx (x : Ctx) : Ctx :=
  if 511 ≤ x.sinceCommit then commitCtx x else { x with sinceCommit := x.sinceCommit + 1 }

/-- Size of an effect (R283): 16 bytes and its data rounded up to 8. -/
def opSize : Op → Nat
  | .store cs => 16 + (cs.length + 7) / 8 * 8
  | .istore cs => 16 + (cs.length + 7) / 8 * 8
  | .entries es => 16 + 16 * es.length
  | .slot0 _ _ => 24
  | .atomic fn z _ _ _ => 16 + (if z = .w then 8 else if fn = 9 then 16 else 8)
  | .msg m => 16 + (if m.cap.isSome then 32 else 0) + m.payload.length
  | .load _ | .cdec _ _ _ | .frameInc _ _ | .frameOwn _ | .frameRel _ | .sev _ | .retire _ _ => 16

/-- What an effect needs beyond the operation: where it goes. -/
structure Aim where
  dst : Port
  pkg : Option (BitVec 9)
  va  : Nat
  deriving DecidableEq, Repr

def toCore (c : CoreId) (va : Nat) : Aim := ⟨.core c, none, va⟩

def mkEffect (s : State) (x : Ctx) (a : Aim) (op : Op) : Effect :=
  { eid := s.eids, size := opSize op, dst := a.dst, pkg := a.pkg, tag := ctxTag x, va := a.va
    op := op, ahead := false, sent := false, copies := 1, drops := none }

/-- Effects placed in the open chunk of the current context, or, where they do not fit, the chunk
committed first and nothing placed (R157, R283). -/
def State.place (s : State) (es : List Effect) : State × Bool :=
  if hoopUsed s.ctx + effBytes es ≤ 2048 then
    ({ s.modCtx fun x => { x with hoop := x.hoop ++ es } with eids := s.eids + es.length }, true)
  else (s.commit, false)

/-- One effect placed, then k; a stall while it does not fit. -/
def placing (s : State) (a : Aim) (op : Op) (k : State → Out) : Out :=
  match s.place [mkEffect s s.ctx a op] with
  | (t, true) => k t
  | (t, false) => stallOut t

/-- Every committed effect of a context has been acknowledged. -/
def hoopQuiet (x : Ctx) : Bool := x.chunks.isEmpty

/-! ### Trace rings (R277, R349, R350) -/

/-- The number of a port. -/
def portNo : PortKey → Nat
  | .scratch c => c.toNat
  | .weight c => 4096 + c.toNat
  | .istore c => 2 * 4096 + c.toNat
  | .entries c => 3 * 4096 + c.toNat
  | .queues c => 4 * 4096 + c.toNat
  | .chan n => 5 * 4096 + n.toNat
  | .bank c b => 2 ^ 20 + c.toNat * 256 + b.toNat

/-- An access as a ring sees it (R349). -/
structure Seen where
  src   : CoreId
  agent : Nat
  kind  : Nat
  grp   : Bool
  addr  : Nat
  own   : Bool
  deriving DecidableEq, Repr

/-- The agent of a packet's sender (R349). -/
def agentOf : Origin → Nat
  | .ctx c => c.toNat
  | .engine => 4
  | .matrix => 5
  | .ni => 7
  | .pricking => 7

def srcCore (p : Packet) : CoreId := match p.route.src with | .core c => c | .chan _ => 0

/-- An access of a packet at a port of the core in focus, or at a channel. -/
def pktSeen (s : State) (p : Packet) (kind : Nat) (grp : Bool) (addr : Nat) : Seen :=
  ⟨srcCore p, agentOf p.who, kind, grp, addr, srcCore p == s.coreId && (match p.who with | .ctx _ => true | _ => false)⟩

def seenBits (s : State) (e : Seen) : BitVec 128 :=
  BitVec.ofNat 128 (e.src.toNat + e.agent * 2 ^ 12 + e.kind * 2 ^ 15 + b2n e.grp * 2 ^ 19 +
    (s.now / 2 % 2 ^ 44) * 2 ^ 20 + e.addr % 2 ^ 56 * 2 ^ 64)

def admits (r : Ring) (e : Seen) : Bool := !(r.onlyrem && e.own)

def sameAccess (x : BitVec 128) (e : Seen) : Bool :=
  nfld x.toNat 0 12 == e.src.toNat && nfld x.toNat 12 3 == e.agent && nfld x.toNat 15 4 == e.kind &&
    nfld x.toNat 64 56 == e.addr % 2 ^ 56

/-- Whether replay holds an access back (R350). -/
def replayHolds (s : State) (p : PortKey) (e : Seen) : Bool :=
  let r := tget Ring.reset s.rings (portNo p)
  r.replay && admits r e &&
    (match r.log with | [] => false | x :: _ => !(sameAccess x e))

/-- The ring of a port after an access: the entry consumed in replay, and the access logged (R349, R350). DESIGN
CHOICE (log entry 54): an entry consumed leaves the ring, and what is logged meanwhile stands behind those that wait.
Unsafe. -/
def noteAccess (s : State) (p : PortKey) (e : Seen) : State :=
  let r := tget Ring.reset s.rings (portNo p)
  if !(admits r e) then s
  else if r.replay then
    let n := r.left - 1
    let l := r.log.drop 1 ++ (if r.en then [seenBits s e] else [])
    let r1 := { r with log := l, left := n, replay := n != 0, since := s.now, head := if r.en then r.head + 1 else r.head }
    { s with rings := tput Ring.reset s.rings (portNo p) r1 }
  else if r.en && !(r.stop && decide (256 ≤ r.log.length)) then
    let l := (if 256 ≤ r.log.length then r.log.drop 1 else r.log) ++ [seenBits s e]
    { s with rings := tput Ring.reset s.rings (portNo p) { r with log := l, head := r.head + 1 } }
  else s

/-- An access of the current context at a port of its own core (R349). -/
def ownSeen (s : State) (kind addr : Nat) : Seen :=
  ⟨s.coreId, s.core.cur.toNat, kind, false, addr, true⟩

/-- An access of its network interface at a port of the core in focus. -/
def niSeen (s : State) (kind addr : Nat) : Seen := ⟨s.coreId, 6, kind, false, addr, false⟩

/-- An access held by replay (none), or logged. -/
def seenAt (s : State) (p : PortKey) (e : Seen) : Option State :=
  if replayHolds s p e then none else some (noteAccess s p e)

/-! ### Check bits (R191, R197, R223, R228; log entry 57) -/

/-- The words of n bytes that addresses lie in, each once. -/
def wordsOf (n : Nat) (as : List Nat) : List Nat := (as.map fun a => a / n).eraseDups

/-- Words of a memory of the core in focus as an access consumes them: the single-bit errors among them are
corrected and counted; the second value says whether one is uncorrectable. -/
def State.consume (s : State) (m : Array) (ws : List Nat) : State × Bool :=
  if s.core.flips.isEmpty then (s, false)
  else
    let fs := s.core.flips.filter fun f => decide (f.arr = m) && ws.contains f.word
    (s.modCore fun k => { k with corrected := k.corrected + (fs.filter fun f => !f.bad).length }, fs.any Flip.bad)

/-- Words of a memory written with fresh check bits. -/
def freshWords (m : Array) (ws : List Nat) (k : Core) : Core :=
  if k.flips.isEmpty then k else { k with flips := k.flips.filter fun f => !(decide (f.arr = m) && ws.contains f.word) }

/-- The words of n bytes that cells cover in part only: a store reads, merges and rewrites them. -/
def partWords (n : Nat) (cs : List Host.Cell) : List Nat :=
  (wordsOf n (cs.map Prod.fst)).filter fun w => !((List.range n).all fun i => cs.any fun c => c.1 == n * w + i)

/-- The check bits at a store of cells to a memory of n-byte words (R191). -/
def State.rewrite (s : State) (m : Array) (n : Nat) (cs : List Host.Cell) : State × Bool :=
  if s.core.flips.isEmpty then (s, false)
  else
    let r := s.consume m (partWords n cs)
    (r.1.modCore (freshWords m (wordsOf n (cs.map Prod.fst))), r.2)

/-! ### Records to the supervisors -/

def State.report (s : State) (r : SupRec) : State := { s with records := s.records ++ [r] }

def Record.id (r : Option Record) : BitVec 32 := match r with | none => 0 | some t => t.msgid

/-! ### Frames (R19-R27) -/

def dKind (d : Word) : BitVec 2 := d.extractLsb' 62 2
def dCore (d : Word) : CoreId := d.extractLsb' 50 12
def dOffset (d : Word) : Nat := nfld d.toNat 33 17
def dSize (d : Word) : Nat := let z := nfld d.toNat 25 8; if z = 0 then 256 else z
def dVa (d : Word) : Nat := nfld d.toNat 6 50 * 64

/-- A descriptor of a kind R20 lists, its reserved bits 0. -/
def dFormed (d : Word) : Bool :=
  if dKind d = 1 then decide (nfld d.toNat 0 24 = 0)
  else if dKind d = 2 then decide (nfld d.toNat 56 6 = 0 ∧ nfld d.toNat 1 5 = 0)
  else false

/-- A descriptor that can be used (R19, R20). DESIGN CHOICE (log entry 58): a kind-01 descriptor whose OFFSET
is no multiple of 64 is treated as invalid, so its use is ACCESS; R20 names no consequence. Unsafe. -/
def dValid (d : Word) : Bool := dFormed d && !(decide (dKind d = 1 ∧ dOffset d % 64 ≠ 0))

/-- A counted descriptor (R20). -/
def dCounted (d : Word) : Bool :=
  dValid d && (if dKind d = 1 then d.getLsbD 24 else d.getLsbD 0)

/-- The descriptor of a depth-0 frame (R22). -/
def frameDesc (c : CoreId) (off units : Nat) : Word :=
  BitVec.ofNat 64 (2 ^ 62 + c.toNat * 2 ^ 50 + off * 2 ^ 33 + (units % 256) * 2 ^ 25 + 2 ^ 24)

/-- Slot 0 (R21). -/
def sLive (x : Nat) : Nat := nfld x 0 32
def sLv (x : Nat) : Bool := nbit x 41
/-- The doubleword with LIVE and LV replaced. -/
def sWith (x live : Nat) (lv : Bool) : Nat :=
  live % 2 ^ 32 + nfld x 32 9 * 2 ^ 32 + b2n lv * 2 ^ 41 + nfld x 42 22 * 2 ^ 42

/-- Granules of 512 bytes an entry's frame takes (R22, R198). -/
def entryUnits (e : Entry) : Nat := let z := nfld e.d1.toNat 0 8; if z = 0 then 256 else z
def entryGranules (e : Entry) : Nat := (entryUnits e + 7) / 8

/-- The lowest start of a free run of n granules among size, none of them allocated (R194). -/
def freeRun (frames : List (Nat × Nat)) (n size : Nat) : Nat → Nat → Option Nat
  | 0, _ => none
  | fuel + 1, g =>
    if size < g + n then none
    else if frames.all fun f => decide (f.1 + f.2 ≤ g ∨ g + n ≤ f.1) then some g
    else freeRun frames n size fuel (g + 1)

def allocGranules (c : Core) (n : Nat) : Option Nat :=
  if c.framecfg.pend.isSome then none
  else freeRun c.frames n c.framecfg.size.toNat (c.framecfg.size.toNat + 1) 0

/-- Whether an offset lies in the frame area of a core (R192). -/
def inFrameArea (c : Core) (off : Nat) : Bool :=
  decide (512 * c.framecfg.base.toNat ≤ off ∧ off < 512 * (c.framecfg.base.toNat + c.framecfg.size.toNat))

/-- The granules allocated to the frame at an offset freed (R25); with frame space freed the core chooses a task
record anew (R12). -/
def freeFrameAt (c : Core) (off : Nat) : Core :=
  let left := c.frames.filter fun f => !(decide (512 * (c.framecfg.base.toNat + f.1) = off))
  { c with frames := left, frameWait := c.frameWait && left.length == c.frames.length }

/-! ### Heads leaving a task (R212, R219) -/

def bankAt (c : Core) (b : BitVec 8) : Bank := tget Bank.reset c.banks b.toNat
def setBank (c : Core) (b : BitVec 8) (f : Bank → Bank) : Core :=
  { c with banks := tmod Bank.reset c.banks b.toNat f }

/-- Whether a shift of a bank from a counted position to another one ends, in one of its steps, at a third
(R204, R224); a realignment ends where it began. -/
def passesBy (x y q : BitVec 8) : Bool :=
  if x = y then q == y else if x < y then decide (x < q ∧ q ≤ y) else decide (y ≤ q ∧ q < x)

/-- A shift of a bank by d positions that ends with the counted position p: an armed over-shift fires at the
position it names, in passing too (R224, R227). -/
def shiftBy (k : Core) (b : BitVec 8) (d : Int) (p : BitVec 8) : Core :=
  if k.inj.arm && k.inj.bank == b && d != 0 && passesBy (bankAt k b).counted p k.inj.pos then
    let o := sgn 4 k.inj.ofs.toNat
    { setBank k b fun x => { x with counted := p, track := (p.toNat : Int) + o } with
      inj := { k.inj with arm := false, fired := true } }
  else setBank k b fun x => { x with counted := p, track := x.track + d }

/-- The position under the port of a bank as a core cycle begins: a moving bank shifts one position in each cycle
from that in which its motion begins (R204). -/
def reached (cyc : Nat) (b : Bank) : BitVec 8 :=
  match b.moving with
  | none => b.counted
  | some p =>
    let n := cyc - b.began
    if p.toNat ≤ b.counted.toNat then BitVec.ofNat 8 (b.counted.toNat - min n (b.counted.toNat - p.toNat))
    else BitVec.ofNat 8 (b.counted.toNat + min n (p.toNat - b.counted.toNat))

/-- The shifts of a bank before a core cycle, made: the motion goes on from there. The shift of a rewind fires no
over-shift (R224). DESIGN CHOICE (log entry 41): a rewind that a trap cuts short has lowered the counted position and
the tracks by the cycles it had, the counted position to 0 at the least; R217 names none during a rewind. Unsafe. -/
def moveBank (cyc : Nat) (c : Core) (b : BitVec 8) : Core :=
  let k := bankAt c b
  let p := reached cyc k
  let d : Int := (p.toNat : Int) - k.counted.toNat
  let c1 := if k.rewind then setBank c b fun x => { x with counted := p, track := x.track + d } else shiftBy c b d p
  setBank c1 b fun x => { x with began := max x.began cyc }

/-- A bank stopped at the step boundary before cycle n (R209). -/
def stopBank (n : Nat) (c : Core) (b : BitVec 8) : Core :=
  setBank (moveBank n c b) b fun x => { x with moving := none, rewind := false }

/-- The position one from x toward y. -/
def oneToward (x y : BitVec 8) : BitVec 8 := if x = y then x else if x < y then x + 1 else x - 1

/-- Within a line transfer's occupancy a bank goes on to the first position of its step shift, which it reaches in the
occupancy's last cycle, and no further (R205, R209): with that cycle its operation ends (R208). -/
def cutStep (k : Bank) : Bank := { k with moving := k.moving.map (oneToward k.counted), idle := k.taken }

/-- A holder leaves a bank, which stops, or its claim is dropped (R208, R209, R212). -/
def leaveBank (cyc : Nat) (c : Core) (h : Holder) (b : BitVec 8) : Core :=
  let c1 := setBank c b fun k => { k with claims := k.claims.filter fun p => !(decide (p.1 = h)) }
  if (bankAt c b).holder = some h then
    setBank (if cyc + 1 < (bankAt c b).taken then setBank c1 b cutStep else stopBank (cyc + 1) c1 b) b fun k =>
      { k with holder := none }
  else c1

def headAt (x : Ctx) (h : BitVec 2) : Head := x.h[h.toNat]'(by have := h.isLt; omega)
def setHead (x : Ctx) (h : BitVec 2) (y : Head) : Ctx :=
  { x with h := x.h.set h.toNat y (by have := h.isLt; omega) }

def engHead (k : Core) (h : Bool) : Head := if h then k.eng[1] else k.eng[0]
def setEng (k : Core) (h : Bool) (y : Head) : Core :=
  { k with eng := if h then k.eng.set 1 y else k.eng.set 0 y }

def headOf (s : State) : Holder → Head
  | .head c h => headAt (s.ctxAt c) h
  | .engine h => engHead s.core h

def modHead (s : State) (w : Holder) (f : Head → Head) : State :=
  match w with
  | .head c h => s.modCtxAt c fun x => setHead x h (f (headAt x h))
  | .engine h => s.modCore fun k => setEng k h (f (engHead k h))

/-- A bank set moving to a position from cycle n on, or once its line transfer is over; or standing there already
(R204, R205). Its holder is without an operation from the motion's end (R208). DEDUCED (log entry 41): an instruction
of cycle n - 1 moves its bank from cycle n on, as in the specification's pre-emption cycle by cycle. -/
def aimBank (n : Nat) (k : Bank) (p : BitVec 8) : Bank :=
  { k with moving := if k.counted = p then none else some p, began := max n k.taken, rewind := false
           idle := max n k.taken + (if k.counted ≤ p then p.toNat - k.counted.toNat else k.counted.toNat - p.toNat) }

/-- A motion of a bank ended, if it is over as core cycle n begins: the bank stands at the position it moved to, one
position a cycle, and its holder's head is no longer BUSY (R204, R206); or it goes on to the POS that a steer has
given that head meanwhile. -/
def arriveOnce (n : Nat) (s : State) (bank : BitVec 8) : State :=
  let b := bankAt s.core bank
  match b.moving, b.holder with
  | some p, some w =>
    if !b.rewind && reached n b == p then
      let t := s.modCore fun k => setBank (moveBank n k bank) bank fun x => { x with moving := none }
      if (headOf t w).pos = p then modHead t w fun y => { y with busy := false }
      else t.modCore fun k => setBank k bank fun x => aimBank b.taken x (headOf t w).pos
    else s
  | _, _ => s

/-- The same, twice: where the bank goes on to, it may stand already. -/
def arriveAt (n : Nat) (s : State) (bank : BitVec 8) : State := arriveOnce n (arriveOnce n s bank) bank

/-- The same as the present cycle begins. -/
def arrive (s : State) (bank : BitVec 8) : State := arriveAt s.cyc s bank

/-- The shifts of every bank that moves, made up to this cycle, those too that a steer within a line transfer's
occupancy has set after its first position (R209, R224); a rewind's are made at its end. -/
def moveBanks (s : State) : State :=
  s.core.banks.foldl (fun t e =>
    let b : BitVec 8 := BitVec.ofNat 8 e.1
    if e.2.moving.isSome && !e.2.rewind then (arrive t b).modCore fun k => moveBank s.cyc k b else t) s

/-- HFREE of one head of a context of the core in focus (R212). -/
def freeHead (s : State) (c : CtxNo) (h : BitVec 2) : State :=
  let y := headAt (s.ctxAt c) h
  if y.bnd then
    let t := s.modCore fun k => leaveBank s.cyc k (.head c h) y.bank
    t.modCtxAt c fun x => setHead x h Head.unbound
  else s

/-- Every head of a context freed as HFREE does (R29, R160). -/
def freeHeads (s : State) (c : CtxNo) : State :=
  freeHead (freeHead (freeHead (freeHead s c 0) c 1) c 2) c 3

/-! ### The inbox (R11, R13, R200) -/

def bandHeld (c : Core) (b : BitVec 2) : Bool := c.heldBands.getLsbD b.toNat
/-- A band held from a core cycle on, if it is not held already. -/
def holdBand (c : Core) (b : BitVec 2) (now : Nat) : Core :=
  if bandHeld c b then c
  else { c with heldBands := c.heldBands ||| (1#4 <<< b.toNat)
                heldAt := c.heldAt.set b.toNat now (by have := b.isLt; omega) }

/-- A band given free: the time it was held does not count as waiting (R13). -/
def freeBand (c : Core) (b : BitVec 2) (now : Nat) : Core :=
  if bandHeld c b then
    let h := c.heldAt[b.toNat]'(by have := b.isLt; omega)
    { c with heldBands := c.heldBands &&& ~~~(1#4 <<< b.toNat)
             inbox := c.inbox.map fun r => if r.band = b then { r with since := r.since + (now - max r.since h) } else r }
  else c

/-- The record an abortive trap returns: display registers d1-d3 with their held bits (R29). -/
def keepD (x : Ctx) (r : Record) : Record :=
  { r with kept := some (#v[x.d[1], x.d[2], x.d[3]], x.held.extractLsb' 1 3), tag := ctxTag x }

/-- A release that stood in a discarded open chunk is undone (R29, R173). -/
def undoDrops (x : Ctx) : List Effect → Ctx
  | [] => x
  | e :: es =>
    match e.drops with
    | none => undoDrops x es
    | some (n, w) => undoDrops (setHeld (setD x n w) n true) es

/-- Whether a record stands before another in their band (R13, R29): one that a trap returned before those
that wait in arrival order, the one returned last first. -/
def standsBefore (a b : Record) : Bool :=
  decide (b.front < a.front ∨ (a.front = b.front ∧ a.arrived < b.arrived))

/-- The record at the head of a band (R12, R13, R29). -/
def bandHead (k : Core) (b : BitVec 2) : Option Record :=
  (k.inbox.filter fun r => decide (r.band = b)).foldl (fun a r =>
    match a with
    | none => some r
    | some x => if standsBefore r x then some r else some x) none

/-- The record R12 chooses by its steps 1 to 3: of the highest band neither held nor empty, its head. -/
def chosenRecord (k : Core) : Option Record :=
  let pick (b : BitVec 2) : Option Record := if bandHeld k b then none else bandHead k b
  (pick 3).orElse fun _ => (pick 2).orElse fun _ => (pick 1).orElse fun _ => pick 0

/-- The record that is dispatched, with the place of its depth-0 frame: the chosen one; none where that frame does not
fit, or the frame of one chosen before did not and no frame space has been freed since (R12). -/
def nextRecord (k : Core) : Option (Record × Nat) :=
  if k.frameWait then none
  else (chosenRecord k).bind fun r => (allocGranules k (entryGranules r.entry)).map fun g => (r, g)

/-- The lowest-numbered free context (R189). -/
def freeCtx (k : Core) : Option CtxNo :=
  ([0, 1, 2, 3] : List CtxNo).find? fun c => decide ((k.ctxs[c.toNat]'(by have := c.isLt; omega)).phase = .free)

/-- Whether a core with a free context chooses a record whose frame does not fit in the frame area: it dispatches none
from then on (R12). While FRAMECFG is pending no frame is allocated at all (R193), which is no lack of space. -/
def frameStarves (k : Core) : Bool :=
  !k.frameWait && !k.killed && k.framecfg.pend.isNone && (freeCtx k).isSome && (chosenRecord k).isSome && (nextRecord k).isNone

/-! ### The clock under a hold (R385) -/

/-- Whether a hold pauses the clock of a core: a context stalls in WAIT on a held phase, every other one
is empty, parked or so stalled, and no record is eligible. heldB says which phases are held. -/
def holdPauses (heldB : BarNo → Bool) (k : Core) : Bool :=
  let waits (x : Ctx) : Bool :=
    decide (x.phase = .running) && (match x.stall with | some (.barrier b) => heldB b | _ => false)
  let idle (x : Ctx) : Bool := decide (x.phase = .free) || decide (x.phase = .parked)
  k.ctxs.any waits && (k.ctxs.all fun x => waits x || idle x) && (nextRecord k).isNone

/-- A core with its clock as R375 and R385 set it; a cycle that is stretched goes on to its end (R376). -/
def clockCore (now : Nat) (heldB : BarNo → Bool) (hot : Bool) (k : Core) : Core :=
  setClock now k (if holdPauses heldB k then .paused else if k.clsSlow || hot then .slowed
    else if decide (k.clock = .stretched) && decide (now ≤ k.since) then .stretched else .run)

/-- The clock of the core in focus brought up to date. -/
def State.clockUpdate (s : State) : State :=
  s.modCore (clockCore s.now (fun b => (tget Barrier.reset s.bars b).held) (s.die (dieOf s.coreId)).hot)

/-- MXGOV.FORCED of every core (R244, R388): until the firmware's first kick, and while it has failed. -/
def State.forced (s : State) : Bool := !s.power.kicked || s.power.fwfail

/-- Whether the governor of the core in focus is in force (R244). -/
def State.govOn (s : State) : Bool := s.core.mxgov.en || s.forced

/-! ### Stopping a task -/

/-- Whether an increment that a SPAWN.cap of a context makes for the frame at an offset, its own d0, has not
been acknowledged: it makes the frame live (R23). -/
def madeLive (x : Ctx) (off : Nat) : Bool :=
  (x.hoop ++ x.chunks.flatMap Chunk.effs).any fun e => match e.op with | .frameOwn a => a == off | _ => false

/-- Whether the d0 frame of a context is live, or will be once what its task committed is performed (R22,
R23). -/
def ownerOfD0 (s : State) (c : CtxNo) : Bool :=
  let x := s.ctxAt c
  let off := dOffset (x.d[0])
  decide (dKind (x.d[0]) = 1) && (sLv (rdNat s.core.mem off 8) || madeLive x off)

/-- The read of slot 0 of its d0 frame by an ending context, as a ring sees it (R349). -/
def lvSeen (s : State) (c : CtxNo) : Seen := ⟨s.coreId, c.toNat, 0, false, dOffset ((s.ctxAt c).d[0]), true⟩

/-- Whether replay holds that read back (R350). -/
def lvHeld (s : State) (c : CtxNo) : Bool :=
  decide (dKind ((s.ctxAt c).d[0]) = 1) && replayHolds s (.scratch s.coreId) (lvSeen s c)

/-- The word consumed whose LV says whether the d0 frame of a context is live (R24, R191), an access at the scratchpad
(R349). -/
def readLv (s : State) (c : CtxNo) : State × Bool :=
  let d := (s.ctxAt c).d[0]
  if dKind d = 1 then (noteAccess s (.scratch s.coreId) (lvSeen s c)).consume .scratch [dOffset d / 8] else (s, false)

/-- The same where the step goes on: an uncorrectable error kills the core as the step ends. -/
def readLvDoom (s : State) (c : CtxNo) : State :=
  let r := readLv s c
  if r.2 then r.1.modCore fun k => { k with doomed := true } else r.1

/-- The d0 frame of a context at an ending once its LV may be read (R24, R29, R298): a release if it is live, else
freed. The effect is a chunk of its own. -/
def dropD0 (s0 : State) (c : CtxNo) : State :=
  let s := readLvDoom s0 c
  let x := s.ctxAt c
  let off := dOffset (x.d[0])
  if ownerOfD0 s c then
    let e := mkEffect s x (toCore s.coreId off) (.frameRel off)
    { s.modCtxAt c fun y => { y with chunks := y.chunks ++ [⟨[e]⟩] } with eids := s.eids + 1 }
  else s.modCore fun k => freeFrameAt k off

/-- The same at an abortive trap or a gang's end, which do not wait: where replay holds the read of LV back, it and
what follows from it stay due, and the context is not free before (R350). -/
def endD0 (s : State) (c : CtxNo) : State :=
  if lvHeld s c then s.modCtxAt c fun x => { x with lvDue := true } else dropD0 s c

/-- Queued matrix and copy commands of a context discarded unstarted (R245, R275). -/
def dropQueues (k : Core) (c : CtxNo) : Core :=
  { k with
    mxq := k.mxq.set c.toNat [] (by have := c.isLt; omega)
    cpq := k.cpq.set c.toNat [] (by have := c.isLt; omega) }

/-- The reference of an FREF whose increment has been acknowledged is held (R154, R173). -/
def keepFref (x : Ctx) : Ctx :=
  match x.frefWait with
  | none => x
  | some (n, e) => if x.chunks.any fun k => k.effs.any fun f => f.eid == e then x else setHeld x n true

/-- TAKING AN ABORTIVE TRAP (R29): the task of context c of the core in focus ends with a cause. Its record
keeps its arrival (R13) and stands at the head of its band. The fault record marks a containment error where
asked, and holds what a rule adds and whether an atomic that failed was performed, where that is known (R121).
DESIGN CHOICE (log entry 80): the time the record waits in its band counts from the trap; R13 and R29 do not say.
Unsafe. -/
def abortAs (s : State) (c : CtxNo) (cause : Cause) (contained : Bool) (adds : List Nat) (performed : Option Bool) :
    State :=
  let x0 := s.ctxAt c
  let s1 := s.modCtxAt c fun k => { undoDrops (keepFref k) k.hoop with hoop := [] }
  let s2 := freeHeads s1 c
  let s3 := endD0 s2 c
  let back (k : Core) : Core :=
    match x0.task with
    | none => k
    | some r =>
      let r1 := keepD (s3.ctxAt c) { r with since := s.cyc, front := s.now + 1, trapped := some (cause, x0.committed) }
      let k1 := holdBand k r.band s.cyc
      { k1 with inbox := r1 :: k1.inbox }
  let s4 := s3.modCore fun k => dropQueues (back k) c
  let s5 := s4.modCtxAt c fun k =>
    { wdStop s.cyc k with phase := .ending, task := none, stall := none, asleep := false, pending := none
                          frefWait := none, trapDue := none, replaying := false, body := [] }
  s5.report (.fault s.coreId c cause x0.pc (Record.id x0.task) x0.committed contained adds performed)

/-- An abortive trap where nothing of what failed has been performed (R29, R121). -/
def abortWith (s : State) (c : CtxNo) (cause : Cause) (contained : Bool) (adds : List Nat) : State :=
  abortAs s c cause contained adds (if contained then some false else none)

def abortCtx (s : State) (c : CtxNo) (cause : Cause) : State := abortWith s c cause false []

/-- An abortive trap of the current context (R29). -/
def trapOut (s : State) (cause : Cause) : Out := .next (abortCtx s s.core.cur cause)

/-- What a suspended context still awaits: the answer to an atomic, which its port performs once. A load, which
is made again when the context resumes, is given up (R28, R289, R290). -/
def keptPending (x : Ctx) : Option Pending :=
  x.pending.filter fun p => match p.dest with | .amo _ => true | _ => false

/-- A restartable fault or TRAP suspends a context (R28, R168). -/
def suspendCtx (s : State) (c : CtxNo) (w : Suspend) : State :=
  let x := s.ctxAt c
  let t := s.modCtxAt c fun k =>
    { wdStop s.cyc k with phase := .suspended w, stall := none, asleep := false, pending := keptPending x }
  t.report (match w with
    | .trap code => .service s.coreId c code x.pc (Record.id x.task)
    | _ => .restartable s.coreId c w x.pc (Record.id x.task))

def faultOut (s : State) (w : Suspend) : Out := .next (suspendCtx s s.core.cur w)

/-- TAKING A SIGNIFICANCE TRAP (R32): the instruction's results stand; SIGPC takes its address and
SIGOP the counts; REPSTATE keeps the step; the PC becomes SIGVEC; INH is set (R88). -/
def sigTrap (s : State) (op : Word) : State :=
  s.modCtx fun x =>
    { x with sigpc := x.pc, sigop := op, pc := x.sigvec, replaying := false, stall := none, asleep := false
             sigmode := { x.sigmode with inh := true } }

/-! ### Activation (R14, R15, R17) -/

/-- The power class of a task: its launch's, else its entry's (R340, R198). -/
def taskClass (r : Record) : BitVec 3 :=
  match r.launch with
  | some l => l.pclass
  | none => r.entry.d1.extractLsb' 11 3

/-- g4 at activation (R15). -/
def taskInfo (r : Record) : Word :=
  BitVec.ofNat 64 (r.msgid.toNat + r.cls.toNat * 2 ^ 32 + r.pri.toNat * 2 ^ 36 +
    (taskClass r).toNat * 2 ^ 40 + r.entryIx.toNat * 2 ^ 48)

/-- d1-d3 and their held bits at activation (R17). -/
def startD (k : Core) (r : Record) : Vector Word 3 × BitVec 3 :=
  match r.kept with
  | some p => p
  | none =>
    match r.cap with
    | some c => (c.dsc, c.cntd)
    | none => if r.entry.d1.getLsbD 22 then (k.lb, 0) else (Vector.replicate 3 0, 0)

/-- The local-aperture base (R195). -/
def apLocal : Nat := 0xFF00000000000000
def apRemote : Nat := 0xFE00000000000000

/-- The offset of a depth-0 frame at granule g (R22). -/
def frameAt (k : Core) (g : Nat) : Nat := 512 * (k.framecfg.base.toNat + g)

/-- The write of slots 0 and 1 of a new depth-0 frame, as a ring sees it (R14, R349; log entry 54). -/
def activateSeen (s : State) (c : CtxNo) (g : Nat) : Seen := ⟨s.coreId, c.toNat, 1, false, frameAt s.core g, true⟩

/-- ACTIVATION (R14) of a record on a context, with its depth-0 frame at granule g, whose slots 0 and 1 are written
whole, as one access at the scratchpad (R191, R349). DESIGN CHOICE (log entry 81): TAGBASE, SCALEBASE5 and SCALEBASE6,
for which R14 lists no value, keep those of the context's task before. Unsafe. -/
def activate (s0 : State) (c : CtxNo) (r : Record) (g : Nat) : State :=
  let s := noteAccess s0 (.scratch s0.coreId) (activateSeen s0 c g)
  let n := entryGranules r.entry
  let off := frameAt s.core g
  let ds := startD s.core r
  let isMsg := !(r.cls == 3 || r.cls == 4)
  let s1 := s.modCore fun k =>
    freshWords .scratch [off / 8, off / 8 + 1]
      { k with frames := k.frames ++ [(g, n)], mem := wrBytes k.mem off (leBytes 16 0) }
  s1.modCtxAt c fun x =>
    let y : Ctx := { Ctx.reset s.coreId c with
      d := #v[frameDesc s.coreId off (8 * n), ds.1[0], ds.1[1], ds.1[2]]
      held := ds.2.setWidth 4 <<< 1
      pc := r.entry.d0
      gen := x.gen, stackbase := x.stackbase, stacklimit := x.stacklimit
      tagbase := x.tagbase, scale5 := x.scale5, scale6 := x.scale6
      actSeq := x.actSeq + 1, lfsr := x.lfsr, phase := .running, task := some r
      wdFrom := some s.cyc }
    let y1 := setGC y 4 (taskInfo r) 63
    let y2 := setGC y1 10 (if isMsg then BitVec.ofNat 64 (apLocal + r.payOff) else r.arg) 63
    let y3 := setGC y2 11 (if isMsg then BitVec.ofNat 64 r.payLen else 0) 63
    let y4 := setGC y3 12 (r.src.setWidth 64) 63
    setGC y4 2 x.stackbase 63

end Sys2Proof.Machine
end

