-- ==== Sys2Proof/Machine/Fabric.lean ====
section
/-! DEFINITION. The package's memory as the accesses of a core meet it (23): home packages, the walk and
its caches, frame tags, the channels with poison and the symbol code, the trace rings of ports
(R277, R349, R350). -/
namespace Sys2Proof.Machine

/-! ### Accesses at the own ports -/

/-- An access of the current context at its own port, held by replay or logged, then k. -/
def atOwnPort (s : State) (p : PortKey) (kind addr : Nat) (k : State → Out) : Out :=
  let e := ownSeen s kind addr
  if replayHolds s p e then stallOut s else k (noteAccess s p e)

/-! ### What goes to other packages (R395, R397) -/

/-- The header of an operation or a response (R397). -/
def opHdr (op : BitVec 8) (status len tag arg : Nat) : BitVec 128 :=
  BitVec.ofNat 128 (op.toNat + status % 2 ^ 8 * 2 ^ 8 + len % 2 ^ 11 * 2 ^ 16 + tag % 2 ^ 32 * 2 ^ 32 + arg % 2 ^ 64 * 2 ^ 64)

/-- Whether cells are whole doublewords, one after the other. -/
def wholeWords (cs : List Host.Cell) : Bool :=
  let a := (cs.map Prod.fst).headD 0
  a % 8 == 0 && cs.length % 8 == 0 && (cs.mapIdx fun i c => c.1 == a + i).all id

/-- The first doubleword of bytes at addresses and how many bytes the doublewords from it to the last have. -/
def spanOf (as : List Nat) : Nat × Nat :=
  let ws := as.map fun a => a / 8
  let lo := ws.foldl min (ws.headD 0)
  let hi := ws.foldl max 0
  (8 * lo, 8 * (hi + 1 - lo))

/-- The bytes at addresses among the data of a LOAD, which begin at their first doubleword (R397). -/
def podData (as : List Nat) (bs : List Byte) : List Byte :=
  let lo := (spanOf as).1
  as.map fun a => bs.getD (a - lo) 0

/-- Things with addresses in their order, cut where one LOAD, of at most 1,024 bytes, would not take them (R397). -/
def podCut {α : Type} (f : α → Nat) (xs : List α) : List (List α) :=
  xs.foldl (fun acc x =>
    match acc.getLast? with
    | some g => if (spanOf ((g ++ [x]).map f)).2 ≤ 1024 then acc.dropLast ++ [g ++ [x]] else acc ++ [[x]]
    | none => [[x]]) []

/-- The header under which an operation leaves for another package (R395, R397), its TAG the effect's id. DESIGN
CHOICE (log entry 97): for what R397 numbers no operation, the OP is a free value; a load of bytes and a store of
single bytes name the doublewords these lie in; the engine's question whether it may write (log entry 74) is a STORE
of no bytes. Unsafe. -/
def podHdr (eid va : Nat) : Op → BitVec 128
  | .load as => let p := spanOf as; opHdr 1 0 p.2 eid p.1
  | .store [] => opHdr 2 0 0 eid (va / 8 * 8)
  | .store cs => let p := spanOf (cs.map Prod.fst); opHdr (if wholeWords cs then 2 else Config.podOp 3) 0 p.2 eid p.1
  | .atomic _ _ _ _ _ => opHdr 3 0 24 eid va
  | .slot0 _ _ => opHdr (Config.podOp 0) 0 8 eid va
  | .frameInc _ _ | .frameOwn _ => opHdr (Config.podOp 1) 0 8 eid va
  | .frameRel _ => opHdr (Config.podOp 2) 0 0 eid va
  | .istore _ | .entries _ | .msg _ | .cdec _ _ _ | .sev _ | .retire _ _ => opHdr 0 0 0 eid va

/-- An access to another package on its way, for a context of the core in focus. -/
def podAccess (s : State) (c : CtxNo) (eid va : Nat) (tag : Tag) (pkg : BitVec 9) (op : Op) (more : Bool) : PodOut :=
  .access (podHdr eid va op) s.coreId c eid va tag pkg op more

/-! ### Routes through the mesh (R313, R315) -/

/-- The router a port hangs on, as global column and row (R313, R360). -/
def siteOf : Port → Nat × Nat
  | .core c => ((dieOf c).toNat * 32 + nfld c.toNat 0 5, nfld c.toNat 5 5)
  | .chan n => (32 * (n.toNat / 8) + 8 * (n.toNat % 4) + 4, if n.toNat % 8 < 4 then 0 else 31)

/-- The link that leaves a router in a direction: 0 north (to row - 1), 1 east, 2 south, 3 west (log entry
23). -/
def linkNo (x y dir : Nat) : Nat := 4 * (96 * y + x) + dir

/-- The links of a path along a row or column: n steps from (x, y). -/
def linkRun (dx dy : Int) (dir : Nat) : Nat → Nat → Nat → List Nat
  | 0, _, _ => []
  | n + 1, x, y => linkNo x y dir :: linkRun dx dy dir n ((x + dx).toNat) ((y + dy).toNat)

/-- The links from one router to another: along the row first (R313). -/
def pathLinks (a b : Nat × Nat) : List Nat :=
  let h := if a.1 ≤ b.1 then linkRun 1 0 1 (b.1 - a.1) a.1 a.2 else linkRun (-1) 0 3 (a.1 - b.1) a.1 a.2
  let v := if a.2 ≤ b.2 then linkRun 0 1 2 (b.2 - a.2) b.1 a.2 else linkRun 0 (-1) 0 (a.2 - b.2) b.1 a.2
  h ++ v

/-- The quad link from a core to another one of its quad (R294, R374): numbered after the links of the mesh (log
entry 23). -/
def quadLink (a b : CoreId) : Nat :=
  4 * 96 * 32 + 16 * (256 * (dieOf a).toNat + quadOf a) + 4 * memberOf a + memberOf b

/-- The links of a route (R294, R313): those of its path, its quad link, none to a core itself. -/
def routeLinks (r : Route) : List Nat :=
  match r.src, r.dst with
  | .core a, .core b =>
    if a = b then [] else if sameQuad a b then [quadLink a b] else pathLinks (siteOf r.src) (siteOf r.dst)
  | _, _ => pathLinks (siteOf r.src) (siteOf r.dst)

/-- Whether no route remains from one port to another (R315, R353): a link of its path is down. -/
def routeDown (s : State) (r : Route) : Bool :=
  !s.downLinks.isEmpty && (routeLinks r).any fun l => s.downLinks.contains l

/-! ### Channels (R360, R362-R367, R372) -/

def chanOf (pa : Nat) : Nat := pa / 256 % 24
/-- The offset within the channel and the rank, 0-47 (R360). -/
def chanOffset (pa : Nat) : Nat := pa / 256 / 24 * 256 + pa % 256
def rankOf (pa : Nat) : Nat := chanOf pa * 2 + chanOffset pa / 2 ^ 35 % 2
def memTop : Nat := 0x18000000000

/-- Whether a half line is poisoned (R364, R366). -/
def poisoned (s : State) (pa : Nat) : Bool := s.poison.contains (pa / 64)

/-- The metadata code of a line with these bytes and no poison (R362, R363). -/
def lineCode (bs : List Byte) : Nat :=
  let dw := (List.range 16).map fun i => leNat ((bs.drop (8 * i)).take 8)
  let w := (List.range 32).map fun i => leNat ((bs.drop (4 * i)).take 4)
  let d0 := dw.headD 0
  let w0 := w.headD 0
  let fits (bits k x y : Nat) : Bool :=
    let z := (x + 2 ^ bits - y) % 2 ^ bits
    decide (z < 2 ^ (k - 1) ∨ 2 ^ bits - 2 ^ (k - 1) ≤ z)
  if dw.all fun x => x == 0 then 1
  else if dw.all fun x => x == d0 then 2
  else if dw.all fun x => fits 64 8 x d0 then 3
  else if w.all fun x => fits 32 8 x w0 then 5
  else if dw.all fun x => fits 64 16 x d0 then 4
  else 0

/-- The metadata code the controller keeps for the line of a physical address (R362, R363, R366): raw where a half
is poisoned, and where the last write was one of a half of a raw line. -/
def metaCode (s : State) (pa : Nat) : Nat :=
  let b := pa / 128 * 128
  if poisoned s b || poisoned s (b + 64) || s.rawLines.contains (pa / 128) then 0 else lineCode (rdBytes s.dram b 128)

/-! ### Codewords (R364, R365, R374; log entry 48) -/

def erasureOf (s : State) (rank : Nat) : Erasure := tget Erasure.reset s.erasures rank
def setErasure (s : State) (rank : Nat) (e : Erasure) : State :=
  { s with erasures := tput Erasure.reset s.erasures rank e }

/-- The positions a rank's register marks (R365). -/
def markedAt (e : Erasure) : List Nat :=
  (List.range 4).filterMap fun i =>
    let b := nfld e.marks.toNat (8 * i) 8
    if 128 ≤ b then some (b % 128) else none

/-- The symbols of a codeword, 0-71, among positions listed. -/
def symbolsOf (errs : List (BitVec 7)) : List (BitVec 7) := (errs.filter fun p => decide (p.toNat < 72)).eraseDups

/-- Whether a codeword with errors at the listed symbols decodes (R364): 2u + e at most 8. -/
def decodes (e : Erasure) (errs : List (BitVec 7)) : Bool :=
  let m := markedAt e
  let u := ((symbolsOf errs).filter fun p => !(m.contains p.toNat)).length
  decide (2 * u + m.eraseDups.length ≤ 8)

/-- A correction counted, if a symbol was in error (R364, R365). -/
def countCorrected (e : Erasure) (errs : List (BitVec 7)) : Erasure :=
  match (symbolsOf errs).getLast? with
  | none => e
  | some p => { e with cecnt := if e.cecnt = 0xFFFF then e.cecnt else e.cecnt + 1, lastpos := p }

/-- The rank a codeword lies in: a block of metadata in that of its lines, a block of tags in that of its
first frame. -/
def cwRank : Codeword → Nat
  | .half h => rankOf (64 * h)
  | .codes c b => 2 * c + 16384 * b / 2 ^ 35 % 2
  | .tags n => rankOf (2 ^ 20 * n)

/-- The symbols of a codeword in error now. -/
def cwErrs (s : State) (w : Codeword) : List (BitVec 7) := ((s.symErrs.find? fun p => decide (p.1 = w)).map Prod.snd).getD []

def setErrs (s : State) (w : Codeword) (errs : List (BitVec 7)) : State :=
  let rest := s.symErrs.filter fun p => !(decide (p.1 = w))
  { s with symErrs := if errs.isEmpty then rest else rest ++ [(w, errs)] }

/-- Whether a codeword reads as data: not poison, and it decodes (R364). -/
def cwOk (s : State) (w : Codeword) : Bool :=
  !(s.badWords.contains w) && (s.symErrs.isEmpty || decodes (erasureOf s (cwRank w)) (cwErrs s w))

/-- The blocks of metadata and of tags that the line of a physical address needs (R362, R372). -/
def codesOf (pa : Nat) : Codeword := .codes (chanOf pa) (chanOffset pa / 16384)
def tagsOf (pa : Nat) : Codeword := .tags (pa / 2 ^ 20)

/-- Whether a frame accepts an access (R372). A tag that does not decode rejects nothing: the data reads as
poison (R374). -/
def frameOk (s : State) (t : Tag) (pa : Nat) : Bool :=
  let f := (tget 0 s.ftags (pa / 65536)).toNat
  !(cwOk s (tagsOf pa)) || nbit f 24 && (nbit f 25 || (nfld f 0 16 == t.space.toNat &&
    decide ((t.gen.toNat + 256 - nfld f 16 8) % 256 < 128)))

/-- The half of a slot that holds the bytes of a half of a line (R362, R363): its own of a raw line, the first
of a compressed one, none of a line of zeros. -/
def slotHalf (s : State) (h : Nat) : Option Nat :=
  match metaCode s (64 * h) with
  | 0 => some h
  | 1 => none
  | _ => some (h / 2 * 2)

/-- Whether the bytes of a half line can be had at all, apart from its own codeword. -/
def reachable (s : State) (pa : Nat) : Bool := cwOk s (codesOf pa) && cwOk s (tagsOf pa)

/-- Whether the half line of a physical address reads as data (R364, R366, R367, R374). -/
def readable (s : State) (pa : Nat) : Bool :=
  !(poisoned s pa) && reachable s pa && (match slotHalf s (pa / 64) with | none => true | some h => cwOk s (.half h))

/-- The halves of a line whose bytes lie in the half h of its slot (R362). -/
def halvesIn (s : State) (h : Nat) : List Nat := [h / 2 * 2, h / 2 * 2 + 1].filter fun d => decide (slotHalf s d = some h)

/-- Whether a codeword was written as poison (R364). -/
def cwPoison (s : State) : Codeword → Bool
  | .half h => (halvesIn s h).any fun d => poisoned s (64 * d)
  | w => s.badWords.contains w

/-- The corrections of codewords of slots decoded, counted (R364): one that does not decode is not corrected. -/
def countHalves (s : State) (hs : List Nat) : State :=
  (hs.filter fun h => cwOk s (.half h) && !(cwPoison s (.half h))).foldl (fun t h =>
    let r := cwRank (.half h)
    setErasure t r (countCorrected (erasureOf t r) (cwErrs s (.half h)))) s

/-- The corrections of the codewords that reads of bytes use, counted: each 64-byte line is one access (R364). -/
def countReads (s : State) (as : List Nat) : State :=
  if s.symErrs.isEmpty then s
  else countHalves s (((as.map fun a => a / 64).eraseDups).filterMap (slotHalf s))

/-- The corrections of the one decoding of a line that a write merges, counted (R364, R366). -/
def countLine (s : State) (l : Nat) : State :=
  if s.symErrs.isEmpty then s else countHalves s ((([2 * l, 2 * l + 1] : List Nat).filterMap (slotHalf s)).eraseDups)

/-- Bytes of memory by physical address; none where a half read does not decode (R367). -/
def chanRead (s : State) (as : List Nat) : Option (List Byte) :=
  if as.any fun a => !(readable s a) then none else some (as.map fun a => rd8 s.dram a)

def State.setPoison (s : State) (half : Nat) (on : Bool) : State :=
  { s with poison := if on then (if s.poison.contains half then s.poison else half :: s.poison)
                     else s.poison.filter fun h => !(h == half) }

/-- Whether cells cover a half line wholly. -/
def covers (cs : List Host.Cell) (h : Nat) : Bool := (List.range 64).all fun i => cs.any fun c => c.1 == 64 * h + i

/-- One half of a line as a write leaves it (R366): covered, it holds the written bytes and no poison; else, if
its old bytes do not decode, it is written as poison, the bytes written to it lost, with an error record. bad
says whether they decode. -/
def mergeHalf (cs : List Host.Cell) (bad : Bool) (s : State) (h : Nat) : State :=
  let mine := cs.filter fun c => c.1 / 64 == h
  if covers mine h then { setErrs (s.setPoison h false) (.half h) [] with dram := wrCells s.dram mine }
  else if bad then (setErrs (s.setPoison h true) (.half h) []).report (.error s.coreId 366 h)
  else { s with dram := wrCells s.dram mine }

/-- The cells of a write that lie in the line l, and the halves of it that they touch. -/
def cellsIn (cs : List Host.Cell) (l : Nat) : List Host.Cell := cs.filter fun c => c.1 / 128 == l
def halvesHit (mine : List Host.Cell) (l : Nat) : List Nat :=
  ([2 * l, 2 * l + 1] : List Nat).filter fun h => mine.any fun c => c.1 / 64 == h

/-- Whether a write to the line l is direct: it covers wholly what it touches of a raw line (R366). -/
def writesDirect (s : State) (cs : List Host.Cell) (l : Nat) : Bool :=
  metaCode s (128 * l) == 0 && (halvesHit (cellsIn cs l) l).all (covers (cellsIn cs l))

/-- A line noted as raw, or as stored in the form that its bytes give it (R363, R366). -/
def noteRaw (s : State) (l : Nat) (raw : Bool) : State :=
  let rest := s.rawLines.filter fun x => !(x == l)
  { s with rawLines := if raw && lineCode (rdBytes s.dram (128 * l) 128) != 0 then l :: rest else rest }

/-- A write to the line l (R366): halves of a raw line covered wholly are written directly; else the line is
merged, both its halves. A merged line is stored afresh, its errors gone. -/
def writeLineCells (cs : List Host.Cell) (s : State) (l : Nat) : State :=
  let hs : List Nat := [2 * l, 2 * l + 1]
  let mine := cellsIn cs l
  let touched := halvesHit mine l
  let bad (h : Nat) : Bool := !(readable s (64 * h))
  if writesDirect s cs l then
    noteRaw (touched.foldl (fun t h => mergeHalf mine (bad h) t h) s) l (decide (touched.length = 1))
  else
    let t := hs.foldl (fun t h => mergeHalf mine (bad h) t h) (countLine s l)
    noteRaw (hs.foldl (fun u h => setErrs u (.half h) []) t) l false

/-- The lines a list of cells touches, each once. -/
def linesOf (cs : List Host.Cell) : List Nat := (cs.map fun c => c.1 / 128).eraseDups

/-- A write at the channels (R366). -/
def chanWrite (s : State) (cs : List Host.Cell) : State := (linesOf cs).foldl (writeLineCells cs) s

/-- Bytes read and cells written in their place in one access of each line: what the write merges is decoded once
(R364, R366). -/
def chanUpdate (s : State) (as : List Nat) (cs : List Host.Cell) : State :=
  let merged (a : Nat) : Bool := (linesOf cs).contains (a / 128) && !(writesDirect s cs (a / 128))
  chanWrite (countReads s (as.filter fun a => !(merged a))) cs

/-! ### Translation (R369-R373) -/

/-- What an access finds. -/
inductive Xlate where
  | ok (pa : Nat)
  | pageFault
  | access (contained : Bool)
  | stale
  | away (pkg : BitVec 9)
  /-- A read of the walk is held back by replay (R350): the access is tried again. -/
  | held
  deriving DecidableEq, Repr

def rightsOk (l : Leaf) (acc : Access) (priv : Bool) : Bool :=
  (!l.priv || priv) &&
  (match acc with
   | .read => l.r
   | .write => l.w
   | .atomic => l.r && l.w
   | .fetch => l.x)

/-- What a walk ends in: a leaf, or why none. -/
inductive Walked where
  | leaf (l : Leaf)
  | absent
  | bad (contained : Bool)
  deriving DecidableEq, Repr

/-- Bits of VA that index the tables, by level, and the page bits of a leaf (R369). -/
def levelLo : Nat → Nat
  | 0 => 39
  | 1 => 30
  | 2 => 21
  | _ => 16

def levelBits : Nat → Nat
  | 0 => 8
  | 1 => 9
  | 2 => 9
  | _ => 5

/-- The walk from a table at a level (R370), using at most fuel levels. -/
def walk (s : State) (t : Tag) (va : Nat) : Nat → Nat → Nat → Walked
  | 0, _, _ => .bad false
  | fuel + 1, lvl, table =>
    let a := table + 8 * nfld va (levelLo lvl) (levelBits lvl)
    if memTop ≤ a then .bad false
    else
      match chanRead s ((List.range 8).map fun i => a + i) with
      | none => .bad true
      | some bs =>
        let e := leNat bs
        let pa := nfld e 8 33 * 256
        if !(nbit e 0) then .absent
        else if nfld e 6 2 ≠ 0 ∨ nfld e 41 23 ≠ 0 ∨ memTop ≤ pa then .bad false
        else if nbit e 1 then
          let lo := levelLo lvl
          if lvl = 0 ∨ pa % 2 ^ lo ≠ 0 then .bad false
          else .leaf ⟨t.gen ++ t.space, va / 2 ^ lo, lo, pa, nbit e 2, nbit e 3, nbit e 4, nbit e 5⟩
        else if lvl = 3 then .bad false
        else walk s t va fuel (lvl + 1) pa

/-- The physical addresses of the table entries that walk reads (R371). -/
def walkReads (s : State) (va : Nat) : Nat → Nat → Nat → List Nat
  | 0, _, _ => []
  | fuel + 1, lvl, table =>
    let a := table + 8 * nfld va (levelLo lvl) (levelBits lvl)
    if memTop ≤ a then []
    else
      match chanRead s ((List.range 8).map fun i => a + i) with
      | none => [a]
      | some bs =>
        let e := leNat bs
        if nfld e 0 2 = 1 ∧ nfld e 6 2 = 0 ∧ nfld e 41 23 = 0 ∧ lvl ≠ 3 then a :: walkReads s va fuel (lvl + 1) (nfld e 8 33 * 256)
        else [a]

/-- The root of a space in a die's root table (R369). -/
def rootOf (s : State) (die : BitVec 2) (t : Tag) : Nat := (tget 0 (s.die die).roots t.space.toNat).toNat

/-- The walk of a virtual address from the root of its space (R369). -/
def walkRoot (s : State) (die : BitVec 2) (t : Tag) (va : Nat) : Walked :=
  let root := rootOf s die t
  if nbit root 0 then walk s t va 4 0 (nfld root 8 33 * 256) else .absent

/-- The reads of a walk at their channels, held by replay (R350) or logged (R349; log entry 54). -/
def walkNotes (s : State) (die : BitVec 2) (t : Tag) (va : Nat) : Option State :=
  let root := rootOf s die t
  let as := if nbit root 0 then walkReads s va 4 0 (nfld root 8 33 * 256) else []
  let one (u : Option State) (a : Nat) : Option State :=
    u.bind fun v =>
      let p : PortKey := .chan (BitVec.ofNat 5 (chanOf a))
      let e : Seen := ⟨s.coreId, 6, 0, false, a, false⟩
      if replayHolds v p e then none else some (noteAccess (countReads v [a]) p e)
  as.foldl one (some s)

def leafHits (l : Leaf) (t : Tag) (va : Nat) : Bool :=
  decide (l.tag = t.gen ++ t.space) && l.vpage == va / 2 ^ l.bits

def findLeaf (ls : List Leaf) (t : Tag) (va : Nat) : Option Leaf := ls.find? fun l => leafHits l t va

/-- The home package of a virtual address (R369, R395). -/
def homeOf (va : Nat) : BitVec 9 := BitVec.ofNat 9 (va / 2 ^ 47)
def State.pkgNo (s : State) : BitVec 9 := s.podcfg.extractLsb' 0 9
def State.podEn (s : State) : Bool := s.podcfg.getLsbD 9

/-- What a walk that finds no good table leaves: an error record for an entry that R370 forbids; none for one that
cannot be read (R367). -/
def badTable (s : State) (c : CoreId) (contained : Bool) (va : Nat) : State :=
  if contained then s else s.report (.error c 370 va)

/-- Translation of an access of the core in focus at an address homed here: the TLB, the translation
cache of its die, the walk, which fills both (R369-R372). A walk compares the frame tag; past it, the channel
rejects what is performed there (R373). DESIGN CHOICE (log entry 91): where a walk finds both a leaf without the right
and a frame tag that rejects, the cause is STALE_GEN; R106 and R370-R373 give no order between them. Unsafe. -/
def translateHere (s : State) (t : Tag) (acc : Access) (va : Nat) : Xlate × State :=
  let fin (l : Leaf) (u : State) : Xlate × State :=
    if rightsOk l acc t.priv then (.ok (l.pa + va % 2 ^ l.bits), u) else (.access false, u)
  match findLeaf s.core.tlb t va with
  | some l => fin l s
  | none =>
    let fill (l : Leaf) (u : State) : State :=
      u.modCore fun k => { k with tlb := (k.tlb ++ [l]).drop (k.tlb.length - 63) }
    match findLeaf (s.die (dieOf s.coreId)).tcache t va with
    | some l => fin l (fill l s)
    | none =>
      match walkNotes s (dieOf s.coreId) t va with
      | none => (.held, s)
      | some s1 =>
        match walkRoot s (dieOf s.coreId) t va with
        | .absent => (.pageFault, s1)
        | .bad c => (.access c, badTable s1 s.coreId c va)
        | .leaf l =>
          let pa := l.pa + va % 2 ^ l.bits
          if frameOk s t pa then
            fin l ((fill l s1).modDie (dieOf s.coreId) fun d =>
              { d with tcache := (d.tcache ++ [l]).drop (d.tcache.length - 16383) })
          else (.stale, s1)

/-- The guard below a stack (R179). -/
def inGuard (limit : Word) (va : Nat) : Bool :=
  decide (limit.toNat ≤ va + 0x100000 ∧ va < limit.toNat)

/-- Translation of any fabric access of n bytes within one page (R179, R369, R395): the guard holds for each of its
bytes. -/
def translate (s : State) (t : Tag) (limit : Word) (acc : Access) (va n : Nat) : Xlate × State :=
  if (List.range n).any fun i => inGuard limit (va + i) then (.access false, s)
  else if homeOf va = s.pkgNo then translateHere s t acc va
  else (.away (homeOf va), s)

/-! ### The store gather buffer (R285) -/

/-- The address a byte of a line drains to. -/
def lineCells (l : GLine) : List Host.Cell :=
  (foldIdx (fun i b acc => match b with | some (x, _) => (l.pa + i, x) :: acc | none => acc) 0 l.bytes []).reverse

/-- The channel of a line and its drain as a ring sees it (R349). -/
def drainPort (l : GLine) : PortKey := .chan (BitVec.ofNat 5 (chanOf l.pa))
def drainSeen (s : State) (l : GLine) : Seen := ⟨s.coreId, 6, 6, false, l.va, false⟩

/-- The drain of a line performed at its channel (R285, R366, R373): one access; a frame tag that rejects it
discards it with an error record. -/
def performDrain (s : State) (l : GLine) : State :=
  let s1 := noteAccess s (drainPort l) (drainSeen s l)
  if frameOk s1 l.tag l.pa then chanWrite s1 (lineCells l) else s1.report (.error s.coreId 373 l.pa)

/-- Whether a line holds the location of a byte, whatever address it was written under. -/
def lineHolds (p : LinePlace) (l : GLine) : Bool :=
  decide (l.home = p.home) &&
    (match p.home with
     | none => l.pa == p.pa / 64 * 64
     | some _ => l.va == p.va / 64 * 64 && decide (l.tag.space = p.tag.space))

/-- Whether no route remains from the core in focus to the channel of a physical address (R315, R353). -/
def chanCut (s : State) (pa : Nat) : Bool := routeDown s ⟨.core s.coreId, .chan (BitVec.ofNat 5 (chanOf pa))⟩

/-- Whether the drain of line n must wait: an older line of its location has not been performed (R281), or replay
holds it back (R350). -/
def drainHeld (s : State) (n : Nat) (l : GLine) : Bool :=
  (s.core.gather.take n).any (lineHolds ⟨l.home, l.tag, l.va, l.pa⟩) ||
    (l.home.isNone && !(chanCut s l.pa) && replayHolds s (drainPort l) (drainSeen s l))

/-- Line n of the buffer begins its drain (R285). Its write is performed at once, and the line is free, unless
it must wait; a line homed on another package stays until that package answers, on the account of its last writer
(R395). Where no domain and no route is left the write is lost (R308). -/
def drainLine (s : State) (n : Nat) : State :=
  match s.core.gather[n]? with
  | none => s
  | some l =>
    let free (t : State) : State := t.modCore fun k => { k with gather := k.gather.eraseIdx n }
    let mark (t : State) (e : Nat) : State := t.modCore fun k => { k with gather := k.gather.set n { l with drain := some e } }
    match l.drain with
    | some (_ + 1) => s
    | some 0 | none =>
      if drainHeld s n l then mark s 0
      else
        match l.home with
        | some p =>
          if s.podEn then
            mark { s with
              podOut := s.podOut ++ [podAccess s l.who.1 s.eids l.va l.tag p (.store (lineCells { l with pa := l.va })) false]
              eids := s.eids + 1 } s.eids
          else free s
        | none => if chanCut s l.pa then free s else performDrain (free s) l

/-- The first open line that satisfies p. -/
def firstOpen (s : State) (p : GLine → Bool) : Option Nat :=
  s.core.gather.findIdx? fun l => l.drain.isNone && p l

/-- The open lines that satisfy p begin their drains, oldest first, at most fuel of them. -/
def drainSome (p : GLine → Bool) : Nat → State → State
  | 0, s => s
  | fuel + 1, s => match firstOpen s p with | none => s | some n => drainSome p fuel (drainLine s n)

def drainWhere (s : State) (p : GLine → Bool) : State := drainSome p s.core.gather.length s

/-- Whether no line that satisfies p is left: every such drain has been performed. -/
def drained (s : State) (p : GLine → Bool) : Bool := s.core.gather.all fun l => !(p l)

def wroteIn (c : CtxNo) (l : GLine) : Bool :=
  l.bytes.any fun b => match b with | some (_, w) => w == c | none => false

def fullLine (l : GLine) : Bool := l.bytes.all Option.isSome

/-- Whether an open line holds the location of a byte: it takes stores to it. -/
def openAt (p : LinePlace) (l : GLine) : Bool := l.drain.isNone && lineHolds p l

/-- A line for a byte that the current context stores: the open one that holds its location, else a new one. Where
8 are in use, the oldest open one begins its drain for the store, which waits until a line is free (R285). -/
def gatherRoom (p : LinePlace) (s : State) : State × Bool :=
  if s.core.gather.any (openAt p) then (s, true)
  else
    let full := decide (8 ≤ s.core.gather.length)
    let t :=
      if full && !(s.ctx.evicted && s.core.gather.any fun l => l.drain.isSome) then
        (drainSome (fun _ => true) 1 s).modCtx fun x => { x with evicted := true }
      else s
    if 8 ≤ t.core.gather.length then (t, false)
    else
      let l : GLine := ⟨p.va / 64 * 64, p.pa / 64 * 64, p.home, List.replicate 64 none, p.tag, (s.core.cur, s.ctx.actSeq), s.now, none⟩
      ((t.modCore fun k => { k with gather := k.gather ++ [l] }).modCtx fun x => { x with evicted := false }, true)

/-- One byte merged into its line; a line whose 64 bytes are written drains (R285). The task has committed (R286). -/
def gatherByte (p : LinePlace) (x : Byte) (s : State) : State :=
  let put (l : GLine) : GLine :=
    { l with bytes := l.bytes.set (p.va % 64) (some (x, s.core.cur)), tag := p.tag, who := (s.core.cur, s.ctx.actSeq), last := s.now }
  let t := s.modCore fun k => { k with gather := k.gather.map fun l => if openAt p l then put l else l }
  (drainWhere t fullLine).modCtx fun y => { y with committed := true }

/-- The bytes of a store merged in order, each in its place (R144, R285), until one has no line; those that are left.
-/
def gatherCells : List (LinePlace × Byte) → State → State × List (LinePlace × Byte)
  | [], s => (s, [])
  | c :: cs, s =>
    match gatherRoom c.1 s with
    | (t, true) => gatherCells cs (gatherByte c.1 c.2 t)
    | (t, false) => (t, c :: cs)

/-- A byte forwarded from the youngest line that holds it, draining or not (R107, R285). -/
def gatherFwd (k : Core) (p : LinePlace) : Option Byte :=
  (k.gather.reverse.filter (lineHolds p)).findSome? fun l => (l.bytes.getD (p.va % 64) none).map Prod.fst

end Sys2Proof.Machine
end

