-- ==== Sys2Proof/Machine/Barrier.lean ====
section
/-! DEFINITION. Barriers of every scope (R301-R307, R399, R400), the power classes' holds on them (R306),
and the landing arithmetic the reduction shares with R322. -/
namespace Sys2Proof.Machine

/-! ### Names and members (R301) -/

def barNo (k : BarKey) : BarNo := k.scope.ctorIdx * 65536 + k.inst.toNat * 64 + k.id.toNat

/-- The barrier a core names with a scope and an id (R301). -/
def barOf (c : CoreId) (sc : BarScope) (i : BitVec 6) : BarNo :=
  let inst := match sc with
    | .quad => (dieOf c).toNat * 256 + quadOf c
    | .die => (dieOf c).toNat
    | .pkg | .pod => 0
  barNo ⟨sc, BitVec.ofNat 10 inst, i⟩

def barScope (n : BarNo) : Nat := n / 65536
def barInst (n : BarNo) : Nat := n / 64 % 1024
def barId (n : BarNo) : Nat := n % 64

def State.bar (s : State) (n : BarNo) : Barrier := tget Barrier.reset s.bars n
def State.setBar (s : State) (n : BarNo) (b : Barrier) : State := { s with bars := tput Barrier.reset s.bars n b }

/-- Whether the masks of a barrier name a core (R301). -/
def inMasks (s : State) (n : BarNo) (c : CoreId) : Bool :=
  let b := s.bar n
  (match barScope n with
   | 0 => barInst n == (dieOf c).toNat * 256 + quadOf c && b.cmask.getLsbD (memberOf c)
   | k =>
     b.cmask.getLsbD (1024 * (dieOf c).toNat + 4 * quadOf c + memberOf c) &&
     b.qmask.getLsbD (256 * (dieOf c).toNat + quadOf c) &&
     (match k with
      | 1 => barInst n == (dieOf c).toNat
      | 2 => b.dmask.getLsbD (dieOf c).toNat
      | _ => b.dmask.getLsbD (dieOf c).toNat && b.pmask.getLsbD s.pkgNo.toNat))

/-- Membership (R301, R307): the masks, and only visible compute cores that live. -/
def isMember (s : State) (n : BarNo) (c : CoreId) : Bool :=
  visible c && !((s.coreAt c).killed) && inMasks s n c

/-- The cores a barrier's masks could name. -/
def barSites (n : BarNo) : List CoreId :=
  match barScope n with
  | 0 =>
    let q := barInst n
    let base := q / 256 * 1024 + q % 256 / 16 * 64 + q % 16 * 2
    [base, base + 1, base + 32, base + 33].map (BitVec.ofNat 12)
  | 1 => (List.range 1024).map fun i => BitVec.ofNat 12 (barInst n * 1024 + i)
  | _ => (List.range 3072).map (BitVec.ofNat 12)

def barMembers (s : State) (n : BarNo) : List CoreId := (barSites n).filter (isMember s n)

/-- The packages of a pod barrier (R301). -/
def podPkgs (b : Barrier) : List (BitVec 9) :=
  ((List.range 512).filter fun i => b.pmask.getLsbD i).map (BitVec.ofNat 9)

/-- The other packages of a pod barrier, if this one is of it; none of a barrier of another scope. -/
def podMates (s : State) (n : BarNo) : List (BitVec 9) :=
  if barScope n = 3 ∧ (s.bar n).pmask.getLsbD s.pkgNo.toNat = true then
    (podPkgs (s.bar n)).filter fun p => !(decide (p = s.pkgNo))
  else []

/-- Every member of this package has arrived (R165, R307, R399). A barrier that never had a member does not
complete; a package of a pod barrier with others, which has no living member, has nothing to wait for. -/
def allCame (s : State) (n : BarNo) : Bool :=
  let ms := barMembers s n
  (!ms.isEmpty || (s.bar n).emptied || !(podMates s n).isEmpty) && ms.all fun c => (s.bar n).came.contains c

/-- The control word of a barrier as its port reads it (R302): OUT counts the members not yet arrived. DESIGN CHOICE
(log entry 96): of a pod barrier, how many members of another package, whose arrival has not come here, have not
arrived is a free value; R302 does not say how a package learns it. -/
def barWord (s : State) (n : BarNo) : Nat :=
  let b := s.bar n
  let away := ((podMates s n).filter fun p => !(b.podCame.contains p)).map fun p =>
    Config.podLeft (BitVec.ofNat 4 (barId n)) p s.now
  let left := ((barMembers s n).filter fun c => !(b.came.contains c)).length + away.sum
  b2n b.en + b2n b.shed * 2 + b.pclass.toNat * 2 ^ 2 + b2n b.exitb * 2 ^ 5 + b2n b.p * 2 ^ 8 + b2n b.held * 2 ^ 9 +
    min 65535 left * 2 ^ 16

/-- A class is held while SHED or HWHOLD is set (R387). -/
def classHeld (s : State) (c : BitVec 3) : Bool :=
  s.power.shed.getLsbD c.toNat || s.power.hwhold.getLsbD c.toNat

/-- f at every context that stalls in WAIT on a barrier, and the clocks brought up to date (R385). -/
def onWaiters (s : State) (n : BarNo) (f : Nat → Ctx → Ctx) : State :=
  let upd (cyc : Nat) (x : Ctx) : Ctx := if x.stall = some (.barrier n) then f cyc x else x
  let one (s : State) (c : CoreId) : State :=
    s.onCore c fun t => (t.modCore fun k => { k with ctxs := k.ctxs.map (upd t.cyc) }).clockUpdate
  (barMembers s n).foldl one s

/-- A phase that has become complete while its class is held is held (R306); the watchdogs of the
contexts that wait on it stop (R18). -/
def holdIfShed (s : State) (n : BarNo) : State :=
  let b := s.bar n
  if b.shed && classHeld s b.pclass && allCame s n then
    onWaiters (s.setBar n { b with held := true }) n wdStop
  else s

/-- A core's arrival signalled (R165, R304). -/
def signalArrival (s : State) (n : BarNo) (c : CoreId) : State :=
  let b := s.bar n
  if b.came.contains c then s else holdIfShed (s.setBar n { b with came := b.came ++ [c] }) n

/-! ### Completion (R298, R305) -/

/-- Step 4 of R160 for the task of a context: its payload's space is freed, its d0 frame if not live. -/
def leaveCore (s : State) (c : CtxNo) : State :=
  let x := s.ctxAt c
  let off := dOffset (x.d[0])
  let gone := dKind (x.d[0]) = 1 ∧ sLv (rdNat s.core.mem off 8) = false
  let s1 := if gone then s.modCore fun k => freeFrameAt k off else s
  s1.modCtxAt c fun y => { y with phase := .ending }

/-- A parked gang member of the core in focus goes on to the end of its EXIT: its payload's space is freed, and its d0
frame, if live, loses its owner reference only now (R298). -/
def unparkCtx (id : BitVec 6) (s : State) (c : CtxNo) : State :=
  let x := s.ctxAt c
  if x.phase = .parked ∧ (x.task.bind fun t => t.launch.bind fun l => l.exitB) = some id then
    (endD0 s c).modCtxAt c fun y => { y with phase := .ending }
  else s

/-- A member core handed back (R298, R333): its parked task goes on; where none is parked, its task has
ended without a run to its EXIT, and the ending is reported. DESIGN CHOICE (log entry 122): so it is too where another
context of the core made its arrival by an ARRIVE (R304) and the start task still runs; R298 and R304 do not settle
this together. Unsafe. -/
def unparkCore (id : BitVec 6) (l : Option LaunchRef) (s : State) (c : CoreId) : State :=
  s.onCore c fun t =>
    let parked := t.core.ctxs.any fun x => decide (x.phase = .parked) &&
      decide ((x.task.bind fun r => r.launch.bind fun l => l.exitB) = some id)
    if parked then ([0, 1, 2, 3].foldl (unparkCtx id) t).clockUpdate
    else t.modCore fun k => { k with ends := k.ends ++ l.toList }

/-- A phase completes: P inverts, and each WAIT that stalls on it returns (R165); a gang exit barrier's members leave
and EN clears (R298, R302). -/
def completePhase (s : State) (n : BarNo) : State :=
  let b := s.bar n
  let s0 := s.setBar n { b with p := !b.p, came := [], held := false, told := false, podCame := [], emptied := false
                                en := b.en && !b.exitb }
  let s1 := onWaiters s0 n fun cyc x => countedCtx (nextPc (wdStart cyc x))
  if b.exitb then
    let id := BitVec.ofNat 6 (barId n)
    let d := BitVec.ofNat 2 (barInst n)
    let ref (g : BitVec 6 × List CoreId × Nat) : LaunchRef :=
      { die := d, id := g.2.2, pclass := 0, exitB := some id, remote := false, persist := false, gang := [] }
    let l := ((s.die d).gangs.find? fun g => g.1 == id).map ref
    let s2 := (barMembers s n).foldl (unparkCore id l) s1
    s2.modDie d fun y => { y with gangs := y.gangs.filter fun g => !(g.1 == id) }
  else s1

/-! ### Pod barriers (R399, R400) -/

/-- One element combined by a landing transform: 1 f32 add, 6 f32 max, 7 xor (R322). -/
def land32 (lt : Nat) (x y : Nat) : Nat :=
  if lt = 6 then (fminmaxR f32F true (fval f32F x 63) (fval f32F y 63)).bits
  else (faddR f32F .rne (fval f32F x 63) (fval f32F y 63)).bits

/-- A doubleword combined by lt. -/
def land64 (lt : Nat) (x y : Nat) : Nat :=
  if lt = 7 then x ^^^ y
  else land32 lt (nfld x 0 32) (nfld y 0 32) + land32 lt (nfld x 32 32) (nfld y 32 32) * 2 ^ 32

/-- The identity of a reduction (R400). -/
def redUnit (lt : BitVec 4) : Word :=
  if lt = 6 then 0xFF800000FF800000 else 0

def State.red (s : State) (id : Nat) : PodRed := tget PodRed.reset s.reds id

def redTag (r : PodRed) : Tag := ⟨r.tag.extractLsb' 0 16, r.tag.extractLsb' 16 8, true⟩

/-- The physical address of a reduction address, where it can be reached, after the reads of its walk (R349); none
while replay holds one of those back (R350). -/
def redAddr (s : State) (r : PodRed) (a : Word) : Option (Option Nat × State) :=
  (walkNotes s 0 (redTag r) a.toNat).map fun u =>
    (match walkRoot s 0 (redTag r) a.toNat with
      | .leaf l =>
        let pa := l.pa + a.toNat % 2 ^ l.bits
        if frameOk s (redTag r) pa then some pa else none
      | .absent | .bad _ => none, u)

/-- An access of the reduction at its channel as a ring sees it (R349). -/
def redSeen (s : State) (kind : Nat) (a : Word) : Seen := ⟨s.coreId, 6, kind, false, a.toNat, false⟩
def redPort (pa : Nat) : PortKey := .chan (BitVec.ofNat 5 (chanOf pa))

/-- What this package carries in its arrival: the 8 bytes at SRCADDR, or 0 without a reduction (R400); none
while replay holds the read (R350). The specification states no value where SRCADDR cannot be read: a free one
(log entry 6), with an error record. -/
def podSource (s : State) (id : Nat) : Option (Word × State) :=
  let r := s.red id
  let lost (u : State) : Word × State :=
    (Config.freeWord u.free, ({ u with free := u.free + 1 } : State).report (.error u.coreId 400 r.src.toNat))
  if r.lt = 0 then some (0, s)
  else
    match redAddr s r r.src with
    | none => none
    | some (none, u) => some (lost u)
    | some (some pa, u) =>
      (seenAt u (redPort pa) (redSeen u 0 r.src)).map fun v =>
        match chanRead v ((List.range 8).map fun i => pa + i) with
        | none => lost v
        | some bs => (BitVec.ofNat 64 (leNat bs), countReads v [pa])

/-- A completion at this package: RESADDR is written, then P inverts (R399); none while replay holds that write, or a
read of its walk, back (R350). -/
def podComplete (s : State) (n : BarNo) (x : Word) : Option State :=
  let r := s.red (barId n)
  let fin (t : State) : State := completePhase { t with reds := tput PodRed.reset t.reds (barId n) { r with acc := none } } n
  if r.lt = 0 then some (fin s)
  else
    match redAddr s r r.res with
    | none => none
    | some (none, u) => some (fin (u.report (.error u.coreId 400 r.res.toNat)))
    | some (some pa, u) =>
      (seenAt u (redPort pa) (redSeen u 1 r.res)).map fun v => fin (chanWrite v (cellsAt pa (leBytes 8 x.toNat)))

/-- A BARRIER operation to a package (R397): a completion, and an arrival with a reduction, carries 8 bytes (R400). -/
def podBarrier (id : Nat) (lt : BitVec 4) (pkg : BitVec 9) (x : Word) (completion : Bool) : PodOut :=
  .barrier (opHdr 6 0 (if completion || lt != 0 then 8 else 0) 0 (id % 16 + 16 * b2n completion)) (BitVec.ofNat 4 id) pkg x completion

/-- A package's arrival at the root (R399, R400): combined, and once all came the completion sent, and taken here
unless replay holds its write back (R350): then as soon as that may be. -/
def podArrive (s : State) (n : BarNo) (pkg : BitVec 9) (x : Word) : State :=
  let b := s.bar n
  let r := s.red (barId n)
  let acc := r.acc.getD (redUnit r.lt)
  let acc1 := if r.lt = 0 then 0 else BitVec.ofNat 64 (land64 r.lt.toNat acc.toNat x.toNat)
  let b1 := { b with podCame := b.podCame ++ [pkg] }
  let s1 := { s.setBar n b1 with reds := tput PodRed.reset s.reds (barId n) { r with acc := some acc1 } }
  if (podPkgs b).all fun p => b1.podCame.contains p then
    let outs := ((podPkgs b).filter fun p => !(decide (p = s.pkgNo))).map fun p =>
      podBarrier (barId n) r.lt p acc1 true
    let s2 : State := { s1 with podOut := s1.podOut ++ outs }
    (podComplete s2 n acc1).getD s2
  else s1

/-- A completion from the root that replay holds back here stays until it is taken (R350, R399). -/
def podKeep (s : State) (n : BarNo) (x : Word) : State :=
  let b := s.bar n
  { s.setBar n { b with podCame := [(podPkgs b).headD 0] } with
    reds := tput PodRed.reset s.reds (barId n) { s.red (barId n) with acc := some x } }

/-- Whether a completion that replay held back waits here: every package has arrived, at the root; else the root's has
come. -/
def podDue (s : State) (n : BarNo) : Bool :=
  let b := s.bar n
  decide (barScope n = 3) && b.told && (match (podPkgs b).head? with
    | some r => if r = s.pkgNo then (podPkgs b).all fun p => b.podCame.contains p else b.podCame.contains r
    | none => false)

/-- The last member's arrival acted on (R298, R305, R306, R399), or a completion that replay held back. -/
def tryCompletion (s : State) (n : BarNo) : Option State :=
  let b := s.bar n
  if b.en && podDue s n then podComplete s n ((s.red (barId n)).acc.getD 0)
  else if b.en && allCame s n && !b.held && !b.told then
    if barScope n = 3 then
      let root := (podPkgs b).headD 0
      (podSource s (barId n)).map fun r =>
        let s1 := r.2.setBar n { b with told := true }
        if root = s.pkgNo then podArrive s1 n root r.1
        else { s1 with podOut := s1.podOut ++ [podBarrier (barId n) (s.red (barId n)).lt root r.1 false] }
    else some (completePhase s n)
  else none

/-- A core leaves every barrier (R307): membership follows its killed mark; an arrival it signalled is
withdrawn; without it a phase may be complete, and is held as one whose last arrival comes now (R384). -/
def leaveBarriers (s : State) (c : CoreId) : State :=
  let drop (s : State) (e : Nat × Barrier) : State :=
    let b := s.bar e.1
    let mine := visible c && inMasks s e.1 c
    let s1 := s.setBar e.1 { b with came := b.came.filter fun x => !(decide (x = c))
                                    emptied := b.emptied || (mine && (barMembers s e.1).isEmpty) }
    if mine && !(b.came.contains c) then holdIfShed s1 e.1 else s1
  s.bars.foldl drop s

end Sys2Proof.Machine
end

