-- ==== Sys2Proof/Machine/Inbox.lean ====
section
/-! DEFINITION. Messages and the inbox: the header (R316), entries (R198, R199), where a record lies
(R200), acceptance and refusal (R193, R194, R201, R202), local posts (R200), countdown records and
frames at their home port (R159, R25, R26). -/
namespace Sys2Proof.Machine

/-! ### Header fields (R316) -/
def hEntry (m : Msg) : BitVec 8 := m.h0.extractLsb' 0 8
def hLt (m : Msg) : Nat := nfld m.h0.toNat 8 4
def hDr (m : Msg) : Bool := m.h0.getLsbD 14
def hSpray (m : Msg) : Bool := m.h0.getLsbD 15
def hPri (m : Msg) : BitVec 3 := m.h0.extractLsb' 16 3
def hLen (m : Msg) : Nat := nfld m.h0.toNat 24 8
def hDest (m : Msg) : CoreId := m.h0.extractLsb' 32 12
def hSrc (m : Msg) : CoreId := m.h0.extractLsb' 44 12
def hId (m : Msg) : BitVec 32 := m.h1.extractLsb' 0 32
def hArg (m : Msg) : Nat := nfld m.h1.toNat 32 32

/-- A word with bits [lo+n-1:lo] replaced. -/
def setFld (x : Word) (lo n v : Nat) : Word :=
  BitVec.ofNat 64 (x.toNat % 2 ^ lo + v % 2 ^ n * 2 ^ lo + x.toNat / 2 ^ (lo + n) * 2 ^ (lo + n))

/-! ### Entries (R198) -/
def eValid (e : Entry) : Bool :=
  e.d1.getLsbD 20 && decide (nfld e.d1.toNat 23 41 = 0) && decide (e.d0.toNat % 4 = 0)
def ePri (e : Entry) : BitVec 3 := e.d1.extractLsb' 8 3
def entryAt (k : Core) (i : BitVec 8) : Entry := tget ⟨0, 0⟩ k.entries i.toNat

/-! ### Room in the inbox (R200) -/

/-- Bytes a record takes (R200). -/
def recBytes (cap : Bool) (len : Nat) : Nat := (64 + (if cap then 32 else 0) + len + 63) / 64 * 64

/-- The places of the records of a core, running ones included (R16). -/
def recPlaces (k : Core) : List (Nat × Nat) :=
  (k.inbox.map fun r => (r.place, r.size)) ++
    (k.ctxs.toList.filterMap fun x => if x.phase = .ending then none else x.task.map fun r => (r.place, r.size))

/-- The lowest free run of n bytes in [a, top), by 64-byte places. -/
def freePlace (used : List (Nat × Nat)) (n top : Nat) : Nat → Nat → Option Nat
  | 0, _ => none
  | fuel + 1, a =>
    if top < a + n then none
    else if used.all fun u => decide (u.1 + u.2 ≤ a ∨ a + n ≤ u.1) then some a
    else freePlace used n top fuel (a + 64)

/-- Room for a record: outside the reserve; a local post may take room in the reserve (R200). DESIGN CHOICE (log
entry 13): the reserve of sixteen 64-byte records is the last 1,024 bytes of the area; R200 gives it no place.
Unsafe. -/
def findPlace (k : Core) (post : Bool) (n : Nat) : Option Nat :=
  let a := 512 * k.inboxcfg.base.toNat
  let top := a + 512 * k.inboxcfg.size.toNat
  let used := recPlaces k
  match freePlace used n (top - 1024) 1600 a with
  | some x => some x
  | none => if post then freePlace used n top 32 (top - 1024) else none

/-- The bytes of a capture block (R158). -/
def capBytes (c : Capture) : List Byte :=
  leBytes 8 c.dsc[0].toNat ++ leBytes 8 c.dsc[1].toNat ++ leBytes 8 c.dsc[2].toNat ++ leBytes 8 c.cntd.toNat

/-- A record put into the inbox of the core in focus, its capture block and payload in place. -/
def putRecord (s : State) (r : Record) (payload : List Byte) : State :=
  let cb := match r.cap with | none => [] | some c => capBytes c
  let t := s.modCore fun k =>
    freshWords .scratch (wordsOf 8 ((List.range r.size).map fun i => r.place + i))
      { k with inbox := k.inbox ++ [r], mem := wrBytes k.mem (r.place + 64) (cb ++ payload) }
  t.clockUpdate

def bandOf (p : BitVec 3) : BitVec 2 := p.extractLsb' 1 2

/-! ### Local posts (R25, R159, R200, R202) -/

/-- The lookup of an entry by the network interface (R199), held by replay or logged (R349, R350). -/
def lookEntry (s : State) (i : BitVec 8) : Option State := seenAt s (.entries s.coreId) (niSeen s 0 (16 * i.toNat))

/-- Whether a record restarted has had its one release of its band (R351). -/
def pastRetried (p : Option Past) : Bool := match p with | none => false | some q => q.retried

/-- The tag of the references kept with a restarted record (R354). -/
def pastTag (p : Option Past) : Tag := match p with | none => ⟨0, 0, false⟩ | some q => q.tag

/-- A local post made a record, if there is room; discarded with an error record where its entry is invalid, 252 and
253 among them (R331, R358), or its frame too big (R194, R202). none: it waits. DESIGN CHOICE (log entries 67, 68,
82): a post that waited looks its entry up again when it is taken; while INBOXCFG is pending it is placed in the
layout in force; a send failure or a core event whose frame is too big is discarded like the other two. R193 refuses
only arriving messages then, R199 names no lookup for a post that waits, and R194 only countdown and retirement tasks.
Unsafe. -/
def tryPost (s0 : State) (p : Post) : Option State :=
  if p.entryIx = 252 ∨ p.entryIx = 253 then some (s0.report (.error s0.coreId 202 p.entryIx.toNat)) else
  (lookEntry s0 p.entryIx).bind fun s =>
  let e := entryAt s.core p.entryIx
  if !(eValid e) then some (s.report (.error s.coreId 202 p.entryIx.toNat))
  else if s.core.framecfg.size.toNat < entryGranules e then some (s.report (.error s.coreId 194 p.entryIx.toNat))
  else
    let n := recBytes p.cap.isSome p.payload.length
    match findPlace s.core true n with
    | none => none
    | some a =>
      let off := a + 64 + (if p.cap.isSome then 32 else 0)
      (seenAt s (.scratch s.coreId) (niSeen s 3 a)).map fun s => putRecord s
        { cls := p.cls, msgid := p.msgid, src := p.src, pri := p.pri.getD (ePri e), band := bandOf (p.pri.getD (ePri e))
          entryIx := p.entryIx, entry := e, arg := p.arg, place := a, size := n, payOff := off
          payLen := p.payload.length, cap := p.cap, kept := p.kept, quad := false, launch := none
          msg := none, arrived := s.now, since := s.cyc, front := 0, retried := pastRetried p.past, trapped := none
          tag := pastTag p.past } p.payload

/-- A post at the port: taken at once, or behind those that wait (R200). -/
def postTask (s : State) (p : Post) : State :=
  if s.core.posts.isEmpty then
    match tryPost s p with
    | some t => t
    | none => s.modCore fun k => { k with posts := [p] }
  else s.modCore fun k => { k with posts := k.posts ++ [p] }

/-! ### Countdown records and frames at their home port -/

/-- A decrement of n at the countdown record at offset a (R159). -/
def countdown (s : State) (a n : Nat) (user : Option Word) : State :=
  let x := rdNat s.core.mem a 8
  let cnt := nfld x 0 32
  if cnt = 0 then s.report (.countdown s.coreId a user)
  else if n = 0 then s
  else
    let c1 := cnt - n
    let s1 := s.modCore fun k => { k with mem := wrBytes k.mem a (leBytes 4 c1) }
    if c1 = 0 && nbit x 40 then
      postTask s1 { cls := 3, pri := none, entryIx := BitVec.ofNat 8 (nfld x 32 8)
                    arg := BitVec.ofNat 64 (rdNat s.core.mem (a + 8) 8), src := s.coreId, msgid := 0
                    payload := [], cap := none, frees := none }
    else s1

/-- The retirement post of a frame at a core (R25). -/
def retirePost (src : CoreId) (entry : BitVec 8) (arg : Word) : Post :=
  { cls := 4, pri := none, entryIx := entry, arg := arg, src := src, msgid := 0, payload := [], cap := none, frees := none }

/-- RENT of a slot 0 (R21). -/
def sRent (x : Nat) : BitVec 8 := BitVec.ofNat 8 (nfld x 32 8)

/-- A packet put into the mesh. -/
def State.sendPkt (s : State) (p : Packet) : State := { s with net := s.net ++ [p] }

/-- A release at a scratchpad frame whose slot 0 lies at offset a (R25, R26). DESIGN CHOICE (log entry 83): where LV
is set and LIVE is already 0 the frame retires; R25 names no outcome. Unsafe. -/
def releaseAt (s : State) (a : Nat) (src : CoreId) : State :=
  let x := rdNat s.core.mem a 8
  if !(sLv x) then s.report (.frameErr a s.coreId src)
  else
    let live := sLive x - 1
    if live = 0 then
      let arg := BitVec.ofNat 64 (rdNat s.core.mem (a + 8) 8)
      let s1 := s.modCore fun k => if inFrameArea k a then freeFrameAt k a else k
      let s2 := if nbit x 40 then postTask s1 (retirePost s.coreId (sRent x) arg) else s1
      s2.modCore fun k => { k with mem := wrBytes k.mem a (leBytes 8 (sWith x 0 false)) }
    else s.modCore fun k => { k with mem := wrBytes k.mem a (leBytes 8 (sWith x live true)) }

/-- An increment of n at such a frame (R23, R26). DESIGN CHOICE (log entry 115): LIVE has 32 bits, and an increment
that takes it past them wraps; R27 bounds no COUNT. Unsafe. -/
def incrementAt (s : State) (a n : Nat) (src : CoreId) : State :=
  let x := rdNat s.core.mem a 8
  if !(sLv x) then s.report (.frameErr a s.coreId src)
  else s.modCore fun k => { k with mem := wrBytes k.mem a (leBytes 8 (sWith x (sLive x + n) true)) }

/-- The increment for the parent's own d0: it may make the frame live with LIVE = 2 (R23); log entry 115. -/
def ownIncrement (s : State) (a : Nat) : State :=
  let x := rdNat s.core.mem a 8
  let live := if sLv x then sLive x + 1 else 2
  s.modCore fun k => { k with mem := wrBytes k.mem a (leBytes 8 (sWith x live true)) }

/-- A frame-operand store to slot 0, merged with the doubleword x as it stands (R152). -/
def mergeSlot0 (x y : Nat) : Nat :=
  if sLv x then nfld x 0 32 + nfld y 32 9 * 2 ^ 32 + nfld x 41 11 * 2 ^ 41 + nfld y 52 12 * 2 ^ 52
  else if nbit y 41 then 1 + nfld y 32 9 * 2 ^ 32 + 2 ^ 41 + nfld y 52 12 * 2 ^ 52
  else nfld x 0 32 + nfld y 32 9 * 2 ^ 32 + nfld x 41 11 * 2 ^ 41 + nfld y 52 12 * 2 ^ 52

/-- A release of a fabric frame at its channel (R25, R26): the retirement post leaves on the route from the channel to
RCORE. DESIGN CHOICE (log entries 50, 83): an RCORE that names no visible compute core, is killed when the post comes
to it, or has no route left gets no post, and an error record is left; a frame with LV set and LIVE 0 retires. R25
names neither. Unsafe. -/
def releaseFabric (s : State) (pa : Nat) (src : Option (BitVec 9 × CoreId)) : State :=
  match chanRead s ((List.range 16).map fun i => pa + i) with
  | none => s.report (.error s.coreId 367 pa)
  | some bs =>
    let x := leNat (bs.take 8)
    if !(sLv x) then (countReads s [pa]).report (.fabricErr pa src)
    else if sLive x ≤ 1 then
      let rc : CoreId := BitVec.ofNat 12 (nfld x 52 12)
      let s1 :=
        if nbit x 40 then
          if visible rc then
            { s.sendPkt { route := ⟨.chan (BitVec.ofNat 5 (chanOf pa)), .core rc⟩, who := .ni, eid := s.eids, more := false
                          spray := false, tag := ⟨0, 0, true⟩, va := pa
                          body := .op (.retire (sRent x) (BitVec.ofNat 64 (leNat (bs.drop 8)))) } with eids := s.eids + 1 }
          else s.report (.error rc 202 pa)
        else s
      chanWrite s1 (cellsAt pa (leBytes 8 (sWith x 0 false)))
    else chanWrite s (cellsAt pa (leBytes 8 (sWith x (sLive x - 1) true)))

/-- An increment of n at a fabric frame (R23, R26); log entry 115. -/
def incrementFabric (s : State) (pa n : Nat) (src : Option (BitVec 9 × CoreId)) : State :=
  match chanRead s ((List.range 8).map fun i => pa + i) with
  | none => s.report (.error s.coreId 367 pa)
  | some bs =>
    let x := leNat bs
    if !(sLv x) then (countReads s [pa]).report (.fabricErr pa src)
    else chanWrite s (cellsAt pa (leBytes 8 (sWith x (sLive x + n) true)))

/-! ### Acceptance (R199-R202) -/

/-- What becomes of a message that arrives for its entry. -/
inductive Accept where
  | taken (s : State)
  | parked (s : State)
  | refused (s : State) (cause : BitVec 8)
  /-- Held back by replay (R350). -/
  | held
  deriving DecidableEq, Repr

/-- A core event as a local post (R200, R356). -/
def eventPost (m : Msg) : Post :=
  { cls := 6, pri := some (hPri m), entryIx := hEntry m, arg := m.arg, src := hSrc m, msgid := hId m
    payload := m.payload, cap := m.cap, frees := none, kept := m.kept, past := m.past }

/-- A message whose entry is valid becomes a record, or is refused (R193, R194, R200, R201). DESIGN CHOICE (log
entry 66): where several refusals hold, a frame too big comes before a pending layout or a full inbox; R201 gives
no order. Unsafe. -/
def acceptValid (s : State) (grp : Bool) (m : Msg) (p : Packet) (e : Entry) : Accept :=
  if s.core.framecfg.size.toNat < entryGranules e then .refused s 3
  else
    let n := recBytes m.cap.isSome m.payload.length
    match (if s.core.inboxcfg.pend.isSome then none else findPlace s.core false n) with
    | none => .refused s 2
    | some a =>
      let off := a + 64 + (if m.cap.isSome then 32 else 0)
      match seenAt s (.scratch s.coreId) (pktSeen s p 3 grp a) with
      | none => .held
      | some t => .taken (putRecord t
        { cls := m.cls, msgid := hId m, src := hSrc m, pri := hPri m, band := bandOf (hPri m)
          entryIx := hEntry m, entry := e, arg := m.arg, place := a, size := n, payOff := off
          payLen := m.payload.length, cap := m.cap, kept := m.kept, quad := m.quad, launch := m.launch
          msg := some m, arrived := s.now, since := s.cyc, front := 0, retried := pastRetried m.past, trapped := none
          tag := pastTag m.past } m.payload)

/-- A message with LT = 0 at the core in focus (R199-R202): looked up, parked where its entry is invalid
and the slot free, or refused: DESIGN CHOICE (log entry 66), also while INBOXCFG is pending. A core event is a
local post: it waits for room, and is discarded where its entry is invalid (R202). -/
def acceptMsg (s0 : State) (grp : Bool) (m : Msg) (p : Packet) : Accept :=
  if m.cls == 6 then .taken (postTask s0 (eventPost m))
  else
    match lookEntry s0 (hEntry m) with
    | none => .held
    | some s =>
      let e := entryAt s.core (hEntry m)
      if eValid e then acceptValid s grp m p e
      else
        match s.core.park with
        | none => .parked (s.modCore fun k => { k with park := some (m, p, s.now) })
        | some _ => .refused s 1

end Sys2Proof.Machine
end

