-- ==== Sys2Proof/Machine/Sampler.lean ====
section
/-! DEFINITION. Sampler coding (R325, R326): the code of a payload, and a message as its sender codes it. -/
namespace Sys2Proof.Machine

/-- The n low bits of a number, least significant first. -/
def bitsOf : Nat → Nat → List Bool
  | 0, _ => []
  | n + 1, x => (x % 2 == 1) :: bitsOf n (x / 2)

def natOf : List Bool → Nat
  | [] => 0
  | b :: bs => b2n b + 2 * natOf bs

/-- h(w): the xor of the 6-bit fields of a doubleword. -/
def sampHash (w : Nat) : Nat := (List.range 11).foldl (fun a i => a ^^^ nfld w (6 * i) 6) 0

def entry64 (t : Table Word) (i : Nat) : Nat := (tget 0 t i).toNat

/-- One doubleword coded, and the sampler after it. -/
def codeWord (t : Table Word) (w : Nat) : List Bool × Table Word :=
  let i := sampHash w
  let e := entry64 t i
  let d := (w + 2 ^ 64 - e) % 2 ^ 64
  let t1 := tput 0 t i (BitVec.ofNat 64 w)
  if w = 0 then (bitsOf 2 2, t)
  else if e = w then (bitsOf 2 1 ++ bitsOf 6 i, t)
  else if d < 2 ^ 15 ∨ 2 ^ 64 - 2 ^ 15 ≤ d then (bitsOf 2 3 ++ bitsOf 6 i ++ bitsOf 16 d, t1)
  else (bitsOf 2 0 ++ bitsOf 64 w, t1)

def codeWords : List Nat → Table Word → List Bool × Table Word
  | [], t => ([], t)
  | w :: ws, t =>
    let a := codeWord t w
    let b := codeWords ws a.2
    (a.1 ++ b.1, b.2)

/-- n doublewords decoded from a stream; the decoder takes any index. -/
def decodeWords : Nat → List Bool → Table Word → List Nat × Table Word
  | 0, _, t => ([], t)
  | n + 1, bs, t =>
    let tag := natOf (bs.take 2)
    let r := bs.drop 2
    let i := natOf (r.take 6)
    let put (w : Nat) (k : Nat) : List Nat × Table Word :=
      let q := decodeWords n (r.drop k) (tput 0 t (sampHash w) (BitVec.ofNat 64 w))
      (w :: q.1, q.2)
    if tag = 0 then put (natOf (r.take 64)) 64
    else if tag = 1 then let q := decodeWords n (r.drop 6) t; (entry64 t i :: q.1, q.2)
    else if tag = 2 then let q := decodeWords n r t; (0 :: q.1, q.2)
    else put ((entry64 t i + wrapNat 64 (sgn 16 (natOf ((r.drop 6).take 16)))) % 2 ^ 64) 22

/-- The doublewords of a payload. -/
def payWords (p : List Byte) : List Nat := (chunksOf 8 200 p).map leNat

/-- A sampler found and made the most recent, one with a parity error as new; or a new one in place of the least
recent (R325). -/
def takeSampler (l : List Sampler) (c : CoreId) : Sampler × List Sampler :=
  match l.find? fun x => x.peer == c with
  | some x => (if x.bad then ⟨c, [], true, false⟩ else x, l.filter fun y => !(y.peer == c))
  | none => (⟨c, [], true, false⟩, l.take 7)

/-- A message coded as it leaves, where that is shorter (R326). DESIGN CHOICE (log entry 123): its header keeps LEN as
it was before coding, as the table of R316 has it; the worked example after R326 (19_die_network.md) sends the coded
length. Unsafe. -/
def codeMsg (k : Core) (dst : CoreId) (m : Msg) : Msg × Core :=
  if hSpray m || decide (hLen m < 2) then (m, k)
  else
    let sp := takeSampler k.txSamp dst
    let c := codeWords (payWords m.payload) (if sp.1.reset then [] else sp.1.entries)
    let bits := bitsOf 6 (hLen m) ++ c.1
    if (bits.length + 255) / 256 < hLen m then
      let h := setFld m.h0 12 3 (1 + b2n sp.1.reset * 4)
      ({ m with h0 := h, coded := some bits }, { k with txSamp := ⟨dst, c.2, false, false⟩ :: sp.2 })
    else (m, k)

/-- A message as it is before it is coded (R325, R326). -/
def rawMsg (m : Msg) : Msg := { m with coded := none, h0 := setFld m.h0 12 3 0 }

/-- A message as core src sends it to another: coded where that is shorter, with its sampler for that core then
changed (R326). -/
def codeFrom (s : State) (src dst : CoreId) (m : Msg) : Msg × State :=
  let r := codeMsg (s.coreAt src) dst m
  if r.1.coded.isSome then (r.1, s.setCore src r.2) else (m, s)

end Sys2Proof.Machine
end

