-- ==== Sys2Proof/Machine/Kill.lean ====
section
/-! DEFINITION. Launches in flight (R333, R341), core events (R356, R387) and the loss of a core
(R33, R352, R354, R355). -/
namespace Sys2Proof.Machine

/-! ### In flight (R333) -/

/-- The supervisor core that serves a die (R351). -/
def supOf (d : BitVec 2) : CoreId :=
  ((List.range 1024).map fun i => (BitVec.ofNat 12 (1024 * d.toNat + i) : CoreId)).find? isSupervisor |>.getD 0

/-- The core whose firmware acts for the supervisor of a die: without it, the package supervisor (R351); none without
both. -/
def supFor (s : State) (d : BitVec 2) : Option CoreId :=
  if !(s.coreAt (supOf d)).killed then some (supOf d)
  else if !(s.coreAt (supOf 0)).killed then some (supOf 0)
  else none

/-- The next message id: 0 is skipped (R156). -/
def nextId (x : BitVec 32) : BitVec 32 := if x + 1 = 0 then 1 else x + 1

/-- The next id of a core's messages taken (R156, R316). -/
def takeId (s : State) (c : CoreId) : BitVec 32 × State :=
  let id := nextId (s.coreAt c).msgId
  (id, s.modCoreAt c fun k => { k with msgId := id })

/-! ### Reports to the hosts (R351, R397) -/

/-- A REPORT to every host that has a credential. -/
def hostReport (s : State) (kind : Nat) (data : List Byte) : State :=
  let one (c : Credential) : Response :=
    { endpoint := c.endpoint, hdr := BitVec.ofNat 128 (9 + data.length % 2 ^ 11 * 2 ^ 16 + kind * 2 ^ 64), data := data }
  { s with responses := s.responses ++ (s.creds.filterMap Prod.snd).map one }

def causeNo : Option Cause → Nat
  | none => 0
  | some c => c.ctorIdx + 1

/-- A record discarded or lost: reported to the supervisor, and to the hosts (R351, R352). -/
def reportDiscard (s : State) (c : CoreId) (cause : Option Cause) (id : BitVec 32) (com : Bool) : State :=
  hostReport (s.report (.discarded c cause id com)) 1 (Config.reportData c (causeNo cause) id com)

/-- Launch tasks in flight on a core. -/
def inFlight (s : State) (c : CoreId) : Nat :=
  ((s.die (dieOf c)).flights.map fun f => f.cores.count c).sum

/-- Cores of the package with a launch task in flight that satisfies p, each once. -/
def flightCores (s : State) (p : Flight → Bool) : List CoreId :=
  (s.dies.toList.flatMap fun d => (d.flights.filter p).flatMap Flight.cores).eraseDups

def launchCount (l : Launch) : Nat := nfld (l.dw[1]).toNat 0 32
def launchClass (l : Launch) : BitVec 3 := (l.dw[0]).extractLsb' 11 3

/-- The region of a core (R333). -/
def regionOf (c : CoreId) : Nat := nfld c.toNat 5 5 / 8 * 4 + nfld c.toNat 0 5 / 8

/-- A core runs slowed while a class shed for a millisecond has a launch task in flight on it (R385); its
clock follows. -/
def slowUpdate (s : State) (c : CoreId) : State :=
  let slow := (s.die (dieOf c)).flights.any fun f =>
    f.cores.contains c && s.power.slowing.getLsbD (launchClass f.launch).toNat
  if (s.coreAt c).clsSlow = slow then s
  else s.onCore c fun t => (t.modCore fun k => { k with clsSlow := slow }).clockUpdate

/-- A core is open to a new launch task (R333). -/
def isOpen (s : State) (c : CoreId) : Bool :=
  let d := s.die (dieOf c)
  visible c && !(s.coreAt c).killed && decide (inFlight s c < 4) && !(d.withheld.getLsbD (regionOf c)) &&
    (match d.reserve with | none => true | some (_, _, cs) => !(cs.contains c))

/-- A request as core src sends it to another: a message coded (R326). -/
def codeOp (s : State) (src dst : CoreId) : Op → Op × State
  | .msg m => let r := codeFrom s src dst m; (.msg r.1, r.2)
  | o => (o, s)

/-- A request of a supervisor or of the pricking to a core: it is no context's effect. -/
def sendFrom (s : State) (src : CoreId) (who : Origin) (dst : CoreId) (op : Op) : State :=
  let r := codeOp s src dst op
  { r.2.sendPkt { route := ⟨.core src, .core dst⟩, who := who, eid := s.eids, more := false
                  spray := false, tag := ⟨0, 0, true⟩, va := 0, body := .op r.1 } with eids := s.eids + 1 }

/-- The completion decrement of a launch (R341). -/
def launchDone (s : State) (d : BitVec 2) (f : Flight) : State :=
  let a := (f.launch.dw[6]).toNat
  if a = 0 then s
  else
    let dst : CoreId := if a / 2 ^ 56 = 0xFF then f.launch.src.getD 0 else BitVec.ofNat 12 (nfld a 24 12)
    sendFrom s (supOf d) .pricking dst (.cdec (nfld a 0 17) 1 none)

/-- Whether a launch has nothing left to place or to send, and no gang of it waits for its exit barrier (R341). -/
def flightOver (y : Die) (f : Flight) : Bool :=
  f.cores.isEmpty && !(y.gangs.any fun g => g.2.2 == f.launch.id) && !(y.again.contains f.launch.id) && !(y.starts.any fun t => t.flight == f.launch.id) &&
    !(y.queues.any fun q => q.2.recs.any fun l => l.id == f.launch.id)

/-- The launches of a die that are over are done (R341). -/
def closeFlights (s : State) (d : BitVec 2) : State :=
  ((s.die d).flights.filter (flightOver (s.die d))).foldl (fun t f => launchDone t d f)
    (s.modDie d fun y => { y with flights := y.flights.filter fun f => !(flightOver y f) })

/-- A launch task has ended on a core (R333): when it was the last, the launch is done (R341). -/
def endTask (s : State) (d : BitVec 2) (id : Nat) (c : CoreId) : State :=
  let s0 := s.modDie d fun y => { y with flights := y.flights.map fun f =>
    if f.launch.id = id then { f with ended := f.ended + 1, cores := f.cores.erase c } else f }
  closeFlights (slowUpdate s0 c) d

/-- The reservation of a die ends with its record no longer the head of its queue (R337). -/
def keepReserve (y : Die) : Die :=
  { y with reserve := y.reserve.filter fun r =>
      ((tget Queue.reset y.queues r.1.toNat).recs.head?.map Launch.id) == some r.2.1 }

/-- The record of a launch of which one task more is to be placed stands at the head of its queue again; where
the queue holds 16 records (R329) it waits until one leaves. -/
def putAgain (y : Die) (id : Nat) : Die :=
  match y.flights.find? fun f => f.launch.id == id with
  | none => y
  | some f =>
    let q := tget Queue.reset y.queues f.queue.toNat
    let put (x : Queue) : Die := keepReserve { y with queues := tput Queue.reset y.queues f.queue.toNat x }
    if q.recs.any fun l => l.id == id then
      put { q with recs := q.recs.map fun l => if l.id = id then { l with placed := l.placed - 1, tasks := l.tasks - 1 } else l }
    else if 16 ≤ q.recs.length then { y with again := y.again ++ [id] }
    else
      let n := launchCount f.launch - 1
      put { q with recs := { f.launch with placed := n, tasks := n } :: q.recs
                   level := BitVec.ofNat 3 (nfld (f.launch.dw[0]).toNat 8 3) }

/-- The tasks that wait for room in their queues, tried again. -/
def retryAgain (y : Die) : Die := y.again.foldl putAgain { y with again := [] }

/-- A launch task is placed again (R339) in a later selection. -/
def placeAgain (s : State) (d : BitVec 2) (id : Nat) (c : CoreId) : State :=
  match (s.die d).flights.find? fun f => f.launch.id == id with
  | none => s
  | some _ =>
    let t := s.modDie d fun y => putAgain
      { y with flights := y.flights.map fun g => if g.launch.id = id then { g with cores := g.cores.erase c } else g } id
    slowUpdate t c

/-! ### Core events (R356) -/

/-- A message for entry 255 with CLASS 6 and a 32-byte block, with an id of who serves the core's die and sends it
(R316, R351). -/
def coreEvent (s0 : State) (dst : CoreId) (block : Nat) : State :=
  match supFor s0 (dieOf dst) with
  | none => s0
  | some src =>
  sendFrom (takeId s0 src).2 src .ni dst (.msg
    { h0 := BitVec.ofNat 64 (255 + 2 ^ 24 + dst.toNat * 2 ^ 32 + src.toNat * 2 ^ 44), h1 := (takeId s0 src).1.setWidth 64, cap := none
      payload := leBytes 32 block, coded := none, cls := 6, priv := true, quad := false, launch := none
      kept := none, arg := 0, tries := 1 })

/-- The block of a power event (R387). -/
def powerBlock (s : State) (kind : Nat) (cls : BitVec 3) (floor : Nat) : Nat :=
  kind + cls.toNat * 2 ^ 16 + s.power.target.toNat * 2 ^ 32 + s.power.capForce.toNat * 2 ^ 64 +
    s.topoev.toNat * 2 ^ 96 + floor * 2 ^ 128

/-- A power event to every core with an in-flight launch task of a class (R384, R386, R381). -/
def powerEvents (s : State) (kind : Nat) (cls : BitVec 3) (floor : Nat) : State :=
  (flightCores s fun f => launchClass f.launch == cls).foldl
    (fun t c => coreEvent t c (powerBlock s kind cls floor)) s

/-! ### Losing a core (R352) -/

/-- The open core a record of a killed core goes to (R354). -/
def restartCore (s : State) (d : BitVec 2) : Option CoreId :=
  let cs := ((List.range 1024).map fun i => (BitVec.ofNat 12 (1024 * d.toNat + i) : CoreId)).filter (isOpen s)
  cs.foldl (fun b c =>
    match b with
    | none => some c
    | some x =>
      if inFlight s c < inFlight s x ∨ (inFlight s c = inFlight s x ∧ s.logicalOf c < s.logicalOf x) then some c
      else b) none

/-- A record of a killed core as the supervisor sends it on (R354), for the first time (R201), its header as before it
was coded (R326). DESIGN CHOICE (log entry 113): a send failure whose payload, with its block, is 33 units long is
sent with LEN 33, which R316 does not give a message. Unsafe. -/
def restartMsg (k : Core) (dst : CoreId) (r : Record) (cause : Option Cause) (com : Bool) : Msg :=
  let pay := rdBytes k.mem r.payOff r.payLen
  let past : Past := ⟨r.tag, cause, com, r.retried⟩
  match r.msg with
  | some m => { m with h0 := setFld (rawMsg m).h0 32 12 dst.toNat, payload := pay, kept := r.kept, coded := none, tries := 1, past := some past }
  | none =>
    { h0 := BitVec.ofNat 64 (r.entryIx.toNat + r.pri.toNat * 2 ^ 16 + pay.length / 32 * 2 ^ 24 + dst.toNat * 2 ^ 32 + r.src.toNat * 2 ^ 44)
      h1 := r.msgid.setWidth 64, cap := r.cap, payload := pay, coded := none, cls := r.cls, priv := true
      quad := false, launch := none, kept := r.kept, arg := r.arg, tries := 1, past := some past }

/-- Whether a record of a core cannot be read: one of its words has an uncorrectable error (R352). -/
def recordLost (k : Core) (r : Record) : Bool :=
  k.flips.any fun f => decide (f.arr = .scratch) && f.bad && decide (r.place / 8 ≤ f.word ∧ f.word < (r.place + r.size) / 8)

/-- The launch task of a record is over without a further run: discarded, lost, or a gang's (R333, R354). -/
def endLaunch (s : State) (c : CoreId) (r : Record) : State :=
  match r.launch with
  | none => s
  | some l => endTask s l.die l.id c

/-- The records of a core, each with the cause of the abortive trap that returned it, if one did, and its committed
flag (R29, R351): those of its inbox, then those that run. -/
def coreRecords (k : Core) : List (Record × Option Cause × Bool) :=
  (k.inbox.map fun r => match r.trapped with | some (e, b) => (r, some e, b) | none => (r, none, false)) ++
    (k.ctxs.toList.filterMap fun x => if x.phase = .ending then none else x.task.map fun r => (r, none, x.committed))

/-- One record of a killed core dealt with (R352, R354). DESIGN CHOICE (log entry 111): where no core is open, or no
supervisor is left to send it (R351), it is lost and reported. Unsafe. -/
def restartRecord (c : CoreId) (k : Core) (s : State) (q : Record × Option Cause × Bool) : State :=
  let r := q.1
  if recordLost k r then endLaunch (reportDiscard s c q.2.1 r.msgid q.2.2) c r
  else
    match r.launch with
    | some l => if l.exitB.isSome then endLaunch s c r else placeAgain s l.die l.id c
    | none =>
      match restartCore s (dieOf c), supFor s (dieOf c) with
      | some dst, some sup => sendFrom s sup .ni dst (.msg (restartMsg k dst r q.2.1 q.2.2))
      | _, _ => reportDiscard s c q.2.1 r.msgid q.2.2

/-- The logical map and CORECOUNT after a loss, and the topology events (R355, R356). -/
def loseNumber (s : State) (c : CoreId) : State :=
  let old := s.logicalOf c
  let last : BitVec 12 := BitVec.ofNat 12 (s.count.toNat - 1)
  let holder := ((List.range 3072).map fun i => (BitVec.ofNat 12 i : CoreId)).find? fun x =>
    visible x && !(s.coreAt x).killed && s.logicalOf x == last && x != c
  let moved : Nat := match holder with | none => 0xFFF | some m => m.toNat
  let s1 := match holder with
    | none => s
    | some m => { s with logmap := tput none s.logmap m.toNat (some old) }
  let s2 := { s1 with count := s.count - 1, topoev := s.topoev + 1 }
  let block := 1 + c.toNat * 2 ^ 16 + old.toNat * 2 ^ 32 + moved * 2 ^ 48 +
    s2.count.toNat * 2 ^ 64 + s2.topoev.toNat * 2 ^ 96
  (flightCores s2 fun _ => true).foldl (fun t x => coreEvent t x block) s2

/-- What is left of a core that has been killed: it issues nothing, its engines and queues stop, its
unsent effects are lost (R33, R290, R352). The endings it had to report are reported (R333). -/
def deadCore (now : Nat) (k : Core) : Core :=
  let stop (x : Ctx) : Ctx := { x with phase := .free, task := none, hoop := [], chunks := [], pending := none
                                       frefWait := none, stall := none, asleep := false, replaying := false, lvDue := false }
  { k with
    ctxs := k.ctxs.map stop, saves := Vector.replicate 4 none, killed := true, cycles := coreCycles now k, since := now, inbox := []
    park := none, posts := [], q := Vector.replicate 4 [], mxq := Vector.replicate 4 [], mxrun := none
    cpq := Vector.replicate 4 [], cprun := none, gather := [], resend := [], frames := [], doomed := false, frameWait := false }

/-- Whether the engines of a core run: it lives, and its clock is not paused (R33, R375). -/
def enginesRun (k : Core) : Bool := !k.killed && !(decide (k.clock = .paused))

/-- The gang tasks whose exit arrival has been signalled for a core without a run to their EXIT (R299, R339): with
the core they have ended (R333, R341). -/
def endSignalled (s : State) (c : CoreId) (k : Core) : State :=
  let d := dieOf c
  let parked (id : Nat) : Bool := k.ctxs.any fun x =>
    decide (x.phase = .parked) && ((x.task.bind Record.launch).map LaunchRef.id) == some id
  ((s.die d).gangs.filter fun g =>
    g.2.1.contains c && (s.bar (barNo ⟨.die, d.setWidth 10, g.1⟩)).came.contains c && !(parked g.2.2)).foldl
      (fun t g => endTask t d g.2.2 c) s

/-- THE LOSS OF THE CORE IN FOCUS (R352). A task that has done its EXIT has ended (R333, R341), whatever of its
effects is lost. A supervisor core runs no task; what a die's supervisor is to send again its package's sends, what
the pricking is to send again stays the pricking's (R339), and without the package supervisor dispatch stops (R351).
-/
def killCore (s : State) : State :=
  let c := s.coreId
  let k := s.core
  if k.killed then s
  else
    let gone := k.ctxs.toList.filterMap fun x => if x.phase = .ending then x.task else none
    let s1 := s.modCore (deadCore s.now)
    let s2 := match k.park with
      | none => s1
      | some (m, p, _) => s1.sendPkt { p with route := ⟨p.route.dst, p.route.src⟩, body := .err 1 (some m) none }
    let s3 := s2.report (.error c 352 0)
    if visible c then
      let s4 := endSignalled (gone.foldl (fun t r => endLaunch t c r) ((coreRecords k).foldl (restartRecord c k) s3)) c k
      loseNumber (leaveBarriers s4 c) c
    else
      let pricks (x : Resend) : Bool := decide (x.who = .pricking)
      let s4 := s3.modDie (dieOf c) fun y => { y with resend := y.resend ++ k.resend.filter pricks }
      if c = supOf 0 then { hostReport (s4.report .fatal) 2 (Config.fatalData c) with stopped := true }
      else if (s4.coreAt (supOf 0)).killed then s4
      else s4.modCoreAt (supOf 0) fun x => { x with resend := x.resend ++ k.resend.filter fun y => !(pricks y) }

/-- An engine's access consumes words of n bytes of a memory: f goes on, or the core is lost (R33, R191, R228). -/
def taking (s : State) (m : Array) (n : Nat) (as : List Nat) (f : State → State) : State :=
  match s.consume m (wordsOf n as) with
  | (t, true) => killCore t
  | (t, false) => f t

/-- An instruction that consumes poison or an uncorrectable error kills its core (R33, R367). -/
def killOut (s : State) : Out := .next (killCore s)

end Sys2Proof.Machine
end

