-- ==== Sys2Proof/Machine/Flags.lean ====
section
/-! DEFINITION. Significance events (R88-R91): which element of a checked instruction raises one, what
SIGOP records, what the event does. This is the only arithmetic status there is (R93). -/
namespace Sys2Proof.Machine

/-- An element a checked instruction has written: its number, the count of its result and p of the
result's format, the sources as they decide m, and the counts SIGOP records. -/
structure SigElem where
  lane : Nat
  rc   : Count
  rp   : Nat
  srcs : List FVal
  ops  : List Count
  deriving DecidableEq, Repr

/-- m: the highest count among the sources as read (R90). -/
def sigM (srcs : List FVal) : Nat := srcs.foldl (fun a x => max a (readCount x.p x.c)) 0

/-- The trap condition of R90. -/
def sigMeets (thr : BitVec 6) (e : SigElem) : Bool :=
  decide (readCount e.rp e.rc < thr.toNat) && decide (readCount e.rp e.rc < sigM e.srcs)

/-- SIGOP (R91). -/
def sigOpBits (e : SigElem) (vec : Bool) : Word :=
  let c (i : Nat) : Nat := (e.ops.getD i 0).toNat
  BitVec.ofNat 64 (e.rc.toNat + c 0 * 2 ^ 8 + c 1 * 2 ^ 16 + c 2 * 2 ^ 24 + e.ops.length * 2 ^ 32 +
    (if vec then e.lane * 2 ^ 40 + 2 ^ 46 else 0))

def setSticky (x : Ctx) : Ctx := { x with sigmode := { x.sigmode with sticky := true } }

/-- What an event does under MODE and INH (R88, R90, R32). The results are written. DESIGN CHOICE (log entry 107): an
event that aborts writes SIGPC with SIGOP; R91 names SIGOP alone, R32 SIGPC for a trap. Unsafe. -/
def sigEvent (s : State) (e : SigElem) (vec : Bool) : Out :=
  let x := s.ctx
  let t := s.modCtx setSticky
  let op := sigOpBits e vec
  if x.sigmode.mode = 3 then
    .next (abortCtx (t.modCtx fun y => { y with sigop := op, sigpc := y.pc }) s.core.cur .sigAbort)
  else if x.sigmode.mode = 2 ∧ x.sigmode.inh = false then
    if x.sigvec = 0 then
      .next (abortCtx (t.modCtx fun y => { y with sigop := op, sigpc := y.pc }) s.core.cur .sigAbort)
    else .next (sigTrap t op)
  else done t

/-- The end of a checked instruction whose results stand in s (R90). -/
def checked (s : State) (es : List SigElem) (vec : Bool) : Out :=
  let x := s.ctx
  if x.sigmode.mode = 0 then done s
  else
    match es.find? (sigMeets x.sigthr) with
    | none => done s
    | some e => sigEvent s e vec

end Sys2Proof.Machine
end

