-- ==== Sys2Proof/Machine/Operands.lean ====
section
/-! DEFINITION. Operand forms: immediates, rounding codes (R75), masks and lanes (R122-R125), address
classes (R105, R195), reach (R296), and the two shared memory accesses of scalar forms: a load and a
store at an address, with forwarding (R105-R108). -/
namespace Sys2Proof.Machine

def sext16 (i : BitVec 16) : Word := i.signExtend 64
def zext16 (i : BitVec 16) : Word := i.setWidth 64

/-- A branch target (R36). -/
def branchTo (pc : Word) {n : Nat} (x : BitVec n) : Word := pc + 4 * x.signExtend 64

/-- The rounding code in force (R75): dynamic is FRM.RM; SR where it is not allowed is RNE. -/
def rndOf (x : Ctx) (r : Rnd) (srOk : Bool) : Rnd :=
  match r with
  | .dyn =>
    match x.frm.toNat with
    | 0 => .rne
    | 1 => .rna
    | 2 => .rtz
    | 3 => .rdn
    | 4 => .rup
    | 5 => if srOk then .sr else .rne
    | _ => .rne
  | y => y

/-- A scalar floating-point operand (R92): bits [31:0] for f32. -/
def fopnd (x : Ctx) (p : Prec) (r : Reg) : FVal :=
  let f := precFmt p
  fval f ((gval x r).toNat % 2 ^ fmtBits f) (gcount x r)

/-! ### Lanes and masks -/

/-- Whether lane i is active (R123). -/
def active (x : Ctx) (m : BitVec 2) (i : Nat) : Bool :=
  m == 0 || nbit (vval x (m.setWidth 5)).toNat i

/-- The count of lane i of width w: its lowest chunk's (R85, R124). -/
def laneCount (cs : Vector Count 32) (w i : Nat) : Count := cs.toArray.getD (w * i / 16) 63

/-- 32 chunk counts from a list. -/
def countsOf (l : List Count) : Vector Count 32 :=
  foldIdx (fun i c v => v.setIfInBounds i c) 0 l (Vector.replicate 32 63)

/-- What an instruction does to one lane: writes it, or leaves it inactive. -/
abbrev LaneOut := Option (Nat × Count)

/-- The lane results of width w written to a v register (R85, R123, R124): an inactive lane is kept
(u) or written all ones, with count 0 in a floating-point group and 63 otherwise. -/
def writeLanes (x : Ctx) (d : Reg) (w : Nat) (u fp : Bool) (res : List LaneOut) : Ctx :=
  let old := vval x d
  let oc := vcounts x d
  let one (i : Nat) (r : LaneOut) : Nat × Count :=
    match r with
    | some p => p
    | none => if u then (laneNat old w i, laneCount oc w i) else (2 ^ w - 1, if fp then 0 else 63)
  let ls := foldIdx (fun i r acc => one i r :: acc) 0 res [] |>.reverse
  let cs : List Count :=
    if w = 8 then
      (List.range 32).map fun j =>
        let a := (ls.getD (2 * j) (0, 63)).2
        let b := (ls.getD (2 * j + 1) (0, 63)).2
        if a ≤ b then a else b
    else if u then
      -- an undisturbed lane keeps the count of every chunk
      (List.range 32).map fun j =>
        match res.getD (j * 16 / w) none with
        | some p => p.2
        | none => laneCount oc 16 j
    else ls.flatMap fun p => List.replicate (w / 16) p.2
  Machine.setVC x d (vecOf w (ls.map Prod.fst)) (countsOf cs)

/-- A lane source b: lane i of a v register, or a g register broadcast (R125). -/
def srcB (x : Ctx) (s : Bool) (b : Reg) (w i : Nat) : Nat × Count :=
  if s then ((gval x b).toNat % 2 ^ w, gcount x b) else (laneNat (vval x b) w i, laneCount (vcounts x b) w i)

/-- Lane i of a v register with its count. -/
def srcA (x : Ctx) (a : Reg) (w i : Nat) : Nat × Count :=
  (laneNat (vval x a) w i, laneCount (vcounts x a) w i)

/-! ### Address classes (R105, R195) -/

inductive Cls where
  | own (win off : Nat)
  | ownI (off : Nat)
  | remote (c : CoreId) (off : Nat)
  | remI (c : CoreId) (off : Nat)
  | remE (c : CoreId) (off : Nat)
  | fabric (va : Nat)
  | none
  deriving DecidableEq, Repr

def spTop : Nat := 0x18000

def classify (a : Word) : Cls :=
  let n := a.toNat
  let hi := n / 2 ^ 56
  if hi = 0 then .fabric n
  else if hi = 0xFF then
    let o := n - apLocal
    if o < 8 * 0x40000 then
      if o % 0x40000 < spTop then .own (o / 0x40000) (o % 0x40000) else .none
    else if 0x1000000 ≤ o ∧ o < 0x1010000 then .ownI (o - 0x1000000)
    else .none
  else if hi = 0xFE ∧ nfld n 36 20 = 0 then
    let c : CoreId := BitVec.ofNat 12 (nfld n 24 12)
    if !(visible c) then .none
    else
      match nfld n 21 3 with
      | 0 => if nfld n 0 21 < spTop then .remote c (nfld n 0 21) else .none
      | 4 => if nfld n 0 21 < 0x10000 then .remI c (nfld n 0 21) else .none
      | 6 => if nfld n 0 21 < 0x1000 then .remE c (nfld n 0 21) else .none
      | _ => .none
  else .none

/-- The reach of a context (R296). -/
def inReach (me : CoreId) (x : Ctx) (c : CoreId) : Bool :=
  c == me || ctxPriv x ||
  (match x.task with
   | none => false
   | some t =>
     (t.quad && sameQuad me c) ||
     (match t.launch with
      | none => false
      | some l => l.remote && (sameQuad me c || l.gang.contains c)))

/-- Whether the reach includes the core's own quad, as its spawned tasks inherit it (R296). -/
def quadReach (x : Ctx) : Bool :=
  match x.task with
  | none => false
  | some t => t.quad || (match t.launch with | none => false | some l => l.remote) || ctxPriv x

/-! ### Loads -/

/-- The bytes of a load written where they belong. -/
def putDest (x : Ctx) (d : Dest) (bs : List Byte) : Ctx :=
  match d with
  | .g r signed =>
    let n := leNat bs
    let w := 8 * bs.length
    Machine.setGC x r (BitVec.ofNat 64 (if signed then wrapNat 64 (sgn w n) else n)) 63
  | .amo r => Machine.setGC x r (BitVec.ofNat 64 (leNat bs)) 63
  | .code _ => x
  | .gcounts r =>
    foldIdx (fun i b y =>
      let ri : Reg := r + BitVec.ofNat 5 i
      Machine.setGC y ri (gval y ri) (b.setWidth 6)) 0 bs x
  | .vcounts r => Machine.setVC x r (vval x r) (countsOf (bs.map fun b => b.setWidth 6))
  | .lanes r w u act =>
    let k := w / 8
    let res := (act.foldl (fun (p : List LaneOut × List Byte) on =>
      if on then (p.1 ++ [some (leNat (p.2.take k), 63)], p.2.drop k) else (p.1 ++ [none], p.2)) ([], bs)).1
    writeLanes x r w u false res

/-- A byte of an effect a load forwards from (R107, R284). -/
def effByte (a : Nat) (e : Effect) : Option Byte :=
  match e.op with
  | .store cs => (cs.reverse.find? fun c => c.1 == a).map Prod.snd
  | .slot0 b x => if b ≤ a ∧ a < b + 8 then some (BitVec.ofNat 8 (x.toNat / 2 ^ (8 * (a - b)))) else none
  | _ => none

def firstSome {α β : Type} (f : α → Option β) : List α → Option β
  | [] => none
  | x :: xs => match f x with | some y => some y | none => firstSome f xs

/-- The youngest store to a byte in a context's hoop, committed or not (R107, R284). -/
def hoopFwd (x : Ctx) (dst : Port) (pkg : Option (BitVec 9)) (a : Nat) : Option Byte :=
  let es := (x.chunks.flatMap Chunk.effs ++ x.hoop).reverse
  firstSome (fun e => if e.dst = dst ∧ e.pkg = pkg then effByte a e else none) es

/-- A load whose bytes are at hand is done (R107). -/
def loadDone (s : State) (d : Dest) (bs : List Byte) : Out := done (s.modCtx fun x => putDest x d bs)

/-- An access consumes words of n bytes of a memory of the core in focus: k goes on, or the core is lost to an
uncorrectable error (R33, R191). -/
def consuming (s : State) (m : Array) (n : Nat) (as : List Nat) (k : State → Out) : Out :=
  match s.consume m (wordsOf n as) with
  | (t, true) => killOut t
  | (t, false) => k t

/-- A store of cells to such a memory, which reads the words that it writes in part (R191). -/
def rewriting (s : State) (m : Array) (n : Nat) (cs : List Host.Cell) (k : State → Out) : Out :=
  match s.rewrite m n cs with
  | (t, true) => killOut t
  | (t, false) => k t

/-- A load from this core's scratchpad (R107, R190). -/
def loadLocal (s : State) (d : Dest) (as : List Nat) : Out :=
  atOwnPort s (.scratch s.coreId) 0 (as.headD 0) fun t =>
    consuming t .scratch 8 as fun u => loadDone u d (as.map fun a => rd8 u.core.mem a)

/-- The places of the bytes still missing. -/
def gaps (fwd : List (Option Byte)) : List Nat :=
  (foldIdx (fun i b acc => match b with | none => i :: acc | some _ => acc) 0 fwd []).reverse

/-- A load from another core's scratchpad, or by the own interface: bytes of the own hoop, the others
asked of the remote port (R107, R344). -/
def loadRemote (s : State) (c : CoreId) (d : Dest) (as : List Nat) : Out :=
  let fwd := as.map fun a => hoopFwd s.ctx (.core c) none a
  if fwd.all Option.isSome then loadDone s d (fwd.map fun b => b.getD 0)
  else
    let need := (as.zip fwd).filterMap fun p => if p.2.isSome then none else some p.1
    let t := s.sendPkt { route := ⟨.core s.coreId, .core c⟩, who := .ctx s.core.cur, eid := s.eids
                         more := false, spray := false, tag := ctxTag s.ctx, va := need.headD 0, body := .op (.load need) }
    stallOut ({ t with eids := s.eids + 1 }.modCtx fun x => { x with pending := some ⟨s.eids, fwd, gaps fwd, [], d⟩ })

/-- A request of the current context to another package (R395): the context awaits its answer. Without
a domain it is answered at once with LINK_DOWN (R353, R109). -/
def askAway (s : State) (pkg : BitVec 9) (va : Nat) (op : Op) (p : Pending) : Out :=
  if s.podEn then
    let t := { s with eids := s.eids + 1, podOut := s.podOut ++
      [podAccess s s.core.cur s.eids va (ctxTag s.ctx) pkg op false] }
    stallOut (t.modCtx fun x => { x with pending := some { p with eid := s.eids } })
  else .next (abortWith s s.core.cur .access true [])

/-- Bytes missing in fwd asked of the packages that hold them, one LOAD after the other (R397); asks lists
for each package the place and the virtual address of each byte. -/
def loadAway (s : State) (d : Dest) (fwd : List (Option Byte)) (asks : List (BitVec 9 × List (Nat × Nat))) : Out :=
  match asks.flatMap fun p => (podCut Prod.snd p.2).map fun ps => (p.1, ps) with
  | [] => loadDone s d (fwd.map fun b => b.getD 0)
  | (pkg, ps) :: more =>
    askAway s pkg ((ps.map Prod.snd).headD 0) (.load (ps.map Prod.snd)) ⟨0, fwd, ps.map Prod.fst, more, d⟩

/-- How an access that translation refuses ends (R106, R373). -/
def xlateTrap (s : State) (va : Nat) : Xlate → Out
  | .pageFault => faultOut s (.pageFault (BitVec.ofNat 64 va))
  | .access c => .next (abortWith s s.core.cur .access c [])
  | .stale => trapOut s .staleGen
  | .ok _ | .away _ | .held => stallOut s

/-- An access that the current context waits for, performed at the channel of a physical address: it needs a route
(R353), may be held by replay (R350), is logged (R349), and the frame tag may reject it (R372, R373); then k. -/
def atChannel (s : State) (kind va pa : Nat) (k : State → Out) : Out :=
  let sn : Seen := ⟨s.coreId, s.core.cur.toNat, kind, false, va, false⟩
  let port := PortKey.chan (BitVec.ofNat 5 (chanOf pa))
  if chanCut s pa then xlateTrap s va (.access true)
  else if replayHolds s port sn then stallOut s
  else
    let t := noteAccess s port sn
    if frameOk t (ctxTag t.ctx) pa then k t else xlateTrap t va .stale

/-- Bytes va .. va+n-1 of a fabric line read: from the own hoop where asked, the gather buffer, memory
(R107, R151). All of them lie in one page. -/
def loadFabric (s : State) (hoop : Bool) (d : Dest) (va n : Nat) : Out :=
  let x := s.ctx
  let tg := ctxTag x
  match translate s tg x.stacklimit .read va n with
  | (.ok pa, t) =>
    let off := List.range n
    let fwd := off.map fun i =>
      match (if hoop then hoopFwd x (.chan (BitVec.ofNat 5 (chanOf (pa + i)))) none (pa + i) else none) with
      | some b => some b
      | none => gatherFwd t.core ⟨none, tg, va + i, pa + i⟩
    if fwd.all Option.isSome then loadDone t d (fwd.map fun b => b.getD 0)
    else
      atChannel t 0 va pa fun v =>
        let need := (off.zip fwd).filterMap fun p => if p.2.isSome then none else some (pa + p.1)
        let u := countReads v need
        match chanRead u need with
        | none => killOut u
        | some _ =>
          loadDone u d ((off.zip fwd).map fun p => p.2.getD (rd8 u.dram (pa + p.1)))
  | (.away pkg, t) =>
    let fwd := (List.range n).map fun i =>
      match (if hoop then hoopFwd x (.chan 0) (some pkg) (va + i) else none) with
      | some b => some b
      | none => gatherFwd t.core ⟨some pkg, tg, va + i, 0⟩
    if fwd.all Option.isSome then loadDone t d (fwd.map fun b => b.getD 0)
    else loadAway t d fwd [(pkg, (gaps fwd).map fun i => (i, va + i))]
  | (r, t) => xlateTrap t va r

/-- A scalar load of n bytes (R105-R107). istoreOk: the instruction store may be read. -/
def scalarLoad (s : State) (a : Word) (n : Nat) (d : Dest) : Out :=
  if a.toNat % n ≠ 0 then trapOut s .align
  else
    match classify a with
    | .own 0 off => loadLocal s d ((List.range n).map fun i => off + i)
    | .ownI off =>
      atOwnPort s (.istore s.coreId) 0 off fun t =>
        consuming t .istore 4 ((List.range n).map fun i => off + i) fun u => loadDone u d (rdBytes u.core.istore off n)
    | .remote c off =>
      if inReach s.coreId s.ctx c then loadRemote s c d ((List.range n).map fun i => off + i)
      else trapOut s .access
    | .fabric va => loadFabric s false d va n
    | .own _ _ | .remI _ _ | .remE _ _ | .none => trapOut s .access

/-! ### Stores -/

/-- A store to this core's scratchpad, performed at issue (R108). -/
def storeLocal (s : State) (cs : List Host.Cell) : Out :=
  atOwnPort s (.scratch s.coreId) 1 ((cs.map Prod.fst).headD 0) fun t =>
    rewriting t .scratch 8 cs fun u => done (u.modCore fun k => { k with mem := wrCells k.mem cs })

/-- The bytes of a store line by line, in the order in which it first touches each line, and within a line in their
order (R144). -/
def mergeByLine (cs : List (LinePlace × Byte)) : List (LinePlace × Byte) :=
  let key (c : LinePlace × Byte) : Option (BitVec 9) × Nat := (c.1.home, (if c.1.home.isNone then c.1.pa else c.1.va) / 64)
  (cs.map key).eraseDups.flatMap fun k => cs.filter fun c => decide (key c = k)

/-- The bytes of a fabric store merged into the gather buffer; a stall while one needs a line and none is free (R285),
after which the store goes on with those that are left, its checks not made again (R144). DESIGN CHOICE (log entry
71): what has been merged by then stays so, whatever becomes of the task. Unsafe. -/
def gathering (s : State) (cs : List (LinePlace × Byte)) : Out :=
  match gatherCells cs s with
  | (t, []) => done (t.modCtx fun x => { x with storing := none })
  | (t, c :: rest) => stallOut (t.modCtx fun x => { x with storing := some (c :: rest) })

/-- A fabric store that has issued before goes on (R144, R285); else k issues it. -/
def storingOr (s : State) (k : Out) : Out := match s.ctx.storing with | some cs => gathering s cs | none => k

/-- A fabric store of contiguous bytes within one page. -/
def storeFabric (s : State) (va : Nat) (bs : List Byte) : Out :=
  let x := s.ctx
  let tg := ctxTag x
  let cells (home : Option (BitVec 9)) (pa : Nat) : List (LinePlace × Byte) := bs.mapIdx fun i b => (⟨home, tg, va + i, pa + i⟩, b)
  match translate s tg x.stacklimit .write va bs.length with
  | (.ok pa, t) => gathering t (cells none pa)
  | (.away pkg, t) => gathering t (cells (some pkg) va)
  | (r, t) => xlateTrap t va r

/-- A scalar store of bytes (R105, R106, R108, R195). word: SW or SD, which may reach an instruction store. -/
def scalarStore (s : State) (a : Word) (bs : List Byte) (word : Bool) : Out :=
  if a.toNat % bs.length ≠ 0 then trapOut s .align
  else
    match classify a with
    | .own 0 off => storeLocal s (cellsAt off bs)
    | .remote c off =>
      if inReach s.coreId s.ctx c then placing s (toCore c off) (.store (cellsAt off bs)) done
      else trapOut s .access
    | .remI c off =>
      if s.priv && word && decide (off + bs.length ≤ 0x10000) then placing s (toCore c off) (.istore (cellsAt off bs)) done
      else trapOut s .access
    | .fabric va => storingOr s (storeFabric s va bs)
    | .own _ _ | .ownI _ | .remE _ _ | .none => trapOut s .access

/-! ### Fences (R163, R164) -/

/-- FENCE.W: the open chunk is committed and the gather lines with a byte of this context drain; true
once every committed effect has been acknowledged and every such line has drained. -/
def fenceW (s : State) : State × Bool :=
  let t := drainWhere s.commit (wroteIn s.core.cur)
  (t, hoopQuiet t.ctx && drained t (wroteIn s.core.cur))

/-- XFENCE: FENCE.W with every line drained. -/
def xfence (s : State) : State × Bool :=
  let t := drainWhere s.commit fun _ => true
  (t, hoopQuiet t.ctx && drained t fun _ => true)

/-- k after a FENCE.W; a stall while effects are outstanding. -/
def afterFenceW (s : State) (k : State → Out) : Out :=
  match fenceW s with
  | (t, true) => k t
  | (t, false) => stallOut t

end Sys2Proof.Machine
end

