-- ==== Sys2Proof/Machine/Int.lean ====
section
/-! DEFINITION. The integer register forms (R94, R95), the immediates, shifts and constants (R96-R99). -/
namespace Sys2Proof.Machine

/-- gd from ga and gb, count 63 (R92, R94). -/
def intRR (d a b : Reg) (f : Word → Word → Word) (s : State) : Out := done (s.setG d (f (s.gr a) (s.gr b)))

/-- gd from ga (R94). -/
def intR (d a : Reg) (f : Word → Word) (s : State) : Out := done (s.setG d (f (s.gr a)))

/-- 1 or 0. -/
def bitW (b : Bool) : Word := if b then 1 else 0

/-- Shift and rotate amounts are gb[5:0] (R94). -/
def amt (b : Word) : Nat := b.toNat % 64

/-- The signed quotient, toward zero, saturated (R95). -/
def quoI (a b : Word) : Word :=
  if b = 0 then
    (if a = 0 then 0 else if a.toInt > 0 then BitVec.ofNat 64 (2 ^ 63 - 1) else BitVec.ofNat 64 (2 ^ 63))
  else BitVec.ofInt 64 (clampInt (-(2 ^ 63)) (2 ^ 63 - 1) (a.toInt.tdiv b.toInt))

/-- The natural quotient (R95). -/
def quoN (a b : Word) : Word :=
  if b = 0 then (if a = 0 then 0 else BitVec.allOnes 64) else BitVec.ofNat 64 (a.toNat / b.toNat)

/-- The remainders (R95): over a zero divisor the dividend. -/
def rmdI (a b : Word) : Word := if b = 0 then a else BitVec.ofInt 64 (a.toInt.tmod b.toInt)
def rmdN (a b : Word) : Word := if b = 0 then a else BitVec.ofNat 64 (a.toNat % b.toNat)

/-- Leading zeros of the low n bits (R94). -/
def clzN (x : Nat) : Nat → Nat
  | 0 => 0
  | n + 1 => if nbit x n then 0 else 1 + clzN x n

/-- Trailing zeros, at most n (R94). -/
def ctzN (x : Nat) : Nat → Nat
  | 0 => 0
  | n + 1 => if x % 2 = 1 then 0 else 1 + ctzN (x / 2) n

/-- One bits of the low n bits (R94). -/
def popN (x : Nat) : Nat → Nat
  | 0 => 0
  | n + 1 => x % 2 + popN (x / 2) n

def bswapW (a : Word) : Word := BitVec.ofNat 64 (leNat (leBytes 8 a.toNat).reverse)

/-- The low n bits sign-extended (R94). -/
def sextLow (n : Nat) (a : Word) : Word := (a.extractLsb' 0 n).signExtend 64

/-- LIK's merge of one 16-bit quarter (R98). -/
def keepQuarter (old : Word) (q : BitVec 2) (i : BitVec 16) : Word :=
  setFld old (16 * q.toNat) 16 i.toNat

/-- ADD (R94). -/
def execAdd (d a b : Reg) (s : State) : Out := intRR d a b (fun x y => x + y) s

/-- SUB (R94). -/
def execSub (d a b : Reg) (s : State) : Out := intRR d a b (fun x y => x - y) s

/-- AND (R94). -/
def execAnd (d a b : Reg) (s : State) : Out := intRR d a b (fun x y => x &&& y) s

/-- OR (R94). -/
def execOr (d a b : Reg) (s : State) : Out := intRR d a b (fun x y => x ||| y) s

/-- XOR (R94). -/
def execXor (d a b : Reg) (s : State) : Out := intRR d a b (fun x y => x ^^^ y) s

/-- ANDN (R94). -/
def execAndn (d a b : Reg) (s : State) : Out := intRR d a b (fun x y => x &&& ~~~y) s

/-- ORN (R94). -/
def execOrn (d a b : Reg) (s : State) : Out := intRR d a b (fun x y => x ||| ~~~y) s

/-- SLL (R94). -/
def execSll (d a b : Reg) (s : State) : Out := intRR d a b (fun x y => x <<< amt y) s

/-- SRL (R94). -/
def execSrl (d a b : Reg) (s : State) : Out := intRR d a b (fun x y => x >>> amt y) s

/-- SRA (R94). -/
def execSra (d a b : Reg) (s : State) : Out := intRR d a b (fun x y => x.sshiftRight (amt y)) s

/-- ROL (R94). -/
def execRol (d a b : Reg) (s : State) : Out := intRR d a b (fun x y => x.rotateLeft (amt y)) s

/-- ROR (R94). -/
def execRor (d a b : Reg) (s : State) : Out := intRR d a b (fun x y => x.rotateRight (amt y)) s

/-- SLT (R94). -/
def execSlt (d a b : Reg) (s : State) : Out := intRR d a b (fun x y => bitW (x.slt y)) s

/-- SLTU (R94). -/
def execSltu (d a b : Reg) (s : State) : Out := intRR d a b (fun x y => bitW (x.ult y)) s

/-- MIN (R94). -/
def execMin (d a b : Reg) (s : State) : Out := intRR d a b (fun x y => if x.slt y then x else y) s

/-- MAX (R94). -/
def execMax (d a b : Reg) (s : State) : Out := intRR d a b (fun x y => if x.slt y then y else x) s

/-- MINU (R94). -/
def execMinu (d a b : Reg) (s : State) : Out := intRR d a b (fun x y => if x.ult y then x else y) s

/-- MAXU (R94). -/
def execMaxu (d a b : Reg) (s : State) : Out := intRR d a b (fun x y => if x.ult y then y else x) s

/-- MUL (R94). -/
def execMul (d a b : Reg) (s : State) : Out := intRR d a b (fun x y => x * y) s

/-- MULHI (R94). -/
def execMulhi (d a b : Reg) (s : State) : Out := intRR d a b (fun x y => BitVec.ofInt 64 (x.toInt * y.toInt / 2 ^ 64)) s

/-- MULHIN (R94). -/
def execMulhin (d a b : Reg) (s : State) : Out := intRR d a b (fun x y => BitVec.ofNat 64 (x.toNat * y.toNat / 2 ^ 64)) s

/-- MULHIX (R94). -/
def execMulhix (d a b : Reg) (s : State) : Out := intRR d a b (fun x y => BitVec.ofInt 64 (x.toInt * (y.toNat : Int) / 2 ^ 64)) s

/-- QUO (R95). -/
def execQuo (d a b : Reg) (s : State) : Out := intRR d a b (fun x y => quoI x y) s

/-- QUON (R95). -/
def execQuon (d a b : Reg) (s : State) : Out := intRR d a b (fun x y => quoN x y) s

/-- RMD (R95). -/
def execRmd (d a b : Reg) (s : State) : Out := intRR d a b (fun x y => rmdI x y) s

/-- RMDN (R95). -/
def execRmdn (d a b : Reg) (s : State) : Out := intRR d a b (fun x y => rmdN x y) s

/-- CLZ (R94). -/
def execClz (d a : Reg) (s : State) : Out := intR d a (fun x => BitVec.ofNat 64 (clzN x.toNat 64)) s

/-- CTZ (R94). -/
def execCtz (d a : Reg) (s : State) : Out := intR d a (fun x => BitVec.ofNat 64 (ctzN x.toNat 64)) s

/-- POPC (R94). -/
def execPopc (d a : Reg) (s : State) : Out := intR d a (fun x => BitVec.ofNat 64 (popN x.toNat 64)) s

/-- BSWAP (R94). -/
def execBswap (d a : Reg) (s : State) : Out := intR d a (fun x => bswapW x) s

/-- SEXTB (R94). -/
def execSextb (d a : Reg) (s : State) : Out := intR d a (fun x => sextLow 8 x) s

/-- SEXTH (R94). -/
def execSexth (d a : Reg) (s : State) : Out := intR d a (fun x => sextLow 16 x) s

/-- SEXTW (R94). -/
def execSextw (d a : Reg) (s : State) : Out := intR d a (fun x => sextLow 32 x) s

/-- ADDI (R96). -/
def execAddi (d a : Reg) (i : BitVec 16) (s : State) : Out := intR d a (fun x => x + sext16 i) s

/-- ANDI (R96). -/
def execAndi (d a : Reg) (i : BitVec 16) (s : State) : Out := intR d a (fun x => x &&& sext16 i) s

/-- ORI (R96). -/
def execOri (d a : Reg) (i : BitVec 16) (s : State) : Out := intR d a (fun x => x ||| zext16 i) s

/-- XORI (R96). -/
def execXori (d a : Reg) (i : BitVec 16) (s : State) : Out := intR d a (fun x => x ^^^ zext16 i) s

/-- SLTI (R96). -/
def execSlti (d a : Reg) (i : BitVec 16) (s : State) : Out := intR d a (fun x => bitW (x.slt (sext16 i))) s

/-- SLTIU (R96). -/
def execSltiu (d a : Reg) (i : BitVec 16) (s : State) : Out := intR d a (fun x => bitW (x.ult (sext16 i))) s

/-- SLLI (R97). -/
def execSlli (d a : Reg) (n : BitVec 6) (s : State) : Out := intR d a (fun x => x <<< n.toNat) s

/-- SRLI (R97). -/
def execSrli (d a : Reg) (n : BitVec 6) (s : State) : Out := intR d a (fun x => x >>> n.toNat) s

/-- SRAI (R97). -/
def execSrai (d a : Reg) (n : BitVec 6) (s : State) : Out := intR d a (fun x => x.sshiftRight n.toNat) s

/-- LIZ (R98). -/
def execLiz (d : Reg) (q : BitVec 2) (i : BitVec 16) (s : State) : Out :=
  done (s.setG d (zext16 i <<< (16 * q.toNat)))

/-- LIK (R98): gd is read at issue. -/
def execLik (d : Reg) (q : BitVec 2) (i : BitVec 16) (s : State) : Out :=
  done (s.setG d (keepQuarter (s.gr d) q i))

/-- ADPC (R99): PC is the address of the ADPC word. -/
def execAdpc (d : Reg) (i : BitVec 16) (s : State) : Out := done (s.setG d (branchTo s.ctx.pc i))

end Sys2Proof.Machine
end

