-- ==== Sys2Proof/Machine/LoadStore.lean ====
section
/-! DEFINITION. Scalar loads and stores (R105-R109) and atomics (R117-R121). -/
namespace Sys2Proof.Machine

/-- LB (R107). -/
def execLb (d a : Reg) (i : BitVec 16) (s : State) : Out :=
  scalarLoad s (s.gr a + sext16 i) 1 (.g d true)

/-- LBU (R107). -/
def execLbu (d a : Reg) (i : BitVec 16) (s : State) : Out :=
  scalarLoad s (s.gr a + sext16 i) 1 (.g d false)

/-- LH (R107). -/
def execLh (d a : Reg) (i : BitVec 16) (s : State) : Out :=
  scalarLoad s (s.gr a + sext16 i) 2 (.g d true)

/-- LHU (R107). -/
def execLhu (d a : Reg) (i : BitVec 16) (s : State) : Out :=
  scalarLoad s (s.gr a + sext16 i) 2 (.g d false)

/-- LW (R107). -/
def execLw (d a : Reg) (i : BitVec 16) (s : State) : Out :=
  scalarLoad s (s.gr a + sext16 i) 4 (.g d true)

/-- LWU (R107). -/
def execLwu (d a : Reg) (i : BitVec 16) (s : State) : Out :=
  scalarLoad s (s.gr a + sext16 i) 4 (.g d false)

/-- LD (R107). -/
def execLd (d a : Reg) (i : BitVec 16) (s : State) : Out :=
  scalarLoad s (s.gr a + sext16 i) 8 (.g d false)

/-- SB (R108). -/
def execSb (d a : Reg) (i : BitVec 16) (s : State) : Out :=
  scalarStore s (s.gr a + sext16 i) (leBytes 1 (s.gr d).toNat) false

/-- SH (R108). -/
def execSh (d a : Reg) (i : BitVec 16) (s : State) : Out :=
  scalarStore s (s.gr a + sext16 i) (leBytes 2 (s.gr d).toNat) false

/-- SW (R108). -/
def execSw (d a : Reg) (i : BitVec 16) (s : State) : Out :=
  scalarStore s (s.gr a + sext16 i) (leBytes 4 (s.gr d).toNat) true

/-- SD (R108). -/
def execSd (d a : Reg) (i : BitVec 16) (s : State) : Out :=
  scalarStore s (s.gr a + sext16 i) (leBytes 8 (s.gr d).toNat) true

/-! ### Atomics -/

def sizeBytes : Size → Nat
  | .w => 4
  | .d => 8

/-- The new value an atomic writes, of w bits (R117). -/
def amoNew (fn : BitVec 4) (w v b e : Nat) : Nat :=
  match fn.toNat with
  | 0 => (v + b) % 2 ^ w
  | 1 => v &&& b
  | 2 => v ||| b
  | 3 => v ^^^ b
  | 4 => if sgn w v < sgn w b then v else b
  | 5 => if sgn w v < sgn w b then b else v
  | 6 => min v b
  | 7 => max v b
  | 8 => b
  | 9 => if v = e then b else v
  | _ =>
    let f := if w = 32 then f32F else f64F
    (faddR f .rne (fval f v 63) (fval f b 63)).bits

/-- Whether an atomic writes: ACAS does not where the values differ (R117). -/
def amoWrites (fn : BitVec 4) (v e : Nat) : Bool := !(fn == 9 && v != e)

/-- An atomic at a byte memory: the memory after it and the old value (R117). -/
def amoAt (m : Memory) (fn : BitVec 4) (z : Size) (a : Nat) (b e : Word) : Memory × Nat :=
  let n := sizeBytes z
  let v := rdNat m a n
  let eb := e.toNat % 2 ^ (8 * n)
  if amoWrites fn v eb then (wrBytes m a (leBytes n (amoNew fn (8 * n) v (b.toNat % 2 ^ (8 * n)) eb)), v)
  else (m, v)

/-- The bytes an atomic writes at an address, if it writes. -/
def amoWritten (m : Memory) (fn : BitVec 4) (z : Size) (a : Nat) (e : Word) : List Nat :=
  let n := sizeBytes z
  if amoWrites fn (rdNat m a n) (e.toNat % 2 ^ (8 * n)) then [a] else []

/-- Whether a scope takes in a remote core (R118). -/
def scopeCore (me c : CoreId) : Scope → Bool
  | .core => false
  | .quad => sameQuad me c
  | .die => dieOf me == dieOf c
  | .pkg | .pod => true

/-- A remote or fabric atomic: the last effect of the open chunk, which commits as it issues; the context awaits V
(R119). -/
def sendAtomic (s : State) (a : Aim) (op : Op) (d : Reg) : Out :=
  let e := s.eids
  placing s a op fun t =>
    stallOut (t.commit.modCtx fun x => { x with pending := some ⟨e, [], [], [], .amo d⟩ })

/-- An atomic at address A (R105, R106, R117-R119). The lines of the gather buffer that hold bytes of a fabric
atomic's location begin their drains; the atomic leaves the hoop after them (R119, R285). -/
def atomicAt (fn : BitVec 4) (d a b : Reg) (sc : Scope) (z : Size) (s : State) : Out :=
  let A := s.gr a
  let B := s.gr b
  let E := s.gr d
  let x := s.ctx
  if A.toNat % sizeBytes z ≠ 0 then trapOut s .align
  else
    match classify A with
    | .own 0 off =>
      atOwnPort s (.scratch s.coreId) 2 off fun t =>
        consuming t .scratch 8 [off] fun u =>
          let r := amoAt u.core.mem fn z off B E
          done ((u.modCore fun k => freshWords .scratch (wordsOf 8 (amoWritten u.core.mem fn z off E)) { k with mem := r.1 }).setG d (BitVec.ofNat 64 r.2))
    | .remote c off =>
      if scopeCore s.coreId c sc && inReach s.coreId x c then
        sendAtomic s (toCore c off) (.atomic fn z off B E) d
      else trapOut s .access
    | .fabric va =>
      match sc with
      | .core | .quad | .die => trapOut s .access
      | .pkg | .pod =>
        match translate s (ctxTag x) x.stacklimit .atomic va (sizeBytes z) with
        | (.ok pa, t) =>
          sendAtomic (drainWhere t (lineHolds ⟨none, ctxTag x, va, pa⟩)) ⟨.chan (BitVec.ofNat 5 (chanOf pa)), none, va⟩ (.atomic fn z pa B E) d
        | (.away pkg, t) =>
          if sc = .pod then
            sendAtomic (drainWhere t (lineHolds ⟨some pkg, ctxTag x, va, 0⟩)) ⟨.chan 0, some pkg, va⟩ (.atomic fn z va B E) d
          else trapOut t .access
        | (r, t) => xlateTrap t va r
    | .own _ _ | .ownI _ | .remI _ _ | .remE _ _ | .none => trapOut s .access

/-- An AMO with its ordering (R120): .rel and .acqrel act as FENCE.W before it; .acq adds nothing in a
context that waits for V. DESIGN CHOICE (log entry 84): the FENCE.W comes before the checks of R106 and R118, so the
open chunk of one that fails them has committed; the rules give no order. Unsafe. -/
def amo (fn : BitVec 4) (d a b : Reg) (sc : Scope) (o : MemOrd) (z : Size) (s : State) : Out :=
  match o with
  | .rel | .acqrel => afterFenceW s (atomicAt fn d a b sc z)
  | .rlx | .acq => atomicAt fn d a b sc z s

/-- AADD (R117). -/
def execAadd (d a b : Reg) (c : Scope) (o : MemOrd) (z : Size) (s : State) : Out := amo 0 d a b c o z s

/-- AAND (R117). -/
def execAand (d a b : Reg) (c : Scope) (o : MemOrd) (z : Size) (s : State) : Out := amo 1 d a b c o z s

/-- AOR (R117). -/
def execAor (d a b : Reg) (c : Scope) (o : MemOrd) (z : Size) (s : State) : Out := amo 2 d a b c o z s

/-- AXOR (R117). -/
def execAxor (d a b : Reg) (c : Scope) (o : MemOrd) (z : Size) (s : State) : Out := amo 3 d a b c o z s

/-- AMIN (R117). -/
def execAmin (d a b : Reg) (c : Scope) (o : MemOrd) (z : Size) (s : State) : Out := amo 4 d a b c o z s

/-- AMAX (R117). -/
def execAmax (d a b : Reg) (c : Scope) (o : MemOrd) (z : Size) (s : State) : Out := amo 5 d a b c o z s

/-- AMINU (R117). -/
def execAminu (d a b : Reg) (c : Scope) (o : MemOrd) (z : Size) (s : State) : Out := amo 6 d a b c o z s

/-- AMAXU (R117). -/
def execAmaxu (d a b : Reg) (c : Scope) (o : MemOrd) (z : Size) (s : State) : Out := amo 7 d a b c o z s

/-- ASWP (R117). -/
def execAswp (d a b : Reg) (c : Scope) (o : MemOrd) (z : Size) (s : State) : Out := amo 8 d a b c o z s

/-- ACAS (R117). -/
def execAcas (d a b : Reg) (c : Scope) (o : MemOrd) (z : Size) (s : State) : Out := amo 9 d a b c o z s

/-- AFADD (R117). -/
def execAfadd (d a b : Reg) (c : Scope) (o : MemOrd) (z : Size) (s : State) : Out := amo 10 d a b c o z s

end Sys2Proof.Machine
end

