-- ==== Sys2Proof/Machine/Float.lean ====
section
/-! DEFINITION. Scalar floating point (R110-R114) and the fused multiply-add (R116). -/
namespace Sys2Proof.Machine

/-- A result in gd: an f32 result zero-extended (R92). -/
def putF (s : State) (d : Reg) (r : FRes) : State := s.setGC d (BitVec.ofNat 64 r.bits) r.count

/-- A checked form: the result written, then R90. -/
def fpChecked (s : State) (d : Reg) (f : FFmt) (r : FRes) (srcs : List FVal) : Out :=
  checked (putF s d r) [⟨0, r.count, fmtP f, srcs, srcs.map FVal.c⟩] false

/-- A form of two sources that rounds (R111). -/
def fp2 (op : FFmt → Rnd → FVal → FVal → FRes) (d a b : Reg) (p : Prec) (r : Rnd) (s : State) : Out :=
  let x := fopnd s.ctx p a
  let y := fopnd s.ctx p b
  fpChecked s d (precFmt p) (op (precFmt p) (rndOf s.ctx r false) x y) [x, y]

/-- A form of one source that rounds (R111). -/
def fp1 (op : FFmt → Rnd → FVal → FRes) (d a : Reg) (p : Prec) (r : Rnd) (s : State) : Out :=
  let x := fopnd s.ctx p a
  fpChecked s d (precFmt p) (op (precFmt p) (rndOf s.ctx r false) x) [x]

/-- The LFSR advanced for an SR form (R76). -/
def stepLfsr (s : State) (r : Rnd) : State :=
  if r = .sr then s.modCtx fun x => { x with lfsr := lfsrNext x.lfsr } else s

/-- A value with another value's sign handling (R113): NaN gives the canonical NaN with count 0, an
infinity count 0 (R82). -/
def signed (f : FFmt) (a : FVal) (neg : Bool) : FRes :=
  match a.n with
  | .nan => ⟨nanBits f, 0⟩
  | .inf _ => ⟨encodeF f (.inf neg), 0⟩
  | .fin _ m e => ⟨encodeF f (.fin neg m e), a.c⟩

/-- The sign bit of a word as held. -/
def signBit (f : FFmt) (x : Nat) : Bool := nbit x (fmtBits f - 1)

def fcpsOp (g : Bool → Bool → Bool) (d a b : Reg) (p : Prec) (s : State) : Out :=
  let f := precFmt p
  let x := fopnd s.ctx p a
  done (putF s d (signed f x (g (signBit f (s.gr a).toNat) (signBit f (s.gr b).toNat))))

def fcmp (g : FNum → FNum → Bool) (d a b : Reg) (p : Prec) (s : State) : Out :=
  done (s.setG d (if g (fopnd s.ctx p a).n (fopnd s.ctx p b).n then 1 else 0))


/-- A conversion to an integer (R78, R114). -/
def fcvtToInt (nat : Bool) (d a : Reg) (p : Prec) (r : Rnd) (s : State) : Out :=
  done (s.setG d (BitVec.ofNat 64 (toIntF (rndOf s.ctx r false) 0 64 nat (fopnd s.ctx p a).n)))

/-- A conversion from an integer (R78, R114): SR is allowed. -/
def fcvtFromInt (nat : Bool) (d a : Reg) (p : Prec) (r : Rnd) (s : State) : Out :=
  let rr := rndOf s.ctx r true
  let t := stepLfsr s rr
  let z : Int := if nat then ((s.gr a).toNat : Int) else (s.gr a).toInt
  done (putF t d (ofIntR (precFmt p) rr false t.ctx.lfsr z))

/-- One rounding of a product and a sum (R116). -/
def fp3 (n5 n4 : Bool) (d a b c : Reg) (p : Prec) (r : Rnd) (s : State) : Out :=
  let x := fopnd s.ctx p a
  let y := fopnd s.ctx p b
  let z := fopnd s.ctx p c
  fpChecked s d (precFmt p) (fmaR (precFmt p) (rndOf s.ctx r false) n5 n4 x y z) [x, y, z]

/-- FADD (R111). -/
def execFadd (d a b : Reg) (p : Prec) (r : Rnd) (s : State) : Out := fp2 faddR d a b p r s

/-- FSUB (R111). -/
def execFsub (d a b : Reg) (p : Prec) (r : Rnd) (s : State) : Out := fp2 (fun f r a b => faddR f r a (fnegV b)) d a b p r s

/-- FMUL (R111). -/
def execFmul (d a b : Reg) (p : Prec) (r : Rnd) (s : State) : Out := fp2 fmulR d a b p r s

/-- FDIV (R111). -/
def execFdiv (d a b : Reg) (p : Prec) (r : Rnd) (s : State) : Out := fp2 fdivR d a b p r s

/-- FSQRT (R111). -/
def execFsqrt (d a : Reg) (p : Prec) (r : Rnd) (s : State) : Out := fp1 fsqrtR d a p r s

/-- FRINT (R111). -/
def execFrint (d a : Reg) (p : Prec) (r : Rnd) (s : State) : Out := fp1 frintR d a p r s

/-- FMIN (R112). -/
def execFmin (d a b : Reg) (p : Prec) (s : State) : Out :=
  done (putF s d (fminmaxR (precFmt p) false (fopnd s.ctx p a) (fopnd s.ctx p b)))

/-- FMAX (R112). -/
def execFmax (d a b : Reg) (p : Prec) (s : State) : Out :=
  done (putF s d (fminmaxR (precFmt p) true (fopnd s.ctx p a) (fopnd s.ctx p b)))

/-- FEQ (R112). -/
def execFeq (d a b : Reg) (p : Prec) (s : State) : Out := fcmp eqF d a b p s

/-- FLT (R112). -/
def execFlt (d a b : Reg) (p : Prec) (s : State) : Out := fcmp ltF d a b p s

/-- FLE (R112). -/
def execFle (d a b : Reg) (p : Prec) (s : State) : Out := fcmp leF d a b p s

/-- FCLASS (R112). -/
def execFclass (d a : Reg) (p : Prec) (s : State) : Out :=
  let f := precFmt p
  done (s.setG d (BitVec.ofNat 64 (fclassBits f ((s.gr a).toNat % 2 ^ fmtBits f))))

/-- FCPS (R113). -/
def execFcps (d a b : Reg) (p : Prec) (s : State) : Out := fcpsOp (fun _ y => y) d a b p s

/-- FCPSN (R113). -/
def execFcpsn (d a b : Reg) (p : Prec) (s : State) : Out := fcpsOp (fun _ y => !y) d a b p s

/-- FCPSX (R113). -/
def execFcpsx (d a b : Reg) (p : Prec) (s : State) : Out := fcpsOp (fun x y => x != y) d a b p s

/-- FCVTI (R114). -/
def execFcvti (d a : Reg) (p : Prec) (r : Rnd) (s : State) : Out := fcvtToInt false d a p r s

/-- FCVTU (R114). -/
def execFcvtu (d a : Reg) (p : Prec) (r : Rnd) (s : State) : Out := fcvtToInt true d a p r s

/-- FCVTF (R114). -/
def execFcvtf (d a : Reg) (p : Prec) (r : Rnd) (s : State) : Out := fcvtFromInt false d a p r s

/-- FCVTFU (R114). -/
def execFcvtfu (d a : Reg) (p : Prec) (r : Rnd) (s : State) : Out := fcvtFromInt true d a p r s

/-- FCVTP (R114): from f64 to f32 (prec f32, SR legal) or from f32 to f64; checked. -/
def execFcvtp (d a : Reg) (p : Prec) (r : Rnd) (s : State) : Out :=
  match p with
  | .f32 =>
    let rr := rndOf s.ctx r true
    let t := stepLfsr s rr
    let x := fopnd s.ctx .f64 a
    fpChecked t d f32F (fcvtR f64F f32F rr false t.ctx.lfsr x) [x]
  | .f64 =>
    let x := fopnd s.ctx .f32 a
    fpChecked s d f64F (fcvtR f32F f64F .rne false 0 x) [x]

/-- FSIG (R113): the count as read under R82. -/
def execFsig (d a : Reg) (p : Prec) (s : State) : Out :=
  done (s.setG d (BitVec.ofNat 64 (readCount (fmtP (precFmt p)) (s.grc a))))

/-- The bits of ga in a precision, zero-extended (R113). -/
def precBits (s : State) (a : Reg) (p : Prec) : Word :=
  BitVec.ofNat 64 ((s.gr a).toNat % 2 ^ fmtBits (precFmt p))

/-- FSETSIG (R113): the count is gb[5:0] as written; an infinity or NaN takes 0, the first row of R83. -/
def execFsetsig (d a b : Reg) (p : Prec) (s : State) : Out :=
  let x := precBits s a p
  done (s.setGC d x (if specialF (decodeF (precFmt p) x.toNat) then 0 else (s.gr b).setWidth 6))

/-- FMVI (R113). -/
def execFmvi (d a : Reg) (p : Prec) (s : State) : Out := done (s.setG d (precBits s a p))

/-- FMA (R116). -/
def execFma (d a b c : Reg) (p : Prec) (r : Rnd) (s : State) : Out := fp3 false false d a b c p r s

/-- FMS (R116). -/
def execFms (d a b c : Reg) (p : Prec) (r : Rnd) (s : State) : Out := fp3 false true d a b c p r s

/-- FNMA (R116). -/
def execFnma (d a b c : Reg) (p : Prec) (r : Rnd) (s : State) : Out := fp3 true false d a b c p r s

/-- FNMS (R116). -/
def execFnms (d a b c : Reg) (p : Prec) (r : Rnd) (s : State) : Out := fp3 true true d a b c p r s

end Sys2Proof.Machine
end

