-- ==== Sys2Proof/WellFormed.lean ====
section
/-! DEFINITION. WellFormed: the encoding rules of R39-R57 that the constructors' own types do not
already say. An instruction that fails one is a word the device calls illegal (R56). Events have no
word; what little is checked of them is that they name a thing that exists. -/
namespace Sys2Proof

/-- Every rounding code but SR, for the forms that do not allow it (R40, R41, R53). -/
def Rnd.noSr : Rnd → Bool
  | .sr => false
  | .rne | .rna | .rtz | .rdn | .rup | .dyn => true

/-- msk = 00 with U = 1 is illegal (R52, R54). -/
def maskOk (m : BitVec 2) (u : Bool) : Bool := !(m == 0 && u)

def VArgs.ok (x : VArgs) : Bool := maskOk x.m x.u
def UArgs.ok (x : UArgs) : Bool := maskOk x.m x.u

/-- The width in bits of a conversion format (R55, R70). -/
def Fmt.bits : Fmt → Nat
  | .f64 | .i64 | .n64 => 64
  | .f32 | .i32 | .n32 => 32
  | .bf16 | .f16 | .i16 | .n16 => 16
  | .e4m3 | .e5m2 | .i8 | .n8 => 8

/-- An integer or natural format (R55). -/
def Fmt.isInt : Fmt → Bool
  | .f64 | .f32 | .bf16 | .f16 | .e4m3 | .e5m2 => false
  | .i8 | .i16 | .i32 | .i64 | .n8 | .n16 | .n32 | .n64 => true

/-- The rounding-code rule of a conversion: SR only into a narrower format or from an integer (R55);
code 0 between integer formats (R137, R268). -/
def cvtRndOk (src dst : Fmt) (r : Rnd) : Bool :=
  (if src.isInt && dst.isInt then r == .rne else true) &&
  (if r == .sr then decide (dst.bits < src.bits) || src.isInt else true)

/-- The field rules of VCVT and VCVTS (R55, R136, R137). -/
def cvtOk (x : UArgs) (src dst : Fmt) (r : Rnd) : Bool :=
  x.ok && (src != dst) && cvtRndOk src dst r &&
  !(decide (src.bits < dst.bits) && x.d == 31)

/-- A bound register is legal with 64-bit and 32-bit lanes only (R143). -/
def boundOk (z : Wd) (n : Option (BitVec 3)) : Bool :=
  match n, z with
  | none, _ => true
  | some _, .w64 | some _, .w32 => true
  | some _, .w16 | some _, .w8 => false

/-- Which ids a barrier scope has (R46). -/
def barIdOk : BarScope → BitVec 6 → Bool
  | .quad, i => decide (i < 8)
  | .die, _ | .pkg, _ => true
  | .pod, i => decide (i < 16)

/-- The dies are 0-2 (R1). -/
def dieOk (d : BitVec 2) : Bool := decide (d < 3)

/-- A core id names a site of the package (R294). -/
def siteOk (c : CoreId) : Bool := decide (c < 0xC00)

/-- The channels are 0-23 (R360). -/
def Port.ok : Port → Bool
  | .core c => siteOk c
  | .chan n => decide (n < 24)

def Route.ok (r : Route) : Bool := r.src.ok && r.dst.ok

/-- A barrier's instance lies in the package (R301). -/
def BarKey.ok (b : BarKey) : Bool :=
  barIdOk b.scope b.id &&
  match b.scope with
  | .quad => decide (b.inst < 768)
  | .die => decide (b.inst < 3)
  | .pkg | .pod => b.inst == 0

/-- The well-formed instructions and events. -/
def Instr.wf : Instr → Bool
  | .add _ _ _ => true
  | .sub _ _ _ => true
  | .and _ _ _ => true
  | .or _ _ _ => true
  | .xor _ _ _ => true
  | .andn _ _ _ => true
  | .orn _ _ _ => true
  | .sll _ _ _ => true
  | .srl _ _ _ => true
  | .sra _ _ _ => true
  | .rol _ _ _ => true
  | .ror _ _ _ => true
  | .slt _ _ _ => true
  | .sltu _ _ _ => true
  | .min _ _ _ => true
  | .max _ _ _ => true
  | .minu _ _ _ => true
  | .maxu _ _ _ => true
  | .mul _ _ _ => true
  | .mulhi _ _ _ => true
  | .mulhin _ _ _ => true
  | .mulhix _ _ _ => true
  | .quo _ _ _ => true
  | .quon _ _ _ => true
  | .rmd _ _ _ => true
  | .rmdn _ _ _ => true
  | .clz _ _ => true
  | .ctz _ _ => true
  | .popc _ _ => true
  | .bswap _ _ => true
  | .sextb _ _ => true
  | .sexth _ _ => true
  | .sextw _ _ => true
  | .addi _ _ _ => true
  | .andi _ _ _ => true
  | .ori _ _ _ => true
  | .xori _ _ _ => true
  | .slli _ _ _ => true
  | .srli _ _ _ => true
  | .srai _ _ _ => true
  | .slti _ _ _ => true
  | .sltiu _ _ _ => true
  | .liz _ _ _ => true
  | .lik _ _ _ => true
  | .adpc _ _ => true
  | .beq _ _ _ => true
  | .bne _ _ _ => true
  | .blt _ _ _ => true
  | .bge _ _ _ => true
  | .bltu _ _ _ => true
  | .bgeu _ _ _ => true
  | .jal _ => true
  | .jalr _ _ _ => true
  | .bsig _ _ _ => true
  | .bmaskNone _ _ => true
  | .bmaskAny _ _ => true
  | .bmaskAll _ _ => true
  | .bmaskNonec _ _ => true
  | .bmaskAnyc _ _ => true
  | .bmaskAllc _ _ => true
  | .lb _ _ _ => true
  | .lbu _ _ _ => true
  | .lh _ _ _ => true
  | .lhu _ _ _ => true
  | .lw _ _ _ => true
  | .lwu _ _ _ => true
  | .ld _ _ _ => true
  | .sb _ _ _ => true
  | .sh _ _ _ => true
  | .sw _ _ _ => true
  | .sd _ _ _ => true
  | .fadd _ _ _ _ r => r.noSr
  | .fsub _ _ _ _ r => r.noSr
  | .fmul _ _ _ _ r => r.noSr
  | .fdiv _ _ _ _ r => r.noSr
  | .fsqrt _ _ _ r => r.noSr
  | .fmin _ _ _ _ => true
  | .fmax _ _ _ _ => true
  | .feq _ _ _ _ => true
  | .flt _ _ _ _ => true
  | .fle _ _ _ _ => true
  | .fclass _ _ _ => true
  | .fcps _ _ _ _ => true
  | .fcpsn _ _ _ _ => true
  | .fcpsx _ _ _ _ => true
  | .fcvti _ _ _ r => r.noSr
  | .fcvtu _ _ _ r => r.noSr
  | .fcvtf _ _ _ _ => true
  | .fcvtfu _ _ _ _ => true
  | .fcvtp _ _ p r => p == .f32 || r == .rne
  | .fsig _ _ _ => true
  | .fsetsig _ _ _ _ => true
  | .frint _ _ _ r => r.noSr
  | .fmvi _ _ _ => true
  | .fma _ _ _ _ _ r => r.noSr
  | .fms _ _ _ _ _ r => r.noSr
  | .fnma _ _ _ _ _ r => r.noSr
  | .fnms _ _ _ _ _ r => r.noSr
  | .aadd _ _ _ _ _ _ => true
  | .aand _ _ _ _ _ _ => true
  | .aor _ _ _ _ _ _ => true
  | .axor _ _ _ _ _ _ => true
  | .amin _ _ _ _ _ _ => true
  | .amax _ _ _ _ _ _ => true
  | .aminu _ _ _ _ _ _ => true
  | .amaxu _ _ _ _ _ _ => true
  | .aswp _ _ _ _ _ _ => true
  | .acas _ _ _ _ _ _ => true
  | .afadd _ _ _ _ _ _ => true
  | .ldf _ _ _ => true
  | .stf _ _ _ => true
  | .ldfa _ _ _ => true
  | .stfr _ _ _ => true
  | .fadr _ _ _ => true
  | .fkeep => true
  | .fref n => n != 0
  | .frel n => n != 0
  | .dspl _ _ => true
  | .dsps _ n => n != 0
  | .tsave d _ _ => decide (d ≤ 24)
  | .trestore d _ _ => decide (d ≤ 24)
  | .vtsave _ _ _ => true
  | .vtrestore _ _ _ => true
  | .send _ _ _ _ => true
  | .sendm _ _ _ _ => true
  | .cdec _ _ => true
  | .spawn _ _ _ _ => true
  | .spawnCap _ _ _ _ => true
  | .exit => true
  | .commit => true
  | .commitW => true
  | .wfe => true
  | .sev _ => true
  | .fenceR => true
  | .fenceW => true
  | .fenceRw => true
  | .xfence => true
  | .arrive _ s i => barIdOk s i
  | .wait _ s i => barIdOk s i
  | .btest _ _ s i => barIdOk s i
  | .qpush _ _ => true
  | .qpop _ _ => true
  | .qtry d a _ => d != a || d == 0
  | .qcnt _ _ => true
  | .hbind _ _ => true
  | .hfree _ => true
  | .seek _ _ => true
  | .hwait _ => true
  | .rds _ _ => true
  | .wrs _ _ => true
  | .rwd _ => true
  | .hstat _ _ => true
  | .mxc _ => true
  | .mxr _ _ c _ _ f _ => !f || !c.getLsbD 0
  | .mxw c l => !l || c == 0
  | .mxs _ _ => true
  | .cpc _ => true
  | .cpw => true
  | .cps _ => true
  | .rep _ _ _ _ _ => true
  | .srr _ _ => true
  | .srw _ _ => true
  | .srx _ _ _ => true
  | .trap _ => true
  | .sret => true
  | .eret => true
  | .iflush => true
  | .vfadd x _ => x.ok
  | .vfsub x _ => x.ok
  | .vfmul x _ => x.ok
  | .vfdiv x _ => x.ok
  | .vfsqrt x _ => x.ok
  | .vfmin x _ => x.ok
  | .vfmax x _ => x.ok
  | .vfabs x _ => x.ok
  | .vfneg x _ => x.ok
  | .vadd x _ => x.ok
  | .vsub x _ => x.ok
  | .vmul x _ => x.ok
  | .vmulh x _ => x.ok
  | .vand x _ => x.ok
  | .vor x _ => x.ok
  | .vxor x _ => x.ok
  | .vsll x _ => x.ok
  | .vsrl x _ => x.ok
  | .vsra x _ => x.ok
  | .vmin x _ => x.ok
  | .vmax x _ => x.ok
  | .vminu x _ => x.ok
  | .vmaxu x _ => x.ok
  | .vadds x _ => x.ok
  | .vsubs x _ => x.ok
  | .vfma x _ => x.ok
  | .vfms x _ => x.ok
  | .vfnma x _ => x.ok
  | .vfnms x _ => x.ok
  | .vdot2 x t => x.ok && (t == .bf16 || t == .f16)
  | .vfeq x _ => x.ok
  | .vflt x _ => x.ok
  | .vfle x _ => x.ok
  | .veq x _ => x.ok
  | .vne x _ => x.ok
  | .vlt x _ => x.ok
  | .vltu x _ => x.ok
  | .mand _ _ _ _ _ => true
  | .mor _ _ _ _ _ => true
  | .mxor _ _ _ _ _ => true
  | .mandn _ _ _ _ _ => true
  | .mnot _ _ _ _ => true
  | .mpop _ _ _ _ => true
  | .mfirst _ _ _ _ => true
  | .mset _ _ _ => true
  | .vslideup x _ _ => x.ok
  | .vslidedn x _ _ => x.ok
  | .vperm x _ _ => x.ok
  | .vbcast x _ _ => x.ok
  | .vsel x _ => x.m != 0
  | .vcompress x _ _ => x.m != 0
  | .vrsum _ _ _ _ => true
  | .vrmax _ _ _ _ => true
  | .vrmin _ _ _ _ => true
  | .vradd _ _ _ _ => true
  | .vrand _ _ _ _ => true
  | .vcvt x src dst r => cvtOk x src dst r
  | .vcvts x src dst r => cvtOk x src dst r
  | .vld _ _ m u _ => maskOk m u
  | .vlds _ _ _ m u _ => maskOk m u
  | .vldp _ _ m u _ => maskOk m u
  | .vst _ _ _ z n => boundOk z n
  | .vsts _ _ _ _ z n => boundOk z n
  | .vstp _ _ _ z n => boundOk z n
  | .vgather _ _ _ m u _ => maskOk m u
  | .vscatter _ _ _ _ _ => true
  | .madd3 _ _ _ _ r => r.noSr
  | .msub3 _ _ _ _ r => r.noSr
  | .mmul3 _ _ _ _ r => r.noSr
  | .mfma3 _ _ _ _ r => r.noSr
  | .mmin3 _ _ _ _ => true
  | .mmax3 _ _ _ _ => true
  | .vsigm x _ _ => x.ok
  | .vsigr x _ => x.ok
  | .vsigw x _ => x.ok
  | .vsplat _ _ m u _ => maskOk m u
  | .vins _ _ _ _ => true
  | .vext _ _ _ _ => true
  | .vmovv x _ => x.ok
  | .implicitCommit _ => true
  | .issueQuantumExpiry => true
  | .taskDispatch => true
  | .recordPromotion _ => true
  | .watchdogExpiry _ => true
  | .contextRelease _ => true
  | .supervisorResume _ _ => true
  | .contextSave _ => true
  | .contextRestore _ => true
  | .bandRelease _ => true
  | .recordDiscard _ => true
  | .framecfgWrite _ => true
  | .inboxcfgWrite _ => true
  | .framecfgApply => true
  | .inboxcfgApply => true
  | .headpriWrite _ => true
  | .shiftinjWrite _ => true
  | .frmWrite _ _ => true
  | .mxbudgetWrite _ => true
  | .mxgovWrite _ => true
  | .messageAccept r => r.ok
  | .parkTimeout => true
  | .localPostAccept => true
  | .nackReceipt r => r.ok
  | .nackResend _ => true
  | .chunkSend _ => true
  | .remoteLoad r => r.ok
  | .loadReply r => r.ok
  | .remoteStore r => r.ok
  | .remoteAtomic r => r.ok
  | .atomicReply r => r.ok
  | .acknowledgement r => r.ok
  | .errorPacket r => r.ok
  | .poisonedPacket r => r.ok
  | .linkRetry _ => true
  | .sevLatchWrite r => r.ok
  | .countdownDecrement r => r.ok
  | .frameIncrement r => r.ok
  | .frameRelease r => r.ok
  | .landingF32Add r => r.ok
  | .landingBf16Accumulate r => r.ok
  | .landingE4m3Widen r => r.ok
  | .landingStridedScatter r => r.ok
  | .landingTranspose r => r.ok
  | .landingF32Max r => r.ok
  | .landingXor r => r.ok
  | .entryTableWrite r => r.ok
  | .instructionStoreWrite r => r.ok
  | .bootLoad r => r.ok
  | .prickingAppend r => r.ok
  | .gatherDrainTimeout _ => true
  | .headClaimGrant _ => true
  | .bankAligned _ => true
  | .lineTransfer _ => true
  | .trackRemap _ => true
  | .matrixCommandStart => true
  | .kStepComplete => true
  | .tableReread => true
  | .tableGiveUp => true
  | .matrixCommandComplete => true
  | .bucketRefill => true
  | .governorWindow => true
  | .copyCommandStart => true
  | .copyFaultResume => true
  | .copyCommandComplete => true
  | .barrierCompletion b => b.ok
  | .barrierConfigWrite b _ => b.ok
  | .queueControlWrite die _ _ => dieOk die
  | .prickingSelection die => dieOk die
  | .startMessageSend die => dieOk die
  | .taskEndReport => true
  | .coreKill => true
  | .packageReset => true
  | .sprayTreeWrite router _ _ => siteOk router
  | .traceRingControlWrite _ _ _ => true
  | .traceReplayTimeout _ => true
  | .memoryLineWrite pa _ => decide (pa < 0x18000000000)
  | .memoryLineRead pa _ => decide (pa < 0x18000000000)
  | .patrolScrub pa _ => decide (pa < 0x18000000000)
  | .erasureRegisterWrite rank _ => decide (rank < 48)
  | .frameTagWrite frame _ => decide (frame < 0x1800000)
  | .rootTableWrite die _ _ => dieOk die
  | .pageWalk _ _ => true
  | .cycleStretch => true
  | .currentLimit => true
  | .thermalTrip die => dieOk die
  | .thermalClear die => dieOk die
  | .telemetryFrame _ => true
  | .telemetryFrameMissing => true
  | .failsafeEntry => true
  | .failsafeTick => true
  | .measuringWindowClose _ _ _ => true
  | .classRestore => true
  | .hwholdClear => true
  | .classSlowdown _ => true
  | .firmwareWatchdogExpiry => true
  | .firmwareKick => true
  | .pcapWrite _ => true
  | .classfloorWrite _ => true
  | .vcurveWrite _ => true
  | .fcurveWrite _ => true
  | .regWrite _ => true
  | .regRead _ => true
  | .load _ => true
  | .store _ => true
  | .atomic _ => true
  | .launchAppend _ => true
  | .accumulate _ => true
  | .podBarrierArrival _ _ _ => true
  | .podBarrierCompletion _ _ => true
  | .podRemoteAccess _ => true
  | .firmwareUpdate _ => true
  | .hostCredentialInstall _ _ _ _ => true

end Sys2Proof
end

