-- ==== Sys2Proof/Decode.lean ====
section
/-! DEFINITION. The decoder and the encoder of the 32-bit words (R34-R58). decode is total: a word
that is no instruction is none, and executing it is an ILLEGAL trap (R56). decodeRaw reads the
fields and refuses what a single field forbids; the rules of WellFormed are then checked on what was
read. -/
namespace Sys2Proof

/-- Bits [lo+n-1:lo] of a word (R3). -/
def fld (w : IWord) (lo n : Nat) : BitVec n := w.extractLsb' lo n

/-- One bit of a word. -/
def bit (w : IWord) (i : Nat) : Bool := fld w i 1 == 1

/-- x, if b holds. -/
def when (b : Bool) (x : Option Instr) : Option Instr := if b then x else none

/-- Rounding codes (R74). -/
def Rnd.code : Rnd → BitVec 3
  | .rne => 0
  | .rna => 1
  | .rtz => 2
  | .rdn => 3
  | .rup => 4
  | .sr => 5
  | .dyn => 6

/-- The Rnd a code names, if it names one. -/
def Rnd.ofCode (x : BitVec 3) : Option Rnd :=
  match x.toNat with
  | 0 => some .rne
  | 1 => some .rna
  | 2 => some .rtz
  | 3 => some .rdn
  | 4 => some .rup
  | 5 => some .sr
  | 6 => some .dyn
  | _ => none

/-- Precision codes (R40). -/
def Prec.code : Prec → BitVec 1
  | .f32 => 0
  | .f64 => 1

/-- The Prec a code names, if it names one. -/
def Prec.ofCode (x : BitVec 1) : Option Prec :=
  match x.toNat with
  | 0 => some .f32
  | 1 => some .f64
  | _ => none

/-- FP lane type codes (R54). -/
def FTy.code : FTy → BitVec 3
  | .f64 => 0
  | .f32 => 1
  | .bf16 => 2
  | .f16 => 3

/-- The FTy a code names, if it names one. -/
def FTy.ofCode (x : BitVec 3) : Option FTy :=
  match x.toNat with
  | 0 => some .f64
  | 1 => some .f32
  | 2 => some .bf16
  | 3 => some .f16
  | _ => none

/-- Int and Width type codes (R54). -/
def Wd.code : Wd → BitVec 3
  | .w64 => 0
  | .w32 => 1
  | .w16 => 2
  | .w8 => 3

/-- The Wd a code names, if it names one. -/
def Wd.ofCode (x : BitVec 3) : Option Wd :=
  match x.toNat with
  | 0 => some .w64
  | 1 => some .w32
  | 2 => some .w16
  | 3 => some .w8
  | _ => none

/-- Scope codes (R43). -/
def Scope.code : Scope → BitVec 3
  | .core => 0
  | .quad => 1
  | .die => 2
  | .pkg => 3
  | .pod => 4

/-- The Scope a code names, if it names one. -/
def Scope.ofCode (x : BitVec 3) : Option Scope :=
  match x.toNat with
  | 0 => some .core
  | 1 => some .quad
  | 2 => some .die
  | 3 => some .pkg
  | 4 => some .pod
  | _ => none

/-- Ordering codes (R43). -/
def MemOrd.code : MemOrd → BitVec 2
  | .rlx => 0
  | .acq => 1
  | .rel => 2
  | .acqrel => 3

/-- The MemOrd a code names, if it names one. -/
def MemOrd.ofCode (x : BitVec 2) : Option MemOrd :=
  match x.toNat with
  | 0 => some .rlx
  | 1 => some .acq
  | 2 => some .rel
  | 3 => some .acqrel
  | _ => none

/-- Atomic sizes (R43). -/
def Size.code : Size → BitVec 2
  | .w => 2
  | .d => 3

/-- The Size a code names, if it names one. -/
def Size.ofCode (x : BitVec 2) : Option Size :=
  match x.toNat with
  | 2 => some .w
  | 3 => some .d
  | _ => none

/-- Barrier scope codes (R46). -/
def BarScope.code : BarScope → BitVec 3
  | .quad => 1
  | .die => 2
  | .pkg => 3
  | .pod => 4

/-- The BarScope a code names, if it names one. -/
def BarScope.ofCode (x : BitVec 3) : Option BarScope :=
  match x.toNat with
  | 1 => some .quad
  | 2 => some .die
  | 3 => some .pkg
  | 4 => some .pod
  | _ => none

/-- Conversion format codes (R55). -/
def Fmt.code : Fmt → BitVec 5
  | .f64 => 0
  | .f32 => 1
  | .bf16 => 2
  | .f16 => 3
  | .e4m3 => 4
  | .e5m2 => 5
  | .i8 => 8
  | .i16 => 9
  | .i32 => 10
  | .i64 => 11
  | .n8 => 12
  | .n16 => 13
  | .n32 => 14
  | .n64 => 15

/-- The Fmt a code names, if it names one. -/
def Fmt.ofCode (x : BitVec 5) : Option Fmt :=
  match x.toNat with
  | 0 => some .f64
  | 1 => some .f32
  | 2 => some .bf16
  | 3 => some .f16
  | 4 => some .e4m3
  | 5 => some .e5m2
  | 8 => some .i8
  | 9 => some .i16
  | 10 => some .i32
  | 11 => some .i64
  | 12 => some .n8
  | 13 => some .n16
  | 14 => some .n32
  | 15 => some .n64
  | _ => none

/-- System register numbers (R51). -/
def SysReg.code : SysReg → BitVec 13
  | .taskid => 0
  | .coreid => 1
  | .corecount => 2
  | .sigthr => 3
  | .sigmode => 4
  | .sigvec => 5
  | .sigpc => 6
  | .sigop => 7
  | .frm => 8
  | .repstate => 9
  | .tagbase => 10
  | .scalebase5 => 11
  | .scalebase6 => 12
  | .wdbudget => 13
  | .inboxcfg => 14
  | .framecfg => 15
  | .headpri => 16
  | .shiftinj => 17
  | .mxbudget => 18
  | .mxgov => 19
  | .topoev => 20
  | .gen => 21
  | .stackbase => 22
  | .stacklimit => 23
  | .lb1 => 24
  | .lb2 => 25
  | .lb3 => 26
  | .cycles => 27

/-- The SysReg a code names, if it names one. -/
def SysReg.ofCode (x : BitVec 13) : Option SysReg :=
  match x.toNat with
  | 0 => some .taskid
  | 1 => some .coreid
  | 2 => some .corecount
  | 3 => some .sigthr
  | 4 => some .sigmode
  | 5 => some .sigvec
  | 6 => some .sigpc
  | 7 => some .sigop
  | 8 => some .frm
  | 9 => some .repstate
  | 10 => some .tagbase
  | 11 => some .scalebase5
  | 12 => some .scalebase6
  | 13 => some .wdbudget
  | 14 => some .inboxcfg
  | 15 => some .framecfg
  | 16 => some .headpri
  | 17 => some .shiftinj
  | 18 => some .mxbudget
  | 19 => some .mxgov
  | 20 => some .topoev
  | 21 => some .gen
  | 22 => some .stackbase
  | 23 => some .stacklimit
  | 24 => some .lb1
  | 25 => some .lb2
  | 26 => some .lb3
  | 27 => some .cycles
  | _ => none

/-- The lane width of XQ-V from its two-bit sz (R52). -/
def Wd.ofSz (x : BitVec 2) : Option Wd := Wd.ofCode (x.setWidth 3)

/-- A bound register from be and bnd: be = 0 with bnd not 0 is illegal (R49, R52). -/
def boundOf (be : Bool) (bnd : BitVec 3) : Option (Option (BitVec 3)) :=
  if be then some (some bnd) else if bnd == 0 then some none else none

/-- The be bit of a bound field. -/
def beOf : Option (BitVec 3) → BitVec 1
  | none => 0
  | some _ => 1

/-- The bnd bits of a bound field. -/
def bndOf : Option (BitVec 3) → BitVec 3
  | none => 0
  | some b => b


/-- INT (R38, R39, R94). -/
def decodeInt (w : IWord) : Option Instr :=
  match (fld w 0 11).toNat with
  | 0 => some (.add (fld w 21 5) (fld w 16 5) (fld w 11 5))
  | 1 => some (.sub (fld w 21 5) (fld w 16 5) (fld w 11 5))
  | 2 => some (.and (fld w 21 5) (fld w 16 5) (fld w 11 5))
  | 3 => some (.or (fld w 21 5) (fld w 16 5) (fld w 11 5))
  | 4 => some (.xor (fld w 21 5) (fld w 16 5) (fld w 11 5))
  | 5 => some (.andn (fld w 21 5) (fld w 16 5) (fld w 11 5))
  | 6 => some (.orn (fld w 21 5) (fld w 16 5) (fld w 11 5))
  | 7 => some (.sll (fld w 21 5) (fld w 16 5) (fld w 11 5))
  | 8 => some (.srl (fld w 21 5) (fld w 16 5) (fld w 11 5))
  | 9 => some (.sra (fld w 21 5) (fld w 16 5) (fld w 11 5))
  | 10 => some (.rol (fld w 21 5) (fld w 16 5) (fld w 11 5))
  | 11 => some (.ror (fld w 21 5) (fld w 16 5) (fld w 11 5))
  | 12 => some (.slt (fld w 21 5) (fld w 16 5) (fld w 11 5))
  | 13 => some (.sltu (fld w 21 5) (fld w 16 5) (fld w 11 5))
  | 14 => some (.min (fld w 21 5) (fld w 16 5) (fld w 11 5))
  | 15 => some (.max (fld w 21 5) (fld w 16 5) (fld w 11 5))
  | 16 => some (.minu (fld w 21 5) (fld w 16 5) (fld w 11 5))
  | 17 => some (.maxu (fld w 21 5) (fld w 16 5) (fld w 11 5))
  | 18 => some (.mul (fld w 21 5) (fld w 16 5) (fld w 11 5))
  | 19 => some (.mulhi (fld w 21 5) (fld w 16 5) (fld w 11 5))
  | 20 => some (.mulhin (fld w 21 5) (fld w 16 5) (fld w 11 5))
  | 21 => some (.mulhix (fld w 21 5) (fld w 16 5) (fld w 11 5))
  | 22 => some (.quo (fld w 21 5) (fld w 16 5) (fld w 11 5))
  | 23 => some (.quon (fld w 21 5) (fld w 16 5) (fld w 11 5))
  | 24 => some (.rmd (fld w 21 5) (fld w 16 5) (fld w 11 5))
  | 25 => some (.rmdn (fld w 21 5) (fld w 16 5) (fld w 11 5))
  | 26 => when (fld w 11 5 == 0) (some (.clz (fld w 21 5) (fld w 16 5)))
  | 27 => when (fld w 11 5 == 0) (some (.ctz (fld w 21 5) (fld w 16 5)))
  | 28 => when (fld w 11 5 == 0) (some (.popc (fld w 21 5) (fld w 16 5)))
  | 29 => when (fld w 11 5 == 0) (some (.bswap (fld w 21 5) (fld w 16 5)))
  | 30 => when (fld w 11 5 == 0) (some (.sextb (fld w 21 5) (fld w 16 5)))
  | 31 => when (fld w 11 5 == 0) (some (.sexth (fld w 21 5) (fld w 16 5)))
  | 32 => when (fld w 11 5 == 0) (some (.sextw (fld w 21 5) (fld w 16 5)))
  | _ => none

/-- SHI (R39, R97). -/
def decodeShi (w : IWord) : Option Instr :=
  match (fld w 6 2).toNat with
  | 0 => when (fld w 8 8 == 0) (some (.slli (fld w 21 5) (fld w 16 5) (fld w 0 6)))
  | 1 => when (fld w 8 8 == 0) (some (.srli (fld w 21 5) (fld w 16 5) (fld w 0 6)))
  | 2 => when (fld w 8 8 == 0) (some (.srai (fld w 21 5) (fld w 16 5) (fld w 0 6)))
  | _ => none

/-- LIZ and LIK (R39, R98). -/
def decodeLi (w : IWord) : Option Instr :=
  when (fld w 18 2 == 0)
    (if bit w 20 then some (.lik (fld w 21 5) (fld w 16 2) (fld w 0 16))
     else some (.liz (fld w 21 5) (fld w 16 2) (fld w 0 16)))

/-- BMASK (R104). -/
def decodeBmask (w : IWord) : Option Instr :=
  match (fld w 18 3).toNat with
  | 0 => some (.bmaskNone (fld w 21 5) (fld w 0 18))
  | 1 => some (.bmaskAny (fld w 21 5) (fld w 0 18))
  | 2 => some (.bmaskAll (fld w 21 5) (fld w 0 18))
  | 3 => some (.bmaskNonec (fld w 21 5) (fld w 0 18))
  | 4 => some (.bmaskAnyc (fld w 21 5) (fld w 0 18))
  | 5 => some (.bmaskAllc (fld w 21 5) (fld w 0 18))
  | _ => none

/-- FP (R40). -/
def decodeFp (w : IWord) : Option Instr :=
  when (fld w 0 2 == 0) <|
  (Prec.ofCode (fld w 5 1)).bind fun p =>
  match (fld w 6 5).toNat with
  | 0 => (Rnd.ofCode (fld w 2 3)).map fun r => .fadd (fld w 21 5) (fld w 16 5) (fld w 11 5) p r
  | 1 => (Rnd.ofCode (fld w 2 3)).map fun r => .fsub (fld w 21 5) (fld w 16 5) (fld w 11 5) p r
  | 2 => (Rnd.ofCode (fld w 2 3)).map fun r => .fmul (fld w 21 5) (fld w 16 5) (fld w 11 5) p r
  | 3 => (Rnd.ofCode (fld w 2 3)).map fun r => .fdiv (fld w 21 5) (fld w 16 5) (fld w 11 5) p r
  | 4 => when (fld w 11 5 == 0) ((Rnd.ofCode (fld w 2 3)).map fun r => .fsqrt (fld w 21 5) (fld w 16 5) p r)
  | 5 => when (fld w 2 3 == 0) (some (.fmin (fld w 21 5) (fld w 16 5) (fld w 11 5) p))
  | 6 => when (fld w 2 3 == 0) (some (.fmax (fld w 21 5) (fld w 16 5) (fld w 11 5) p))
  | 7 => when (fld w 2 3 == 0) (some (.feq (fld w 21 5) (fld w 16 5) (fld w 11 5) p))
  | 8 => when (fld w 2 3 == 0) (some (.flt (fld w 21 5) (fld w 16 5) (fld w 11 5) p))
  | 9 => when (fld w 2 3 == 0) (some (.fle (fld w 21 5) (fld w 16 5) (fld w 11 5) p))
  | 10 => when (fld w 11 5 == 0) (when (fld w 2 3 == 0) (some (.fclass (fld w 21 5) (fld w 16 5) p)))
  | 11 => when (fld w 2 3 == 0) (some (.fcps (fld w 21 5) (fld w 16 5) (fld w 11 5) p))
  | 12 => when (fld w 2 3 == 0) (some (.fcpsn (fld w 21 5) (fld w 16 5) (fld w 11 5) p))
  | 13 => when (fld w 2 3 == 0) (some (.fcpsx (fld w 21 5) (fld w 16 5) (fld w 11 5) p))
  | 14 => when (fld w 11 5 == 0) ((Rnd.ofCode (fld w 2 3)).map fun r => .fcvti (fld w 21 5) (fld w 16 5) p r)
  | 15 => when (fld w 11 5 == 0) ((Rnd.ofCode (fld w 2 3)).map fun r => .fcvtu (fld w 21 5) (fld w 16 5) p r)
  | 16 => when (fld w 11 5 == 0) ((Rnd.ofCode (fld w 2 3)).map fun r => .fcvtf (fld w 21 5) (fld w 16 5) p r)
  | 17 => when (fld w 11 5 == 0) ((Rnd.ofCode (fld w 2 3)).map fun r => .fcvtfu (fld w 21 5) (fld w 16 5) p r)
  | 18 => when (fld w 11 5 == 0) ((Rnd.ofCode (fld w 2 3)).map fun r => .fcvtp (fld w 21 5) (fld w 16 5) p r)
  | 19 => when (fld w 11 5 == 0) (when (fld w 2 3 == 0) (some (.fsig (fld w 21 5) (fld w 16 5) p)))
  | 20 => when (fld w 2 3 == 0) (some (.fsetsig (fld w 21 5) (fld w 16 5) (fld w 11 5) p))
  | 21 => when (fld w 11 5 == 0) ((Rnd.ofCode (fld w 2 3)).map fun r => .frint (fld w 21 5) (fld w 16 5) p r)
  | 22 => when (fld w 11 5 == 0) (when (fld w 2 3 == 0) (some (.fmvi (fld w 21 5) (fld w 16 5) p)))
  | _ => none

/-- FP4 (R41). -/
def decodeFma (w : IWord) : Option Instr :=
  (Prec.ofCode (fld w 3 1)).bind fun p =>
  (Rnd.ofCode (fld w 0 3)).bind fun r =>
  match (fld w 4 2).toNat with
  | 0 => some (.fma (fld w 21 5) (fld w 16 5) (fld w 11 5) (fld w 6 5) p r)
  | 1 => some (.fms (fld w 21 5) (fld w 16 5) (fld w 11 5) (fld w 6 5) p r)
  | 2 => some (.fnma (fld w 21 5) (fld w 16 5) (fld w 11 5) (fld w 6 5) p r)
  | 3 => some (.fnms (fld w 21 5) (fld w 16 5) (fld w 11 5) (fld w 6 5) p r)
  | _ => none

/-- XQ-A (R43). -/
def decodeAmo (w : IWord) : Option Instr :=
  (Scope.ofCode (fld w 4 3)).bind fun s =>
  (MemOrd.ofCode (fld w 2 2)).bind fun o =>
  (Size.ofCode (fld w 0 2)).bind fun z =>
  match (fld w 7 4).toNat with
  | 0 => some (.aadd (fld w 21 5) (fld w 16 5) (fld w 11 5) s o z)
  | 1 => some (.aand (fld w 21 5) (fld w 16 5) (fld w 11 5) s o z)
  | 2 => some (.aor (fld w 21 5) (fld w 16 5) (fld w 11 5) s o z)
  | 3 => some (.axor (fld w 21 5) (fld w 16 5) (fld w 11 5) s o z)
  | 4 => some (.amin (fld w 21 5) (fld w 16 5) (fld w 11 5) s o z)
  | 5 => some (.amax (fld w 21 5) (fld w 16 5) (fld w 11 5) s o z)
  | 6 => some (.aminu (fld w 21 5) (fld w 16 5) (fld w 11 5) s o z)
  | 7 => some (.amaxu (fld w 21 5) (fld w 16 5) (fld w 11 5) s o z)
  | 8 => some (.aswp (fld w 21 5) (fld w 16 5) (fld w 11 5) s o z)
  | 9 => some (.acas (fld w 21 5) (fld w 16 5) (fld w 11 5) s o z)
  | 10 => some (.afadd (fld w 21 5) (fld w 16 5) (fld w 11 5) s o z)
  | _ => none

/-- FRAME (R42). -/
def decodeFrame (w : IWord) : Option Instr :=
  when (fld w 11 5 == 0) <|
  match (fld w 16 3).toNat with
  | 0 => some (.ldf (fld w 21 5) (fld w 19 2) (fld w 0 11))
  | 1 => some (.stf (fld w 21 5) (fld w 19 2) (fld w 0 11))
  | 2 => some (.ldfa (fld w 21 5) (fld w 19 2) (fld w 0 11))
  | 3 => some (.stfr (fld w 21 5) (fld w 19 2) (fld w 0 11))
  | 4 => some (.fadr (fld w 21 5) (fld w 19 2) (fld w 0 11))
  | _ => none

/-- FRMGMT (R42). -/
def decodeFrmgmt (w : IWord) : Option Instr :=
  when (fld w 0 16 == 0) <|
  match (fld w 16 3).toNat with
  | 0 => when (fld w 21 5 == 0 && fld w 19 2 == 0) (some .fkeep)
  | 1 => when (fld w 21 5 == 0) (some (.fref (fld w 19 2)))
  | 2 => when (fld w 21 5 == 0) (some (.frel (fld w 19 2)))
  | 3 => some (.dspl (fld w 21 5) (fld w 19 2))
  | 4 => some (.dsps (fld w 21 5) (fld w 19 2))
  | _ => none

/-- XQ-T (R44). -/
def decodeTags (w : IWord) : Option Instr :=
  match (fld w 14 2).toNat with
  | 0 => some (.tsave (fld w 21 5) (fld w 16 5) (fld w 0 14))
  | 1 => some (.trestore (fld w 21 5) (fld w 16 5) (fld w 0 14))
  | 2 => some (.vtsave (fld w 21 5) (fld w 16 5) (fld w 0 14))
  | 3 => some (.vtrestore (fld w 21 5) (fld w 16 5) (fld w 0 14))
  | _ => none

/-- XQ-M (R45). -/
def decodeMsg (w : IWord) : Option Instr :=
  match (fld w 3 3).toNat with
  | 0 => when (fld w 0 3 == 0) (some (.send (fld w 21 5) (fld w 16 5) (fld w 11 5) (fld w 6 5)))
  | 1 => when (fld w 0 3 == 0) (some (.sendm (fld w 21 5) (fld w 16 5) (fld w 11 5) (fld w 6 5)))
  | 2 => when (fld w 0 3 == 0 && fld w 21 5 == 0 && fld w 6 5 == 0) (some (.cdec (fld w 16 5) (fld w 11 5)))
  | 3 => when (fld w 1 2 == 0)
      (some (if bit w 0 then .spawnCap (fld w 21 5) (fld w 16 5) (fld w 11 5) (fld w 6 5) else .spawn (fld w 21 5) (fld w 16 5) (fld w 11 5) (fld w 6 5)))
  | 4 => when (fld w 0 3 == 0 && fld w 6 20 == 0) (some .exit)
  | 5 => when (fld w 1 2 == 0 && fld w 6 20 == 0) (some (if bit w 0 then .commitW else .commit))
  | 6 => when (fld w 0 3 == 0 && fld w 6 20 == 0) (some .wfe)
  | 7 => when (fld w 0 3 == 0 && fld w 21 5 == 0 && fld w 6 10 == 0) (some (.sev (fld w 16 5)))
  | _ => none

/-- XQ-S (R46). -/
def decodeSync (w : IWord) : Option Instr :=
  match (fld w 13 3).toNat with
  | 0 => when (fld w 16 10 == 0 && fld w 4 9 == 0) <|
      match (fld w 0 4).toNat with
      | 1 => some .fenceR
      | 2 => some .fenceW
      | 3 => some .fenceRw
      | _ => none
  | 1 => when (fld w 16 10 == 0 && fld w 0 13 == 0) (some .xfence)
  | 2 => when (fld w 16 5 == 0 && fld w 0 4 == 0)
      ((BarScope.ofCode (fld w 10 3)).map fun s => .arrive (fld w 21 5) s (fld w 4 6))
  | 3 => when (fld w 21 5 == 0 && fld w 0 4 == 0)
      ((BarScope.ofCode (fld w 10 3)).map fun s => .wait (fld w 16 5) s (fld w 4 6))
  | 4 => when (fld w 0 4 == 0)
      ((BarScope.ofCode (fld w 10 3)).map fun s => .btest (fld w 21 5) (fld w 16 5) s (fld w 4 6))
  | _ => none

/-- XQ-Q (R47). -/
def decodeQueue (w : IWord) : Option Instr :=
  when (fld w 11 5 == 0 && fld w 0 6 == 0) <|
  match (fld w 6 3).toNat with
  | 0 => when (fld w 21 5 == 0) (some (.qpush (fld w 16 5) (fld w 9 2)))
  | 1 => when (fld w 16 5 == 0) (some (.qpop (fld w 21 5) (fld w 9 2)))
  | 2 => some (.qtry (fld w 21 5) (fld w 16 5) (fld w 9 2))
  | 3 => when (fld w 16 5 == 0) (some (.qcnt (fld w 21 5) (fld w 9 2)))
  | _ => none

/-- XQ-H (R48). -/
def decodeHead (w : IWord) : Option Instr :=
  when (fld w 0 11 == 0) <|
  match (fld w 11 3).toNat with
  | 0 => when (fld w 21 5 == 0) (some (.hbind (fld w 16 5) (fld w 14 2)))
  | 1 => when (fld w 16 10 == 0) (some (.hfree (fld w 14 2)))
  | 2 => when (fld w 21 5 == 0) (some (.seek (fld w 16 5) (fld w 14 2)))
  | 3 => when (fld w 16 10 == 0) (some (.hwait (fld w 14 2)))
  | 4 => when (fld w 16 5 == 0) (some (.rds (fld w 21 5) (fld w 14 2)))
  | 5 => when (fld w 21 5 == 0) (some (.wrs (fld w 16 5) (fld w 14 2)))
  | 6 => when (fld w 16 10 == 0) (some (.rwd (fld w 14 2)))
  | 7 => when (fld w 16 5 == 0) (some (.hstat (fld w 21 5) (fld w 14 2)))
  | _ => none

/-- MATRIX (R49). -/
def decodeMatrix (w : IWord) : Option Instr :=
  match (fld w 14 2).toNat with
  | 0 => when (fld w 21 5 == 0 && fld w 0 14 == 0) (some (.mxc (fld w 16 5)))
  | 1 => when (!bit w 0) ((boundOf (bit w 4) (fld w 1 3)).map fun b =>
      .mxr (fld w 21 5) (fld w 16 5) (fld w 11 3) (fld w 7 4) (bit w 6) (bit w 5) b)
  | 2 => when (fld w 16 10 == 0 && fld w 0 10 == 0) (some (.mxw (fld w 11 3) (bit w 10)))
  | 3 => when (fld w 16 5 == 0 && fld w 0 11 == 0) (some (.mxs (fld w 21 5) (fld w 11 3)))
  | _ => none

/-- COPY (R49). -/
def decodeCopy (w : IWord) : Option Instr :=
  when (fld w 0 14 == 0) <|
  match (fld w 14 2).toNat with
  | 0 => when (fld w 21 5 == 0) (some (.cpc (fld w 16 5)))
  | 1 => when (fld w 16 10 == 0) (some .cpw)
  | 2 => when (fld w 16 5 == 0) (some (.cps (fld w 21 5)))
  | _ => none

/-- XQ-Y (R51). -/
def decodeSys (w : IWord) : Option Instr :=
  match (fld w 13 3).toNat with
  | 0 => when (fld w 16 5 == 0) ((SysReg.ofCode (fld w 0 13)).map fun s => .srr (fld w 21 5) s)
  | 1 => when (fld w 21 5 == 0) ((SysReg.ofCode (fld w 0 13)).map fun s => .srw (fld w 16 5) s)
  | 2 => (SysReg.ofCode (fld w 0 13)).map fun s => .srx (fld w 21 5) (fld w 16 5) s
  | 3 => when (fld w 16 10 == 0) (some (.trap (fld w 0 13)))
  | 4 => when (fld w 16 10 == 0 && fld w 0 13 == 0) (some .sret)
  | 5 => when (fld w 16 10 == 0 && fld w 0 13 == 0) (some .eret)
  | 6 => when (fld w 16 10 == 0 && fld w 0 13 == 0) (some .iflush)
  | _ => none

/-- The operands of a VV word with a second source (R34, R54). -/
def vargs (w : IWord) : VArgs :=
  { d := fld w 21 5, a := fld w 16 5, b := fld w 11 5, s := bit w 10, m := fld w 8 2, u := bit w 7 }

/-- The operands of a VV word without one (R34, R54). -/
def uargs (w : IWord) : UArgs := { d := fld w 21 5, a := fld w 16 5, m := fld w 8 2, u := bit w 7 }

/-- VFARITH (R54, R128). -/
def decodeVfarith (w : IWord) : Option Instr :=
  match (fld w 0 4).toNat with
  | 0 => (FTy.ofCode (fld w 4 3)).map fun t => .vfadd (vargs w) t
  | 1 => (FTy.ofCode (fld w 4 3)).map fun t => .vfsub (vargs w) t
  | 2 => (FTy.ofCode (fld w 4 3)).map fun t => .vfmul (vargs w) t
  | 3 => (FTy.ofCode (fld w 4 3)).map fun t => .vfdiv (vargs w) t
  | 4 => when (fld w 10 6 == 0) ((FTy.ofCode (fld w 4 3)).map fun t => .vfsqrt (uargs w) t)
  | 5 => (FTy.ofCode (fld w 4 3)).map fun t => .vfmin (vargs w) t
  | 6 => (FTy.ofCode (fld w 4 3)).map fun t => .vfmax (vargs w) t
  | 7 => when (fld w 10 6 == 0) ((FTy.ofCode (fld w 4 3)).map fun t => .vfabs (uargs w) t)
  | 8 => when (fld w 10 6 == 0) ((FTy.ofCode (fld w 4 3)).map fun t => .vfneg (uargs w) t)
  | _ => none

/-- VIARITH (R54, R130). -/
def decodeViarith (w : IWord) : Option Instr :=
  match (fld w 0 4).toNat with
  | 0 => (Wd.ofCode (fld w 4 3)).map fun t => .vadd (vargs w) t
  | 1 => (Wd.ofCode (fld w 4 3)).map fun t => .vsub (vargs w) t
  | 2 => (Wd.ofCode (fld w 4 3)).map fun t => .vmul (vargs w) t
  | 3 => (Wd.ofCode (fld w 4 3)).map fun t => .vmulh (vargs w) t
  | 4 => (Wd.ofCode (fld w 4 3)).map fun t => .vand (vargs w) t
  | 5 => (Wd.ofCode (fld w 4 3)).map fun t => .vor (vargs w) t
  | 6 => (Wd.ofCode (fld w 4 3)).map fun t => .vxor (vargs w) t
  | 7 => (Wd.ofCode (fld w 4 3)).map fun t => .vsll (vargs w) t
  | 8 => (Wd.ofCode (fld w 4 3)).map fun t => .vsrl (vargs w) t
  | 9 => (Wd.ofCode (fld w 4 3)).map fun t => .vsra (vargs w) t
  | 10 => (Wd.ofCode (fld w 4 3)).map fun t => .vmin (vargs w) t
  | 11 => (Wd.ofCode (fld w 4 3)).map fun t => .vmax (vargs w) t
  | 12 => (Wd.ofCode (fld w 4 3)).map fun t => .vminu (vargs w) t
  | 13 => (Wd.ofCode (fld w 4 3)).map fun t => .vmaxu (vargs w) t
  | 14 => (Wd.ofCode (fld w 4 3)).map fun t => .vadds (vargs w) t
  | 15 => (Wd.ofCode (fld w 4 3)).map fun t => .vsubs (vargs w) t
  | _ => none

/-- VFMAG (R54, R129). -/
def decodeVfmag (w : IWord) : Option Instr :=
  match (fld w 0 4).toNat with
  | 0 => (FTy.ofCode (fld w 4 3)).map fun t => .vfma (vargs w) t
  | 1 => (FTy.ofCode (fld w 4 3)).map fun t => .vfms (vargs w) t
  | 2 => (FTy.ofCode (fld w 4 3)).map fun t => .vfnma (vargs w) t
  | 3 => (FTy.ofCode (fld w 4 3)).map fun t => .vfnms (vargs w) t
  | 4 => (FTy.ofCode (fld w 4 3)).map fun t => .vdot2 (vargs w) t
  | _ => none

/-- VCMP (R54, R131). -/
def decodeVcmp (w : IWord) : Option Instr :=
  match (fld w 0 4).toNat with
  | 0 => (FTy.ofCode (fld w 4 3)).map fun t => .vfeq (vargs w) t
  | 1 => (FTy.ofCode (fld w 4 3)).map fun t => .vflt (vargs w) t
  | 2 => (FTy.ofCode (fld w 4 3)).map fun t => .vfle (vargs w) t
  | 3 => (Wd.ofCode (fld w 4 3)).map fun t => .veq (vargs w) t
  | 4 => (Wd.ofCode (fld w 4 3)).map fun t => .vne (vargs w) t
  | 5 => (Wd.ofCode (fld w 4 3)).map fun t => .vlt (vargs w) t
  | 6 => (Wd.ofCode (fld w 4 3)).map fun t => .vltu (vargs w) t
  | _ => none

/-- VMASK (R54, R132). -/
def decodeVmask (w : IWord) : Option Instr :=
  match (fld w 0 4).toNat with
  | 0 => when (fld w 7 3 == 0) ((Wd.ofCode (fld w 4 3)).map fun t => .mand (fld w 21 5) (fld w 16 5) (fld w 11 5) (bit w 10) t)
  | 1 => when (fld w 7 3 == 0) ((Wd.ofCode (fld w 4 3)).map fun t => .mor (fld w 21 5) (fld w 16 5) (fld w 11 5) (bit w 10) t)
  | 2 => when (fld w 7 3 == 0) ((Wd.ofCode (fld w 4 3)).map fun t => .mxor (fld w 21 5) (fld w 16 5) (fld w 11 5) (bit w 10) t)
  | 3 => when (fld w 7 3 == 0) ((Wd.ofCode (fld w 4 3)).map fun t => .mandn (fld w 21 5) (fld w 16 5) (fld w 11 5) (bit w 10) t)
  | 4 => when (fld w 7 3 == 0 && fld w 11 5 == 0) ((Wd.ofCode (fld w 4 3)).map fun t => .mnot (fld w 21 5) (fld w 16 5) (bit w 10) t)
  | 5 => when (fld w 7 3 == 0 && fld w 11 5 == 0) ((Wd.ofCode (fld w 4 3)).map fun t => .mpop (fld w 21 5) (fld w 16 5) (bit w 10) t)
  | 6 => when (fld w 7 3 == 0 && fld w 11 5 == 0) ((Wd.ofCode (fld w 4 3)).map fun t => .mfirst (fld w 21 5) (fld w 16 5) (bit w 10) t)
  | 7 => when (fld w 7 3 == 0 && bit w 10 && fld w 16 5 == 0) ((Wd.ofCode (fld w 4 3)).map fun t => .mset (fld w 21 5) (fld w 11 5) t)
  | _ => none

/-- VPERM (R54, R133). -/
def decodeVperm (w : IWord) : Option Instr :=
  match (fld w 0 4).toNat with
  | 0 => when (bit w 10 == true) ((Wd.ofCode (fld w 4 3)).map fun t => .vslideup (uargs w) (fld w 11 5) t)
  | 1 => when (bit w 10 == true) ((Wd.ofCode (fld w 4 3)).map fun t => .vslidedn (uargs w) (fld w 11 5) t)
  | 2 => when (bit w 10 == false) ((Wd.ofCode (fld w 4 3)).map fun t => .vperm (uargs w) (fld w 11 5) t)
  | 3 => when (bit w 10 == true) ((Wd.ofCode (fld w 4 3)).map fun t => .vbcast (uargs w) (fld w 11 5) t)
  | 4 => (Wd.ofCode (fld w 4 3)).map fun t => .vsel (vargs w) t
  | 5 => when (fld w 11 5 == 0) ((Wd.ofCode (fld w 4 3)).map fun t => .vcompress (uargs w) (bit w 10) t)
  | _ => none

/-- VRED (R54, R135). -/
def decodeVred (w : IWord) : Option Instr :=
  match (fld w 0 4).toNat with
  | 0 => when (fld w 10 6 == 0 && !bit w 7) ((FTy.ofCode (fld w 4 3)).map fun t => .vrsum (fld w 21 5) (fld w 16 5) (fld w 8 2) t)
  | 1 => when (fld w 10 6 == 0 && !bit w 7) ((FTy.ofCode (fld w 4 3)).map fun t => .vrmax (fld w 21 5) (fld w 16 5) (fld w 8 2) t)
  | 2 => when (fld w 10 6 == 0 && !bit w 7) ((FTy.ofCode (fld w 4 3)).map fun t => .vrmin (fld w 21 5) (fld w 16 5) (fld w 8 2) t)
  | 3 => when (fld w 10 6 == 0 && !bit w 7) ((Wd.ofCode (fld w 4 3)).map fun t => .vradd (fld w 21 5) (fld w 16 5) (fld w 8 2) t)
  | 4 => when (fld w 10 6 == 0 && !bit w 7) ((Wd.ofCode (fld w 4 3)).map fun t => .vrand (fld w 21 5) (fld w 16 5) (fld w 8 2) t)
  | _ => none

/-- VCVT and VCVTS (R55). -/
def decodeVcvt (w : IWord) : Option Instr :=
  (Fmt.ofCode ((fld w 10 1 ++ fld w 4 3).setWidth 5)).bind fun src =>
  (Fmt.ofCode (fld w 11 5)).bind fun dst =>
  (Rnd.ofCode (fld w 1 3)).bind fun r =>
  some (if bit w 0 then .vcvts (uargs w) src dst r else .vcvt (uargs w) src dst r)

/-- VLD group (R52). -/
def decodeVld (w : IWord) : Option Instr :=
  when (fld w 0 4 == 0) <|
  (Wd.ofSz (fld w 4 2)).bind fun z =>
  match (fld w 9 2).toNat with
  | 0 => when (fld w 11 5 == 0) (some (.vld (fld w 21 5) (fld w 16 5) (fld w 7 2) (bit w 6) z))
  | 1 => some (.vlds (fld w 21 5) (fld w 16 5) (fld w 11 5) (fld w 7 2) (bit w 6) z)
  | 2 => when (fld w 19 2 == 0 && fld w 11 5 == 0) (some (.vldp (fld w 21 5) (fld w 16 3) (fld w 7 2) (bit w 6) z))
  | _ => none

/-- VST group; U = 1 is illegal for stores (R52, R140). -/
def decodeVst (w : IWord) : Option Instr :=
  when (!bit w 6) <|
  (boundOf (bit w 3) (fld w 0 3)).bind fun n =>
  (Wd.ofSz (fld w 4 2)).bind fun z =>
  match (fld w 9 2).toNat with
  | 0 => when (fld w 11 5 == 0) (some (.vst (fld w 21 5) (fld w 16 5) (fld w 7 2) z n))
  | 1 => some (.vsts (fld w 21 5) (fld w 16 5) (fld w 11 5) (fld w 7 2) z n)
  | 2 => when (fld w 19 2 == 0 && fld w 11 5 == 0) (some (.vstp (fld w 21 5) (fld w 16 3) (fld w 7 2) z n))
  | _ => none

/-- VGS (R52, R140). -/
def decodeVgs (w : IWord) : Option Instr :=
  when (fld w 0 4 == 0) <|
  (Wd.ofSz (fld w 4 2)).bind fun z =>
  match (fld w 9 2).toNat with
  | 0 => some (.vgather (fld w 21 5) (fld w 16 5) (fld w 11 5) (fld w 7 2) (bit w 6) z)
  | 1 => when (!bit w 6) (some (.vscatter (fld w 21 5) (fld w 16 5) (fld w 11 5) (fld w 7 2) z))
  | _ => none

/-- MM3 (R53, R146). -/
def decodeMm3 (w : IWord) : Option Instr :=
  when (fld w 0 8 == 0) <|
  (FTy.ofCode (fld w 14 3)).bind fun t =>
  match (fld w 11 3).toNat with
  | 0 => (Rnd.ofCode (fld w 8 3)).map fun r => .madd3 (fld w 23 3) (fld w 20 3) (fld w 17 3) t r
  | 1 => (Rnd.ofCode (fld w 8 3)).map fun r => .msub3 (fld w 23 3) (fld w 20 3) (fld w 17 3) t r
  | 2 => (Rnd.ofCode (fld w 8 3)).map fun r => .mmul3 (fld w 23 3) (fld w 20 3) (fld w 17 3) t r
  | 3 => (Rnd.ofCode (fld w 8 3)).map fun r => .mfma3 (fld w 23 3) (fld w 20 3) (fld w 17 3) t r
  | 4 => when (fld w 8 3 == 0) (some (.mmin3 (fld w 23 3) (fld w 20 3) (fld w 17 3) t))
  | 5 => when (fld w 8 3 == 0) (some (.mmax3 (fld w 23 3) (fld w 20 3) (fld w 17 3) t))
  | _ => none

/-- VSIG (R54, R138). -/
def decodeVsig (w : IWord) : Option Instr :=
  match (fld w 0 4).toNat with
  | 0 => when (bit w 10 == true) ((FTy.ofCode (fld w 4 3)).map fun t => .vsigm (uargs w) (fld w 11 5) t)
  | 1 => when (fld w 10 6 == 0) ((FTy.ofCode (fld w 4 3)).map fun t => .vsigr (uargs w) t)
  | 2 => when (fld w 10 6 == 0) ((FTy.ofCode (fld w 4 3)).map fun t => .vsigw (uargs w) t)
  | _ => none

/-- VMOV (R54, R134). -/
def decodeVmov (w : IWord) : Option Instr :=
  match (fld w 0 4).toNat with
  | 0 => when (bit w 10 && fld w 16 5 == 0) ((Wd.ofCode (fld w 4 3)).map fun t => .vsplat (fld w 21 5) (fld w 11 5) (fld w 8 2) (bit w 7) t)
  | 1 => when (bit w 10 && fld w 7 3 == 0) ((Wd.ofCode (fld w 4 3)).map fun t => .vins (fld w 21 5) (fld w 16 5) (fld w 11 5) t)
  | 2 => when (bit w 10 && fld w 7 3 == 0) ((Wd.ofCode (fld w 4 3)).map fun t => .vext (fld w 21 5) (fld w 16 5) (fld w 11 5) t)
  | 3 => when (fld w 10 6 == 0) ((Wd.ofCode (fld w 4 3)).map fun t => .vmovv (uargs w) t)
  | _ => none

/-- The fields of a word, by its major opcode (R38). -/
def decodeRaw (w : IWord) : Option Instr :=
  match (fld w 26 6).toNat with
  | 0x01 => decodeInt w
  | 0x02 => some (.addi (fld w 21 5) (fld w 16 5) (fld w 0 16))
  | 0x03 => some (.andi (fld w 21 5) (fld w 16 5) (fld w 0 16))
  | 0x04 => some (.ori (fld w 21 5) (fld w 16 5) (fld w 0 16))
  | 0x05 => some (.xori (fld w 21 5) (fld w 16 5) (fld w 0 16))
  | 0x06 => decodeShi w
  | 0x07 => some (.slti (fld w 21 5) (fld w 16 5) (fld w 0 16))
  | 0x08 => some (.sltiu (fld w 21 5) (fld w 16 5) (fld w 0 16))
  | 0x09 => decodeLi w
  | 0x0A => when (fld w 16 5 == 0) (some (.adpc (fld w 21 5) (fld w 0 16)))
  | 0x0B => some (.beq (fld w 21 5) (fld w 16 5) (fld w 0 16))
  | 0x0C => some (.bne (fld w 21 5) (fld w 16 5) (fld w 0 16))
  | 0x0D => some (.blt (fld w 21 5) (fld w 16 5) (fld w 0 16))
  | 0x0E => some (.bge (fld w 21 5) (fld w 16 5) (fld w 0 16))
  | 0x0F => some (.bltu (fld w 21 5) (fld w 16 5) (fld w 0 16))
  | 0x10 => some (.bgeu (fld w 21 5) (fld w 16 5) (fld w 0 16))
  | 0x11 => some (.jal (fld w 0 26))
  | 0x12 => some (.jalr (fld w 21 5) (fld w 16 5) (fld w 0 16))
  | 0x13 => some (.bsig (fld w 21 5) (fld w 15 6) (fld w 0 15))
  | 0x14 => decodeBmask w
  | 0x15 => some (.lb (fld w 21 5) (fld w 16 5) (fld w 0 16))
  | 0x16 => some (.lbu (fld w 21 5) (fld w 16 5) (fld w 0 16))
  | 0x17 => some (.lh (fld w 21 5) (fld w 16 5) (fld w 0 16))
  | 0x18 => some (.lhu (fld w 21 5) (fld w 16 5) (fld w 0 16))
  | 0x19 => some (.lw (fld w 21 5) (fld w 16 5) (fld w 0 16))
  | 0x1A => some (.lwu (fld w 21 5) (fld w 16 5) (fld w 0 16))
  | 0x1B => some (.ld (fld w 21 5) (fld w 16 5) (fld w 0 16))
  | 0x1C => some (.sb (fld w 21 5) (fld w 16 5) (fld w 0 16))
  | 0x1D => some (.sh (fld w 21 5) (fld w 16 5) (fld w 0 16))
  | 0x1E => some (.sw (fld w 21 5) (fld w 16 5) (fld w 0 16))
  | 0x1F => some (.sd (fld w 21 5) (fld w 16 5) (fld w 0 16))
  | 0x20 => decodeFp w
  | 0x21 => decodeFma w
  | 0x22 => decodeAmo w
  | 0x23 => decodeFrame w
  | 0x24 => decodeFrmgmt w
  | 0x25 => decodeTags w
  | 0x26 => decodeMsg w
  | 0x27 => decodeSync w
  | 0x28 => decodeQueue w
  | 0x29 => decodeHead w
  | 0x2A => decodeMatrix w
  | 0x2B => decodeCopy w
  | 0x2C => when (fld w 0 2 == 0) (some (.rep (fld w 21 5) (fld w 17 4) (fld w 12 5) (fld w 7 5) (fld w 2 5)))
  | 0x2D => decodeSys w
  | 0x2E => decodeVfarith w
  | 0x2F => decodeViarith w
  | 0x30 => decodeVfmag w
  | 0x31 => decodeVcmp w
  | 0x32 => decodeVmask w
  | 0x33 => decodeVperm w
  | 0x34 => decodeVred w
  | 0x35 => decodeVcvt w
  | 0x36 => decodeVld w
  | 0x37 => decodeVst w
  | 0x38 => decodeVgs w
  | 0x39 => decodeMm3 w
  | 0x3A => decodeVsig w
  | 0x3B => decodeVmov w
  | _ => none

/-- The instruction a word is, or none where the word is illegal (R56). -/
def decode (w : IWord) : Option Instr := (decodeRaw w).filter Instr.wf

/-- The instruction the decoder reads from an instruction of nbits bits whose bits are w. Every
instruction is one 32-bit word (R34); a shorter row has zeros above its bits. -/
def decodeTableWord (nbits w : Nat) : Option Instr :=
  if nbits ≤ 32 ∧ w < 2 ^ nbits then decode (BitVec.ofNat 32 w) else none

/-! The encoder, format by format (R34). -/

/-- Bits [lo+n-1:lo] of a code. -/
def fldN {k : Nat} (x : BitVec k) (lo n : Nat) : BitVec n := x.extractLsb' lo n

/-- The two-bit sz of a lane width (R52). -/
def Wd.sz (z : Wd) : BitVec 2 := z.code.setWidth 2

/-- A Bool as one bit. -/
def b1 (b : Bool) : BitVec 1 := if b then 1 else 0

def encRR (op : BitVec 6) (d : BitVec 5) (a : BitVec 5) (b : BitVec 5) (fn : BitVec 11) : IWord :=
  (op ++ d ++ a ++ b ++ fn).cast rfl

def encRI (op : BitVec 6) (d : BitVec 5) (a : BitVec 5) (imm : BitVec 16) : IWord :=
  (op ++ d ++ a ++ imm).cast rfl

def encJL (op : BitVec 6) (x : BitVec 26) : IWord :=
  (op ++ x).cast rfl

def encBS (op : BitVec 6) (a : BitVec 5) (t : BitVec 6) (x : BitVec 15) : IWord :=
  (op ++ a ++ t ++ x).cast rfl

def encBM (op : BitVec 6) (v : BitVec 5) (c : BitVec 3) (x : BitVec 18) : IWord :=
  (op ++ v ++ c ++ x).cast rfl

def encShi (op : BitVec 6) (d : BitVec 5) (a : BitVec 5) (z : BitVec 8) (k : BitVec 2) (n : BitVec 6) : IWord :=
  (op ++ d ++ a ++ z ++ k ++ n).cast rfl

def encLi (op : BitVec 6) (d : BitVec 5) (k : BitVec 1) (z : BitVec 2) (q : BitVec 2) (imm : BitVec 16) : IWord :=
  (op ++ d ++ k ++ z ++ q ++ imm).cast rfl

def encFP (op : BitVec 6) (d : BitVec 5) (a : BitVec 5) (b : BitVec 5) (fn : BitVec 5) (p : BitVec 1) (r : BitVec 3) (z : BitVec 2) : IWord :=
  (op ++ d ++ a ++ b ++ fn ++ p ++ r ++ z).cast rfl

def encFM (op : BitVec 6) (d : BitVec 5) (n : BitVec 2) (fn : BitVec 3) (z : BitVec 5) (s : BitVec 11) : IWord :=
  (op ++ d ++ n ++ fn ++ z ++ s).cast rfl

def encFP4 (op : BitVec 6) (d : BitVec 5) (a : BitVec 5) (b : BitVec 5) (c : BitVec 5) (neg : BitVec 2) (p : BitVec 1) (r : BitVec 3) : IWord :=
  (op ++ d ++ a ++ b ++ c ++ neg ++ p ++ r).cast rfl

def encVV (op : BitVec 6) (d : BitVec 5) (a : BitVec 5) (b : BitVec 5) (s : BitVec 1) (m : BitVec 2) (u : BitVec 1) (t : BitVec 3) (fn : BitVec 4) : IWord :=
  (op ++ d ++ a ++ b ++ s ++ m ++ u ++ t ++ fn).cast rfl

def encXA (op : BitVec 6) (d : BitVec 5) (a : BitVec 5) (b : BitVec 5) (fn : BitVec 4) (s : BitVec 3) (o : BitVec 2) (z : BitVec 2) : IWord :=
  (op ++ d ++ a ++ b ++ fn ++ s ++ o ++ z).cast rfl

def encXT (op : BitVec 6) (d : BitVec 5) (a : BitVec 5) (fn : BitVec 2) (imm : BitVec 14) : IWord :=
  (op ++ d ++ a ++ fn ++ imm).cast rfl

def encXM (op : BitVec 6) (d : BitVec 5) (a : BitVec 5) (b : BitVec 5) (c : BitVec 5) (fn : BitVec 3) (f : BitVec 3) : IWord :=
  (op ++ d ++ a ++ b ++ c ++ fn ++ f).cast rfl

def encXS (op : BitVec 6) (d : BitVec 5) (a : BitVec 5) (fn : BitVec 3) (s : BitVec 3) (i : BitVec 6) (k : BitVec 4) : IWord :=
  (op ++ d ++ a ++ fn ++ s ++ i ++ k).cast rfl

def encXQ (op : BitVec 6) (d : BitVec 5) (a : BitVec 5) (z : BitVec 5) (q : BitVec 2) (fn : BitVec 3) (y : BitVec 6) : IWord :=
  (op ++ d ++ a ++ z ++ q ++ fn ++ y).cast rfl

def encXH (op : BitVec 6) (d : BitVec 5) (a : BitVec 5) (h : BitVec 2) (fn : BitVec 3) (z : BitVec 11) : IWord :=
  (op ++ d ++ a ++ h ++ fn ++ z).cast rfl

def encMXR (op : BitVec 6) (d : BitVec 5) (a : BitVec 5) (fn : BitVec 2) (c : BitVec 3) (r : BitVec 4) (h : BitVec 1) (f : BitVec 1) (e : BitVec 1) (b : BitVec 3) (z : BitVec 1) : IWord :=
  (op ++ d ++ a ++ fn ++ c ++ r ++ h ++ f ++ e ++ b ++ z).cast rfl

def encMXW (op : BitVec 6) (d : BitVec 5) (a : BitVec 5) (fn : BitVec 2) (c : BitVec 3) (l : BitVec 1) (z : BitVec 10) : IWord :=
  (op ++ d ++ a ++ fn ++ c ++ l ++ z).cast rfl

def encXP (op : BitVec 6) (c : BitVec 5) (l : BitVec 4) (d : BitVec 5) (a : BitVec 5) (b : BitVec 5) (z : BitVec 2) : IWord :=
  (op ++ c ++ l ++ d ++ a ++ b ++ z).cast rfl

def encXY (op : BitVec 6) (d : BitVec 5) (a : BitVec 5) (fn : BitVec 3) (s : BitVec 13) : IWord :=
  (op ++ d ++ a ++ fn ++ s).cast rfl

def encXV (op : BitVec 6) (v : BitVec 5) (a : BitVec 5) (b : BitVec 5) (fn : BitVec 2) (m : BitVec 2) (u : BitVec 1) (z : BitVec 2) (e : BitVec 1) (n : BitVec 3) : IWord :=
  (op ++ v ++ a ++ b ++ fn ++ m ++ u ++ z ++ e ++ n).cast rfl

def encXVP (op : BitVec 6) (v : BitVec 5) (y : BitVec 2) (p : BitVec 3) (b : BitVec 5) (fn : BitVec 2) (m : BitVec 2) (u : BitVec 1) (z : BitVec 2) (e : BitVec 1) (n : BitVec 3) : IWord :=
  (op ++ v ++ y ++ p ++ b ++ fn ++ m ++ u ++ z ++ e ++ n).cast rfl

def encX3 (op : BitVec 6) (d : BitVec 3) (a : BitVec 3) (b : BitVec 3) (t : BitVec 3) (fn : BitVec 3) (r : BitVec 3) (z : BitVec 8) : IWord :=
  (op ++ d ++ a ++ b ++ t ++ fn ++ r ++ z).cast rfl

def encCvt (op : BitVec 6) (d : BitVec 5) (a : BitVec 5) (b : BitVec 5) (s : BitVec 1) (m : BitVec 2) (u : BitVec 1) (t : BitVec 3) (r : BitVec 3) (k : BitVec 1) : IWord :=
  (op ++ d ++ a ++ b ++ s ++ m ++ u ++ t ++ r ++ k).cast rfl

/-- The word of an instruction; an event has none. -/
def encode : Instr → Option IWord
  | .add d a b => some (encRR 1 d a b 0)
  | .sub d a b => some (encRR 1 d a b 1)
  | .and d a b => some (encRR 1 d a b 2)
  | .or d a b => some (encRR 1 d a b 3)
  | .xor d a b => some (encRR 1 d a b 4)
  | .andn d a b => some (encRR 1 d a b 5)
  | .orn d a b => some (encRR 1 d a b 6)
  | .sll d a b => some (encRR 1 d a b 7)
  | .srl d a b => some (encRR 1 d a b 8)
  | .sra d a b => some (encRR 1 d a b 9)
  | .rol d a b => some (encRR 1 d a b 10)
  | .ror d a b => some (encRR 1 d a b 11)
  | .slt d a b => some (encRR 1 d a b 12)
  | .sltu d a b => some (encRR 1 d a b 13)
  | .min d a b => some (encRR 1 d a b 14)
  | .max d a b => some (encRR 1 d a b 15)
  | .minu d a b => some (encRR 1 d a b 16)
  | .maxu d a b => some (encRR 1 d a b 17)
  | .mul d a b => some (encRR 1 d a b 18)
  | .mulhi d a b => some (encRR 1 d a b 19)
  | .mulhin d a b => some (encRR 1 d a b 20)
  | .mulhix d a b => some (encRR 1 d a b 21)
  | .quo d a b => some (encRR 1 d a b 22)
  | .quon d a b => some (encRR 1 d a b 23)
  | .rmd d a b => some (encRR 1 d a b 24)
  | .rmdn d a b => some (encRR 1 d a b 25)
  | .clz d a => some (encRR 1 d a 0 26)
  | .ctz d a => some (encRR 1 d a 0 27)
  | .popc d a => some (encRR 1 d a 0 28)
  | .bswap d a => some (encRR 1 d a 0 29)
  | .sextb d a => some (encRR 1 d a 0 30)
  | .sexth d a => some (encRR 1 d a 0 31)
  | .sextw d a => some (encRR 1 d a 0 32)
  | .addi d a i => some (encRI 2 d a i)
  | .andi d a i => some (encRI 3 d a i)
  | .ori d a i => some (encRI 4 d a i)
  | .xori d a i => some (encRI 5 d a i)
  | .slli d a n => some (encShi 6 d a 0 0 n)
  | .srli d a n => some (encShi 6 d a 0 1 n)
  | .srai d a n => some (encShi 6 d a 0 2 n)
  | .slti d a i => some (encRI 7 d a i)
  | .sltiu d a i => some (encRI 8 d a i)
  | .liz d q i => some (encLi 9 d 0 0 q i)
  | .lik d q i => some (encLi 9 d 1 0 q i)
  | .adpc d i => some (encRI 10 d 0 i)
  | .beq a b x => some (encRI 11 a b x)
  | .bne a b x => some (encRI 12 a b x)
  | .blt a b x => some (encRI 13 a b x)
  | .bge a b x => some (encRI 14 a b x)
  | .bltu a b x => some (encRI 15 a b x)
  | .bgeu a b x => some (encRI 16 a b x)
  | .jal x => some (encJL 0x11 x)
  | .jalr d a i => some (encRI 18 d a i)
  | .bsig a t x => some (encBS 0x13 a t x)
  | .bmaskNone v x => some (encBM 0x14 v 0 x)
  | .bmaskAny v x => some (encBM 0x14 v 1 x)
  | .bmaskAll v x => some (encBM 0x14 v 2 x)
  | .bmaskNonec v x => some (encBM 0x14 v 3 x)
  | .bmaskAnyc v x => some (encBM 0x14 v 4 x)
  | .bmaskAllc v x => some (encBM 0x14 v 5 x)
  | .lb d a i => some (encRI 21 d a i)
  | .lbu d a i => some (encRI 22 d a i)
  | .lh d a i => some (encRI 23 d a i)
  | .lhu d a i => some (encRI 24 d a i)
  | .lw d a i => some (encRI 25 d a i)
  | .lwu d a i => some (encRI 26 d a i)
  | .ld d a i => some (encRI 27 d a i)
  | .sb d a i => some (encRI 28 d a i)
  | .sh d a i => some (encRI 29 d a i)
  | .sw d a i => some (encRI 30 d a i)
  | .sd d a i => some (encRI 31 d a i)
  | .fadd d a b p r => some (encFP 0x20 d a b 0 p.code r.code 0)
  | .fsub d a b p r => some (encFP 0x20 d a b 1 p.code r.code 0)
  | .fmul d a b p r => some (encFP 0x20 d a b 2 p.code r.code 0)
  | .fdiv d a b p r => some (encFP 0x20 d a b 3 p.code r.code 0)
  | .fsqrt d a p r => some (encFP 0x20 d a 0 4 p.code r.code 0)
  | .fmin d a b p => some (encFP 0x20 d a b 5 p.code 0 0)
  | .fmax d a b p => some (encFP 0x20 d a b 6 p.code 0 0)
  | .feq d a b p => some (encFP 0x20 d a b 7 p.code 0 0)
  | .flt d a b p => some (encFP 0x20 d a b 8 p.code 0 0)
  | .fle d a b p => some (encFP 0x20 d a b 9 p.code 0 0)
  | .fclass d a p => some (encFP 0x20 d a 0 10 p.code 0 0)
  | .fcps d a b p => some (encFP 0x20 d a b 11 p.code 0 0)
  | .fcpsn d a b p => some (encFP 0x20 d a b 12 p.code 0 0)
  | .fcpsx d a b p => some (encFP 0x20 d a b 13 p.code 0 0)
  | .fcvti d a p r => some (encFP 0x20 d a 0 14 p.code r.code 0)
  | .fcvtu d a p r => some (encFP 0x20 d a 0 15 p.code r.code 0)
  | .fcvtf d a p r => some (encFP 0x20 d a 0 16 p.code r.code 0)
  | .fcvtfu d a p r => some (encFP 0x20 d a 0 17 p.code r.code 0)
  | .fcvtp d a p r => some (encFP 0x20 d a 0 18 p.code r.code 0)
  | .fsig d a p => some (encFP 0x20 d a 0 19 p.code 0 0)
  | .fsetsig d a b p => some (encFP 0x20 d a b 20 p.code 0 0)
  | .frint d a p r => some (encFP 0x20 d a 0 21 p.code r.code 0)
  | .fmvi d a p => some (encFP 0x20 d a 0 22 p.code 0 0)
  | .fma d a b c p r => some (encFP4 0x21 d a b c 0 p.code r.code)
  | .fms d a b c p r => some (encFP4 0x21 d a b c 1 p.code r.code)
  | .fnma d a b c p r => some (encFP4 0x21 d a b c 2 p.code r.code)
  | .fnms d a b c p r => some (encFP4 0x21 d a b c 3 p.code r.code)
  | .aadd d a b s o z => some (encXA 0x22 d a b 0 s.code o.code z.code)
  | .aand d a b s o z => some (encXA 0x22 d a b 1 s.code o.code z.code)
  | .aor d a b s o z => some (encXA 0x22 d a b 2 s.code o.code z.code)
  | .axor d a b s o z => some (encXA 0x22 d a b 3 s.code o.code z.code)
  | .amin d a b s o z => some (encXA 0x22 d a b 4 s.code o.code z.code)
  | .amax d a b s o z => some (encXA 0x22 d a b 5 s.code o.code z.code)
  | .aminu d a b s o z => some (encXA 0x22 d a b 6 s.code o.code z.code)
  | .amaxu d a b s o z => some (encXA 0x22 d a b 7 s.code o.code z.code)
  | .aswp d a b s o z => some (encXA 0x22 d a b 8 s.code o.code z.code)
  | .acas d a b s o z => some (encXA 0x22 d a b 9 s.code o.code z.code)
  | .afadd d a b s o z => some (encXA 0x22 d a b 10 s.code o.code z.code)
  | .ldf d n s => some (encFM 0x23 d n 0 0 s)
  | .stf d n s => some (encFM 0x23 d n 1 0 s)
  | .ldfa d n s => some (encFM 0x23 d n 2 0 s)
  | .stfr d n s => some (encFM 0x23 d n 3 0 s)
  | .fadr d n s => some (encFM 0x23 d n 4 0 s)
  | .fkeep => some (encFM 0x24 0 0 0 0 0)
  | .fref n => some (encFM 0x24 0 n 1 0 0)
  | .frel n => some (encFM 0x24 0 n 2 0 0)
  | .dspl d n => some (encFM 0x24 d n 3 0 0)
  | .dsps d n => some (encFM 0x24 d n 4 0 0)
  | .tsave d a i => some (encXT 0x25 d a 0 i)
  | .trestore d a i => some (encXT 0x25 d a 1 i)
  | .vtsave d a i => some (encXT 0x25 d a 2 i)
  | .vtrestore d a i => some (encXT 0x25 d a 3 i)
  | .send d a b c => some (encXM 0x26 d a b c 0 0)
  | .sendm d a b c => some (encXM 0x26 d a b c 1 0)
  | .cdec a b => some (encXM 0x26 0 a b 0 2 0)
  | .spawn d a b c => some (encXM 0x26 d a b c 3 0)
  | .spawnCap d a b c => some (encXM 0x26 d a b c 3 1)
  | .exit => some (encXM 0x26 0 0 0 0 4 0)
  | .commit => some (encXM 0x26 0 0 0 0 5 0)
  | .commitW => some (encXM 0x26 0 0 0 0 5 1)
  | .wfe => some (encXM 0x26 0 0 0 0 6 0)
  | .sev a => some (encXM 0x26 0 a 0 0 7 0)
  | .fenceR => some (encXS 0x27 0 0 0 0 0 1)
  | .fenceW => some (encXS 0x27 0 0 0 0 0 2)
  | .fenceRw => some (encXS 0x27 0 0 0 0 0 3)
  | .xfence => some (encXS 0x27 0 0 1 0 0 0)
  | .arrive d s i => some (encXS 0x27 d 0 2 s.code i 0)
  | .wait a s i => some (encXS 0x27 0 a 3 s.code i 0)
  | .btest d a s i => some (encXS 0x27 d a 4 s.code i 0)
  | .qpush a q => some (encXQ 0x28 0 a 0 q 0 0)
  | .qpop d q => some (encXQ 0x28 d 0 0 q 1 0)
  | .qtry d a q => some (encXQ 0x28 d a 0 q 2 0)
  | .qcnt d q => some (encXQ 0x28 d 0 0 q 3 0)
  | .hbind a h => some (encXH 0x29 0 a h 0 0)
  | .hfree h => some (encXH 0x29 0 0 h 1 0)
  | .seek a h => some (encXH 0x29 0 a h 2 0)
  | .hwait h => some (encXH 0x29 0 0 h 3 0)
  | .rds d h => some (encXH 0x29 d 0 h 4 0)
  | .wrs a h => some (encXH 0x29 0 a h 5 0)
  | .rwd h => some (encXH 0x29 0 0 h 6 0)
  | .hstat d h => some (encXH 0x29 d 0 h 7 0)
  | .mxc a => some (encMXW 0x2A 0 a 0 0 0 0)
  | .mxr d a c r h f b => some (encMXR 0x2A d a 1 c r (b1 h) (b1 f) (beOf b) (bndOf b) 0)
  | .mxw c l => some (encMXW 0x2A 0 0 2 c (b1 l) 0)
  | .mxs d c => some (encMXW 0x2A d 0 3 c 0 0)
  | .cpc a => some (encXT 0x2B 0 a 0 0)
  | .cpw => some (encXT 0x2B 0 0 1 0)
  | .cps d => some (encXT 0x2B d 0 2 0)
  | .rep c l d a b => some (encXP 0x2C c l d a b 0)
  | .srr d s => some (encXY 0x2D d 0 0 s.code)
  | .srw a s => some (encXY 0x2D 0 a 1 s.code)
  | .srx d a s => some (encXY 0x2D d a 2 s.code)
  | .trap c => some (encXY 0x2D 0 0 3 c)
  | .sret => some (encXY 0x2D 0 0 4 0)
  | .eret => some (encXY 0x2D 0 0 5 0)
  | .iflush => some (encXY 0x2D 0 0 6 0)
  | .vfadd x t => some (encVV 46 x.d x.a x.b (b1 x.s) x.m (b1 x.u) t.code 0)
  | .vfsub x t => some (encVV 46 x.d x.a x.b (b1 x.s) x.m (b1 x.u) t.code 1)
  | .vfmul x t => some (encVV 46 x.d x.a x.b (b1 x.s) x.m (b1 x.u) t.code 2)
  | .vfdiv x t => some (encVV 46 x.d x.a x.b (b1 x.s) x.m (b1 x.u) t.code 3)
  | .vfsqrt x t => some (encVV 46 x.d x.a 0 0 x.m (b1 x.u) t.code 4)
  | .vfmin x t => some (encVV 46 x.d x.a x.b (b1 x.s) x.m (b1 x.u) t.code 5)
  | .vfmax x t => some (encVV 46 x.d x.a x.b (b1 x.s) x.m (b1 x.u) t.code 6)
  | .vfabs x t => some (encVV 46 x.d x.a 0 0 x.m (b1 x.u) t.code 7)
  | .vfneg x t => some (encVV 46 x.d x.a 0 0 x.m (b1 x.u) t.code 8)
  | .vadd x t => some (encVV 47 x.d x.a x.b (b1 x.s) x.m (b1 x.u) t.code 0)
  | .vsub x t => some (encVV 47 x.d x.a x.b (b1 x.s) x.m (b1 x.u) t.code 1)
  | .vmul x t => some (encVV 47 x.d x.a x.b (b1 x.s) x.m (b1 x.u) t.code 2)
  | .vmulh x t => some (encVV 47 x.d x.a x.b (b1 x.s) x.m (b1 x.u) t.code 3)
  | .vand x t => some (encVV 47 x.d x.a x.b (b1 x.s) x.m (b1 x.u) t.code 4)
  | .vor x t => some (encVV 47 x.d x.a x.b (b1 x.s) x.m (b1 x.u) t.code 5)
  | .vxor x t => some (encVV 47 x.d x.a x.b (b1 x.s) x.m (b1 x.u) t.code 6)
  | .vsll x t => some (encVV 47 x.d x.a x.b (b1 x.s) x.m (b1 x.u) t.code 7)
  | .vsrl x t => some (encVV 47 x.d x.a x.b (b1 x.s) x.m (b1 x.u) t.code 8)
  | .vsra x t => some (encVV 47 x.d x.a x.b (b1 x.s) x.m (b1 x.u) t.code 9)
  | .vmin x t => some (encVV 47 x.d x.a x.b (b1 x.s) x.m (b1 x.u) t.code 10)
  | .vmax x t => some (encVV 47 x.d x.a x.b (b1 x.s) x.m (b1 x.u) t.code 11)
  | .vminu x t => some (encVV 47 x.d x.a x.b (b1 x.s) x.m (b1 x.u) t.code 12)
  | .vmaxu x t => some (encVV 47 x.d x.a x.b (b1 x.s) x.m (b1 x.u) t.code 13)
  | .vadds x t => some (encVV 47 x.d x.a x.b (b1 x.s) x.m (b1 x.u) t.code 14)
  | .vsubs x t => some (encVV 47 x.d x.a x.b (b1 x.s) x.m (b1 x.u) t.code 15)
  | .vfma x t => some (encVV 48 x.d x.a x.b (b1 x.s) x.m (b1 x.u) t.code 0)
  | .vfms x t => some (encVV 48 x.d x.a x.b (b1 x.s) x.m (b1 x.u) t.code 1)
  | .vfnma x t => some (encVV 48 x.d x.a x.b (b1 x.s) x.m (b1 x.u) t.code 2)
  | .vfnms x t => some (encVV 48 x.d x.a x.b (b1 x.s) x.m (b1 x.u) t.code 3)
  | .vdot2 x t => some (encVV 48 x.d x.a x.b (b1 x.s) x.m (b1 x.u) t.code 4)
  | .vfeq x t => some (encVV 49 x.d x.a x.b (b1 x.s) x.m (b1 x.u) t.code 0)
  | .vflt x t => some (encVV 49 x.d x.a x.b (b1 x.s) x.m (b1 x.u) t.code 1)
  | .vfle x t => some (encVV 49 x.d x.a x.b (b1 x.s) x.m (b1 x.u) t.code 2)
  | .veq x t => some (encVV 49 x.d x.a x.b (b1 x.s) x.m (b1 x.u) t.code 3)
  | .vne x t => some (encVV 49 x.d x.a x.b (b1 x.s) x.m (b1 x.u) t.code 4)
  | .vlt x t => some (encVV 49 x.d x.a x.b (b1 x.s) x.m (b1 x.u) t.code 5)
  | .vltu x t => some (encVV 49 x.d x.a x.b (b1 x.s) x.m (b1 x.u) t.code 6)
  | .mand d a b s t => some (encVV 50 d a b (b1 s) 0 0 t.code 0)
  | .mor d a b s t => some (encVV 50 d a b (b1 s) 0 0 t.code 1)
  | .mxor d a b s t => some (encVV 50 d a b (b1 s) 0 0 t.code 2)
  | .mandn d a b s t => some (encVV 50 d a b (b1 s) 0 0 t.code 3)
  | .mnot d a s t => some (encVV 50 d a 0 (b1 s) 0 0 t.code 4)
  | .mpop d a s t => some (encVV 50 d a 0 (b1 s) 0 0 t.code 5)
  | .mfirst d a s t => some (encVV 50 d a 0 (b1 s) 0 0 t.code 6)
  | .mset d b t => some (encVV 50 d 0 b 1 0 0 t.code 7)
  | .vslideup x b t => some (encVV 51 x.d x.a b 1 x.m (b1 x.u) t.code 0)
  | .vslidedn x b t => some (encVV 51 x.d x.a b 1 x.m (b1 x.u) t.code 1)
  | .vperm x b t => some (encVV 51 x.d x.a b 0 x.m (b1 x.u) t.code 2)
  | .vbcast x b t => some (encVV 51 x.d x.a b 1 x.m (b1 x.u) t.code 3)
  | .vsel x t => some (encVV 51 x.d x.a x.b (b1 x.s) x.m (b1 x.u) t.code 4)
  | .vcompress x s t => some (encVV 51 x.d x.a 0 (b1 s) x.m (b1 x.u) t.code 5)
  | .vrsum d a m t => some (encVV 52 d a 0 0 m 0 t.code 0)
  | .vrmax d a m t => some (encVV 52 d a 0 0 m 0 t.code 1)
  | .vrmin d a m t => some (encVV 52 d a 0 0 m 0 t.code 2)
  | .vradd d a m t => some (encVV 52 d a 0 0 m 0 t.code 3)
  | .vrand d a m t => some (encVV 52 d a 0 0 m 0 t.code 4)
  | .vcvt x src dst r => some (encCvt 0x35 x.d x.a dst.code (fldN src.code 3 1) x.m (b1 x.u) (fldN src.code 0 3) r.code 0)
  | .vcvts x src dst r => some (encCvt 0x35 x.d x.a dst.code (fldN src.code 3 1) x.m (b1 x.u) (fldN src.code 0 3) r.code 1)
  | .vld v a m u z => some (encXV 54 v a 0 0 m (b1 u) z.sz 0 0)
  | .vlds v a b m u z => some (encXV 54 v a b 1 m (b1 u) z.sz 0 0)
  | .vldp v p m u z => some (encXVP 54 v 0 p 0 2 m (b1 u) z.sz 0 0)
  | .vst v a m z n => some (encXV 55 v a 0 0 m 0 z.sz (beOf n) (bndOf n))
  | .vsts v a b m z n => some (encXV 55 v a b 1 m 0 z.sz (beOf n) (bndOf n))
  | .vstp v p m z n => some (encXVP 55 v 0 p 0 2 m 0 z.sz (beOf n) (bndOf n))
  | .vgather v a b m u z => some (encXV 56 v a b 0 m (b1 u) z.sz 0 0)
  | .vscatter v a b m z => some (encXV 56 v a b 1 m 0 z.sz 0 0)
  | .madd3 d a b t r => some (encX3 0x39 d a b t.code 0 r.code 0)
  | .msub3 d a b t r => some (encX3 0x39 d a b t.code 1 r.code 0)
  | .mmul3 d a b t r => some (encX3 0x39 d a b t.code 2 r.code 0)
  | .mfma3 d a b t r => some (encX3 0x39 d a b t.code 3 r.code 0)
  | .mmin3 d a b t => some (encX3 0x39 d a b t.code 4 0 0)
  | .mmax3 d a b t => some (encX3 0x39 d a b t.code 5 0 0)
  | .vsigm x b t => some (encVV 58 x.d x.a b 1 x.m (b1 x.u) t.code 0)
  | .vsigr x t => some (encVV 58 x.d x.a 0 0 x.m (b1 x.u) t.code 1)
  | .vsigw x t => some (encVV 58 x.d x.a 0 0 x.m (b1 x.u) t.code 2)
  | .vsplat d b m u t => some (encVV 59 d 0 b 1 m (b1 u) t.code 0)
  | .vins d a b t => some (encVV 59 d a b 1 0 0 t.code 1)
  | .vext d a b t => some (encVV 59 d a b 1 0 0 t.code 2)
  | .vmovv x t => some (encVV 59 x.d x.a 0 0 x.m (b1 x.u) t.code 3)
  | .implicitCommit _ => none
  | .issueQuantumExpiry => none
  | .taskDispatch => none
  | .recordPromotion _ => none
  | .watchdogExpiry _ => none
  | .contextRelease _ => none
  | .supervisorResume _ _ => none
  | .contextSave _ => none
  | .contextRestore _ => none
  | .bandRelease _ => none
  | .recordDiscard _ => none
  | .framecfgWrite _ => none
  | .inboxcfgWrite _ => none
  | .framecfgApply => none
  | .inboxcfgApply => none
  | .headpriWrite _ => none
  | .shiftinjWrite _ => none
  | .frmWrite _ _ => none
  | .mxbudgetWrite _ => none
  | .mxgovWrite _ => none
  | .messageAccept _ => none
  | .parkTimeout => none
  | .localPostAccept => none
  | .nackReceipt _ => none
  | .nackResend _ => none
  | .chunkSend _ => none
  | .remoteLoad _ => none
  | .loadReply _ => none
  | .remoteStore _ => none
  | .remoteAtomic _ => none
  | .atomicReply _ => none
  | .acknowledgement _ => none
  | .errorPacket _ => none
  | .poisonedPacket _ => none
  | .linkRetry _ => none
  | .sevLatchWrite _ => none
  | .countdownDecrement _ => none
  | .frameIncrement _ => none
  | .frameRelease _ => none
  | .landingF32Add _ => none
  | .landingBf16Accumulate _ => none
  | .landingE4m3Widen _ => none
  | .landingStridedScatter _ => none
  | .landingTranspose _ => none
  | .landingF32Max _ => none
  | .landingXor _ => none
  | .entryTableWrite _ => none
  | .instructionStoreWrite _ => none
  | .bootLoad _ => none
  | .prickingAppend _ => none
  | .gatherDrainTimeout _ => none
  | .headClaimGrant _ => none
  | .bankAligned _ => none
  | .lineTransfer _ => none
  | .trackRemap _ => none
  | .matrixCommandStart => none
  | .kStepComplete => none
  | .tableReread => none
  | .tableGiveUp => none
  | .matrixCommandComplete => none
  | .bucketRefill => none
  | .governorWindow => none
  | .copyCommandStart => none
  | .copyFaultResume => none
  | .copyCommandComplete => none
  | .barrierCompletion _ => none
  | .barrierConfigWrite _ _ => none
  | .queueControlWrite _ _ _ => none
  | .prickingSelection _ => none
  | .startMessageSend _ => none
  | .taskEndReport => none
  | .coreKill => none
  | .packageReset => none
  | .sprayTreeWrite _ _ _ => none
  | .traceRingControlWrite _ _ _ => none
  | .traceReplayTimeout _ => none
  | .memoryLineWrite _ _ => none
  | .memoryLineRead _ _ => none
  | .patrolScrub _ _ => none
  | .erasureRegisterWrite _ _ => none
  | .frameTagWrite _ _ => none
  | .rootTableWrite _ _ _ => none
  | .pageWalk _ _ => none
  | .cycleStretch => none
  | .currentLimit => none
  | .thermalTrip _ => none
  | .thermalClear _ => none
  | .telemetryFrame _ => none
  | .telemetryFrameMissing => none
  | .failsafeEntry => none
  | .failsafeTick => none
  | .measuringWindowClose _ _ _ => none
  | .classRestore => none
  | .hwholdClear => none
  | .classSlowdown _ => none
  | .firmwareWatchdogExpiry => none
  | .firmwareKick => none
  | .pcapWrite _ => none
  | .classfloorWrite _ => none
  | .vcurveWrite _ => none
  | .fcurveWrite _ => none
  | .regWrite _ => none
  | .regRead _ => none
  | .load _ => none
  | .store _ => none
  | .atomic _ => none
  | .launchAppend _ => none
  | .accumulate _ => none
  | .podBarrierArrival _ _ _ => none
  | .podBarrierCompletion _ _ => none
  | .podRemoteAccess _ => none
  | .firmwareUpdate _ => none
  | .hostCredentialInstall _ _ _ _ => none

end Sys2Proof
end

