-- ==== Sys2Proof/Machine/Frame.lean ====
section
/-! DEFINITION. Frame slots (R19, R151, R152), frame references and display registers (R23, R24, R153,
R154), and counts to and from memory (R155). -/
namespace Sys2Proof.Machine

/-- Where a slot lies. -/
inductive SlotAt where
  | here (off : Nat)
  | there (c : CoreId) (off : Nat)
  | fabric (va : Nat)
  deriving DecidableEq, Repr

/-- The slot dn:s, or none where R19 takes ACCESS. DESIGN CHOICE (log entry 108): a fabric frame's slot address that
reaches 2^56 is translated without its high bit; R19, R105 and R151 name no check. Unsafe. -/
def slotAt (s : State) (n : BitVec 2) (slot : BitVec 11) : Option SlotAt :=
  let d := s.dreg n
  if !(dValid d) then none
  else if dKind d = 2 then some (.fabric (dVa d + 8 * slot.toNat))
  else
    let off := dOffset d + 8 * slot.toNat
    if 8 * dSize d ≤ slot.toNat ∨ spTop ≤ off ∨ visible (dCore d) = false then none
    else if dCore d = s.coreId then some (.here off)
    else some (.there (dCore d) off)

/-- LDF (R151). -/
def loadSlot (d : Reg) (n : BitVec 2) (slot : BitVec 11) (s : State) : Out :=
  match slotAt s n slot with
  | none => trapOut s .access
  | some (.here off) => loadLocal s (.g d false) ((List.range 8).map fun i => off + i)
  | some (.there c off) => loadRemote s c (.g d false) ((List.range 8).map fun i => off + i)
  | some (.fabric va) => loadFabric s true (.g d false) va 8

/-- The operation of a frame store: slot 0 carries its marking (R152). -/
def slotOp (slot : BitVec 11) (a : Nat) (x : Word) : Op :=
  if slot = 0 then .slot0 a x else .store (cellsAt a (leBytes 8 x.toNat))

/-- STF (R151, R152). -/
def storeSlot (d : Reg) (n : BitVec 2) (slot : BitVec 11) (s : State) : Out :=
  let x := s.gr d
  match slotAt s n slot with
  | none => trapOut s .access
  | some (.here off) =>
    if slot = 0 then
      atOwnPort s (.scratch s.coreId) 1 off fun t => consuming t .scratch 8 [off] fun u =>
        done (u.modCore fun k => freshWords .scratch [off / 8]
          { k with mem := wrBytes k.mem off (leBytes 8 (mergeSlot0 (rdNat k.mem off 8) x.toNat)) })
    else storeLocal s (cellsAt off (leBytes 8 x.toNat))
  | some (.there c off) => placing s (toCore c off) (slotOp slot off x) done
  | some (.fabric va) =>
    match translate s (ctxTag s.ctx) s.ctx.stacklimit .write va 8 with
    | (.ok pa, t) =>
      placing t ⟨.chan (BitVec.ofNat 5 (chanOf pa)), none, va⟩ (slotOp slot pa x) done
    | (.away pkg, t) => placing t ⟨.chan 0, some pkg, va⟩ (slotOp slot va x) done
    | (r, t) => xlateTrap t va r

/-- LDF (R151). -/
def execLdf (d : Reg) (n : BitVec 2) (slot : BitVec 11) (s : State) : Out := loadSlot d n slot s

/-- STF (R151). -/
def execStf (d : Reg) (n : BitVec 2) (slot : BitVec 11) (s : State) : Out := storeSlot d n slot s

/-- LDFA (R151): its FENCE.R adds nothing in a context that waits for its data. -/
def execLdfa (d : Reg) (n : BitVec 2) (slot : BitVec 11) (s : State) : Out := loadSlot d n slot s

/-- STFR (R151): its checks, translation among them, then FENCE.W, then STF. -/
def execStfr (d : Reg) (n : BitVec 2) (slot : BitVec 11) (s : State) : Out :=
  match slotAt s n slot with
  | none => trapOut s .access
  | some (.here _) | some (.there _ _) => afterFenceW s (storeSlot d n slot)
  | some (.fabric va) =>
    match translate s (ctxTag s.ctx) s.ctx.stacklimit .write va 8 with
    | (.ok _, t) | (.away _, t) => afterFenceW t (storeSlot d n slot)
    | (r, t) => xlateTrap t va r

/-- FADR (R151): no access, no page fault. -/
def execFadr (d : Reg) (n : BitVec 2) (slot : BitVec 11) (s : State) : Out :=
  match slotAt s n slot with
  | none => trapOut s .access
  | some (.here off) => done (s.setG d (BitVec.ofNat 64 (apLocal + off)))
  | some (.there c off) => done (s.setG d (BitVec.ofNat 64 (apRemote + c.toNat * 2 ^ 24 + off)))
  | some (.fabric va) => done (s.setG d (BitVec.ofNat 64 va))

/-! ### References -/

/-- Where a counter operation on the frame of a descriptor goes, with its address there, or how it stops (R19, R317).
DESIGN CHOICE (log entries 64, 92): on a fabric frame it needs the write right; R370 names no right for it. Through a
kind-01 descriptor whose slot 0 lies beyond the scratchpad it is sent, and ends at the home port as at a frame that is
not live; R19 checks the offset of a slot and does not speak of these operations. Unsafe. -/
inductive RefAim where
  | go (a : Aim) (addr : Nat)
  | stop (o : State → Out)

def refAim (s : State) (d : Word) : RefAim × State :=
  if !(dValid d) then (.stop fun t => trapOut t .access, s)
  else if dKind d = 1 then
    if visible (dCore d) then (.go (toCore (dCore d) (dOffset d)) (dOffset d), s)
    else (.stop fun t => trapOut t .access, s)
  else
    match translate s (ctxTag s.ctx) s.ctx.stacklimit .write (dVa d) 8 with
    | (.ok pa, t) => (.go ⟨.chan (BitVec.ofNat 5 (chanOf pa)), none, dVa d⟩ pa, t)
    | (.away pkg, t) => (.go ⟨.chan 0, some pkg, dVa d⟩ (dVa d), t)
    | (r, t) => (.stop fun u => xlateTrap u (dVa d) r, t)

/-- FKEEP (R153). -/
def execFkeep (s : State) : Out :=
  let off := dOffset (s.dreg 0)
  atOwnPort s (.scratch s.coreId) 5 off fun u =>
    consuming u .scratch 8 [off] fun t =>
    let x := rdNat t.core.mem off 8
    if sLv x then done t
    else done (t.modCore fun k => freshWords .scratch [off / 8] { k with mem := wrBytes k.mem off (leBytes 8 (sWith x 1 true)) })

/-- FREF (R154): the increment is placed and its chunk commits; once it is acknowledged the held bit is
set. -/
def execFref (n : BitVec 2) (s : State) : Out :=
  let d := s.dreg n
  match s.ctx.frefWait with
  | some (_, e) =>
    if s.ctx.chunks.any fun k => k.effs.any fun f => f.eid == e then stallOut s
    else done (s.modCtx fun x => { setHeld x n true with frefWait := none, sinceCommit := 0 })
  | none =>
    if !(dValid d) then trapOut s .access
    else if s.heldBit n || !(dCounted d) then done s
    else
      match refAim s d with
      | (.stop o, t) => o t
      | (.go a addr, t) =>
        let e := t.eids
        placing t a (.frameInc addr 1) fun u =>
          stallOut (u.commit.modCtx fun x => { x with frefWait := some (n, e) })

/-- A release of dn's frame placed in the open chunk, the held bit cleared, then k (R24, R154). -/
def releaseD (n : BitVec 2) (s : State) (k : State → Out) : Out :=
  let d := s.dreg n
  match refAim s d with
  | (.stop o, t) => o t
  | (.go a addr, t) =>
    let e := { mkEffect t t.ctx a (.frameRel addr) with drops := some (n, d) }
    match t.place [e] with
    | (u, true) => k (u.modCtx fun x => setHeld x n false)
    | (u, false) => stallOut u

/-- FREL (R154). -/
def execFrel (n : BitVec 2) (s : State) : Out :=
  if s.heldBit n then releaseD n s done else done s

/-- DSPL (R153). -/
def execDspl (d : Reg) (n : BitVec 2) (s : State) : Out := done (s.setG d (s.dreg n))

/-- DSPS (R153): a held reference is released first. -/
def execDsps (d : Reg) (n : BitVec 2) (s : State) : Out :=
  let w := s.gr d
  let put (t : State) : Out := done (t.modCtx fun x => setHeld (setD x n w) n false)
  if s.heldBit n then releaseD n s put else put s

/-! ### Counts and memory (R87, R155) -/

/-- The byte of a count (R87). -/
def countByte (c : Count) : Byte := c.setWidth 8

/-- The counts of g(d) to g(d+7) as held. -/
def gCountBytes (s : State) (d : Reg) : List Byte :=
  (List.range 8).map fun i => countByte (s.grc (d + BitVec.ofNat 5 i))

/-- TSAVE (R155). DESIGN CHOICE (log entry 94): a privileged TSAVE or VTSAVE to an instruction store is ACCESS: R155
makes it a scalar store of its size, R195 lists SW, SD and vector stores alone. Unsafe. -/
def execTsave (d a : Reg) (i : BitVec 14) (s : State) : Out :=
  scalarStore s (s.gr a + i.signExtend 64) (gCountBytes s d) false

/-- TRESTORE (R155). -/
def execTrestore (d a : Reg) (i : BitVec 14) (s : State) : Out :=
  scalarLoad s (s.gr a + i.signExtend 64) 8 (.gcounts d)

/-- VTSAVE (R155); log entry 94. -/
def execVtsave (d a : Reg) (i : BitVec 14) (s : State) : Out :=
  scalarStore s (s.gr a + i.signExtend 64) ((s.vrc d).toList.map countByte) false

/-- VTRESTORE (R155). -/
def execVtrestore (d a : Reg) (i : BitVec 14) (s : State) : Out :=
  scalarLoad s (s.gr a + i.signExtend 64) 32 (.vcounts d)

end Sys2Proof.Machine
end

