-- ==== Sys2Proof/Machine/Message.lean ====
section
/-! DEFINITION. Messages, decrements, endings and events: SEND, SENDM, SPAWN (R156-R158), CDEC (R159),
EXIT (R160, R298), COMMIT (R161), WFE and SEV (R162). -/
namespace Sys2Proof.Machine

/-- H0 as sent (R156): the fields software supplies, the source core, the rest 0. -/
def sendH0 (s : State) (a : Word) (spawn : Bool) : Word :=
  let n := a.toNat
  BitVec.ofNat 64 (nfld n 0 8 + (if spawn then 0 else nfld n 8 4 * 2 ^ 8) + nfld n 15 4 * 2 ^ 15 +
    nfld n 24 8 * 2 ^ 24 + nfld n 32 12 * 2 ^ 32 + s.coreId.toNat * 2 ^ 44)

def sendLen (a : Word) : Nat := nfld a.toNat 24 8
def sendSpray (a : Word) : Bool := a.getLsbD 15
def sendDest (a : Word) : CoreId := a.extractLsb' 32 12

/-- The third check of R157: length, destination, spray. -/
def sendOk (s : State) (a : Word) (spawn cap : Bool) : Bool :=
  decide (sendLen a ≤ (if cap then 31 else 32)) &&
    (if sendSpray a then s.priv && !spawn else visible (sendDest a))

/-- The increments of a SPAWN.cap for d0, d1, d2 (R23): one for each counted descriptor. -/
def spawnIncs (s : State) : List (BitVec 2) → List Effect → (List Effect × State) ⊕ Out
  | [], acc => .inl (acc, s)
  | n :: ns, acc =>
    let d := s.dreg n
    if dCounted d then
      match refAim s d with
      | (.stop o, t) => .inr (o t)
      | (.go a addr, t) =>
        let op := if n = 0 then Op.frameOwn addr else Op.frameInc addr 1
        let e := { mkEffect t t.ctx a op with eid := t.eids + acc.length, ahead := true }
        spawnIncs t ns (acc ++ [e])
    else spawnIncs s ns acc

/-- The capture block of a SPAWN.cap (R158). -/
def spawnCapture (s : State) : Capture :=
  { dsc := #v[s.dreg 0, s.dreg 1, s.dreg 2]
    cntd := (BitVec.ofBool (dCounted (s.dreg 2)) ++ BitVec.ofBool (dCounted (s.dreg 1))) ++
      BitVec.ofBool (dCounted (s.dreg 0)) }

/-- A message with its payload placed as one effect, after the increments before it; gd takes its id
(R156, R157). -/
def sendMsg (d : Reg) (h0 : Word) (arg : Nat) (cls : BitVec 3) (cap : Option Capture) (payload : List Byte)
    (incs : List Effect) (s : State) : Out :=
  let id := nextId s.core.msgId
  let m : Msg :=
    { h0 := h0, h1 := BitVec.ofNat 64 (id.toNat + arg % 2 ^ 32 * 2 ^ 32), cap := cap, payload := payload
      coded := none, cls := cls, priv := s.priv, quad := cls == 1 && quadReach s.ctx, launch := none
      kept := none, arg := 0, tries := 1 }
  let dst : CoreId := if hSpray m then s.coreId else hDest m
  let e := { mkEffect s s.ctx (toCore dst 0) (.msg m) with eid := s.eids + incs.length }
  match s.place (incs ++ [e]) with
  | (t, true) => done ((t.modCore fun k => { k with msgId := id }).setG d (id.setWidth 64))
  | (t, false) => stallOut t

/-- Where the payload of SEND and SPAWN lies, L bytes of the window-0 local aperture (R157), or the trap. -/
def sendPayload (s : State) (a b : Word) (okay : Bool) (k : Nat → Out) : Out :=
  let l := 32 * sendLen a
  if l ≠ 0 ∧ b.toNat % 8 ≠ 0 then trapOut s .align
  else if !okay then trapOut s .access
  else if l = 0 then k 0
  else
    match classify b with
    | .own 0 off => if off + l ≤ spTop then k off else trapOut s .access
    | _ => trapOut s .access

/-- l bytes of the own scratchpad read as a payload, one access at its port (R157, R349, R350), then k. -/
def readPayload (s : State) (off l : Nat) (k : State → List Byte → Out) : Out :=
  if l = 0 then k s []
  else
    atOwnPort s (.scratch s.coreId) 0 off fun u =>
      consuming u .scratch 8 ((List.range l).map fun i => off + i) fun t => k t (rdBytes t.core.mem off l)

/-- A message whose payload of l bytes is read as it enters the hoop, once that has room for it and the increments
before it; else the open chunk commits (R157, R283). -/
def sendFrames (d : Reg) (a c : Word) (cls : BitVec 3) (cap : Option Capture) (incs : List Effect) (off : Nat) (s : State) : Out :=
  let l := 32 * sendLen a
  if hoopUsed s.ctx + effBytes incs + 16 + (if cap.isSome then 32 else 0) + l ≤ 2048 then
    readPayload s off l fun t p => sendMsg d (sendH0 t a (cls == 1)) c.toNat cls cap p incs t
  else stallOut s.commit

/-- SEND (R156, R157). -/
def execSend (d a b c : Reg) (s : State) : Out :=
  sendPayload s (s.gr a) (s.gr b) (sendOk s (s.gr a) false false) fun off => sendFrames d (s.gr a) (s.gr c) 0 none [] off s

/-- SENDM (R157): the payload lies in v(b), v(b+1), ... -/
def execSendm (d a b c : Reg) (s : State) : Out :=
  let l := 32 * sendLen (s.gr a)
  let n := (l + 63) / 64
  if 32 < b.toNat + n then trapOut s .illegal
  else if !(sendOk s (s.gr a) false false) then trapOut s .access
  else
    let bs := ((List.range n).flatMap fun i => vbytes (s.vr (b + BitVec.ofNat 5 i))).take l
    sendMsg d (sendH0 s (s.gr a) false) (s.gr c).toNat 0 none bs [] s

/-- SPAWN (R158). -/
def execSpawn (d a b c : Reg) (s : State) : Out :=
  sendPayload s (s.gr a) (s.gr b) (sendOk s (s.gr a) true false) fun off => sendFrames d (s.gr a) (s.gr c) 1 none [] off s

/-- SPAWN.cap (R23, R158). -/
def execSpawnCap (d a b c : Reg) (s : State) : Out :=
  sendPayload s (s.gr a) (s.gr b) (sendOk s (s.gr a) true true) fun off =>
    match spawnIncs s [0, 1, 2] [] with
    | .inr o => o
    | .inl (incs, t) => sendFrames d (t.gr a) (t.gr c) 1 (some (spawnCapture t)) incs off t

/-! ### CDEC (R159) -/

/-- What a countdown address is: a record of a core, or the trap (R159). -/
inductive CdAim where
  | record (c : CoreId) (off : Nat)
  | bad (c : Cause)
  deriving DecidableEq, Repr

def cdAim (me : CoreId) (a : Word) : CdAim :=
  if a.toNat % 16 ≠ 0 then .bad .align
  else
    match classify a with
    | .own 0 off => .record me off
    | .remote c off => .record c off
    | _ => .bad .access

/-- CDEC (R159). -/
def execCdec (a b : Reg) (s : State) : Out :=
  let n := if b = 0 then 1 else (s.gr b).toNat % 2 ^ 32
  match cdAim s.coreId (s.gr a) with
  | .bad c => trapOut s c
  | .record c off => placing s (toCore c off) (.cdec off n none) done

/-! ### Endings (R24, R160, R170, R298) -/

/-- Whether a context still has matrix or copy commands (R160). -/
def enginesBusy (k : Core) (c : CtxNo) : Bool :=
  !(k.mxq[c.toNat]'(by have := c.isLt; omega)).isEmpty || !(k.cpq[c.toNat]'(by have := c.isLt; omega)).isEmpty ||
    (match k.mxrun with | none => false | some r => decide (r.own = c)) ||
    (match k.cprun with | none => false | some r => decide (r.own = c))

/-- The release of a held display register, if it is held, then k (R24). -/
def releaseIfHeld (n : BitVec 2) (k : State → Out) (s : State) : Out :=
  if s.heldBit n then releaseD n s k else k s

/-- k once the LV of the d0 frame has been read (R191). -/
def readingLv (k : State → Out) (s : State) : Out :=
  match readLv s s.core.cur with
  | (t, true) => killOut t
  | (t, false) => k t

/-- The owner reference of a d0 frame that is live, or is made live by what the task has placed in its hoop (R23),
released, then k (R24); a stall while replay holds the read of its LV back (R350). -/
def releaseOwner (k : State → Out) (s : State) : Out :=
  if lvHeld s s.core.cur then stallOut s else
  let off := dOffset (s.dreg 0)
  if ownerOfD0 s s.core.cur then
    placing s (toCore s.coreId off) (.frameRel off) (readingLv fun t => k (t.modCtx fun x => setD x 0 0))
  else readingLv k s

/-- The exit barrier of the current context's task, if it is a gang member (R298). -/
def exitBar (x : Ctx) : Option (BitVec 6) := x.task.bind fun t => t.launch.bind fun l => l.exitB

/-- A leaving gang member whose effects are all acknowledged signals its arrival and parks (R298). -/
def settle (s : State) (c : CtxNo) : State :=
  let x := s.ctxAt c
  match exitBar x with
  | none => s
  | some id =>
    if x.phase = .leaving ∧ hoopQuiet x = true ∧ drained s (wroteIn c) = true then
      (signalArrival (s.modCtxAt c fun y => { wdStop s.cyc y with phase := .parked })
        (barOf s.coreId .die id) s.coreId).clockUpdate
    else s

/-- Every context of the core in focus that may have waited for the gather buffer looked at again. -/
def settleAll (s : State) : State := ([0, 1, 2, 3] : List CtxNo).foldl settle s

/-- The end of EXIT: the chunk with the releases commits; the task leaves its core, or waits for its gang. -/
def exitLast (s : State) : Out :=
  let t := s.commit
  match exitBar t.ctx with
  | none => .next (leaveCore t t.core.cur)
  | some _ =>
    let u := drainWhere t (wroteIn t.core.cur)
    .next (settle (u.modCtx fun x => { x with phase := .leaving }) u.core.cur)

/-- EXIT (R160). A gang member's d0 frame is dealt with when its exit barrier completes (R298). -/
def execExit (s : State) : Out :=
  if enginesBusy s.core s.core.cur then stallOut s
  else
    let last : State → Out := if (exitBar s.ctx).isSome then exitLast else releaseOwner exitLast
    releaseIfHeld 1 (releaseIfHeld 2 (releaseIfHeld 3 last)) (freeHeads s s.core.cur)

/-- The end of ERET: the record goes to the tail of the band of its original priority (R170). -/
def eretLast (s : State) : Out :=
  let t := s.commit
  let x := t.ctx
  let off := dOffset (x.d[0])
  let t1 := if dKind (x.d[0]) = 1 then t.modCore fun k => freeFrameAt k off else t
  let back (k : Core) : Core :=
    match x.task with
    | none => k
    | some r =>
      { k with inbox := k.inbox ++ [keepD x { r with band := bandOf r.pri, arrived := t.now, since := t.cyc, front := 0 }] }
  .next ((t1.modCore back).modCtx fun y => { wdStop t.cyc y with phase := .ending, task := none })

/-- ERET (R170). -/
def execEret (s : State) : Out :=
  if enginesBusy s.core s.core.cur then stallOut s
  else releaseOwner eretLast (freeHeads s s.core.cur)

/-! ### COMMIT, WFE, SEV -/

/-- COMMIT (R161). -/
def execCommit (s : State) : Out := done s.commit

/-- COMMIT.W (R161): it does not drain the gather buffer. -/
def execCommitW (s : State) : Out :=
  let t := s.commit
  if hoopQuiet t.ctx then done t else stallOut t

/-- WFE (R162). -/
def execWfe (s : State) : Out :=
  if s.ctx.latch then done (s.modCtx fun x => { x with latch := false }) else stallOut s

/-- The latches an SEV names (R162). -/
def sevMask (a : Word) : BitVec 4 := if a.getLsbD 15 then 0xF else 1#4 <<< nfld a.toNat 12 2

/-- Latches of the core in focus set; a context that waits for one may go on. -/
def setLatches (k : Core) (m : BitVec 4) : Core :=
  { k with ctxs := k.ctxs.mapFinIdx fun i x _ => if m.getLsbD i then { x with latch := true, asleep := false } else x }

/-- SEV (R162). -/
def execSev (a : Reg) (s : State) : Out :=
  let w := s.gr a
  let c : CoreId := w.extractLsb' 0 12
  if !(visible c) then trapOut s .access
  else if c = s.coreId then done (s.modCore fun k => setLatches k (sevMask w))
  else placing s (toCore c 0) (.sev (sevMask w)) done

end Sys2Proof.Machine
end

