-- ==== Sys2Proof/Machine/Sync.lean ====
section
/-! DEFINITION. Fences (R163, R164), barriers as a context names them (R165, R304) and the queues
between contexts (R166). -/
namespace Sys2Proof.Machine

/-- FENCE.R (R163): a context waits for each load, so nothing is left to wait for. -/
def execFenceR (s : State) : Out := done s

/-- FENCE.W (R163). -/
def execFenceW (s : State) : Out := afterFenceW s done

/-- FENCE.RW (R163). -/
def execFenceRw (s : State) : Out := afterFenceW s done

/-- XFENCE (R164): a later MXC or CPC of the context issues only after it. -/
def execXfence (s : State) : Out :=
  match xfence s with
  | (t, true) => done t
  | (t, false) => stallOut t

/-! ### Barriers -/

/-- Whether the core in focus may name a barrier (R304). -/
def barUsable (s : State) (n : BarNo) : Bool := (s.bar n).en && isMember s n s.coreId

/-- ARRIVE (R165, R304). DESIGN CHOICE (log entry 118): whether the core may name the barrier is judged before its
fence, so that an ARRIVE that may not traps with its open chunk uncommitted, and once more after it; R165 and R304
give no order. Unsafe. -/
def execArrive (d : Reg) (sc : BarScope) (i : BitVec 6) (s : State) : Out :=
  let n := barOf s.coreId sc i
  if barUsable s n then
    afterFenceW s fun t =>
      if barUsable t n then done (signalArrival (t.setG d (bitW (t.bar n).p)) n t.coreId)
      else trapOut t .access
  else trapOut s .access

/-- A context stalls in WAIT: on a held phase its watchdog stops, and the core's clock may (R165, R385). -/
def waitStall (s : State) (n : BarNo) : State :=
  let t := s.stallAs (.barrier n)
  (if (s.bar n).held then t.modCtx (wdStop t.cyc) else t).clockUpdate

/-- WAIT (R165, R304): one that stalls on the barrier has been issued, and is not judged again. -/
def execWait (a : Reg) (sc : BarScope) (i : BitVec 6) (s : State) : Out :=
  let n := barOf s.coreId sc i
  if barUsable s n || decide (s.ctx.stall = some (.barrier n)) then
    if (s.bar n).p = (s.gr a).getLsbD 0 then .next (waitStall s n) else done s
  else trapOut s .access

/-- BTEST (R165, R304). -/
def execBtest (d a : Reg) (sc : BarScope) (i : BitVec 6) (s : State) : Out :=
  let n := barOf s.coreId sc i
  if barUsable s n then done (s.setG d (bitW ((s.bar n).p != (s.gr a).getLsbD 0)))
  else trapOut s .access

/-! ### Queues -/

def qAt (k : Core) (q : BitVec 2) : List Word := k.q[q.toNat]'(by have := q.isLt; omega)
def setQ (k : Core) (q : BitVec 2) (l : List Word) : Core :=
  { k with q := k.q.set q.toNat l (by have := q.isLt; omega) }

/-- An access of a context at the queue port (R277): a ring logs the number of the queue (log entry 21). -/
def queueSeen (s : State) (c : CtxNo) (kind : Nat) (q : BitVec 2) : Seen := ⟨s.coreId, c.toNat, kind, false, q.toNat, true⟩

/-- What a context stalls for at queue q. -/
def waitsAt (x : Ctx) (q : BitVec 2) : Option QOp :=
  match x.stall with
  | some (.queue p o) => if p = q then some o else none
  | _ => none

/-- The push or pop of context c done by f, if its access is not held by replay (R350). The instruction at hand, of
context me, is counted when it has issued, another one here. -/
def queueDone (me : Option CtxNo) (c : CtxNo) (kind : Nat) (q : BitVec 2) (f : State → State) (s : State) : State :=
  match seenAt s (.queues s.coreId) (queueSeen s c kind q) with
  | none => s
  | some t => (f t).modCtxAt c fun x => if me = some c then nextPc x else countedCtx (nextPc x)

/-- The push that a context stalls for, if there is room. -/
def tryPush (me : Option CtxNo) (q : BitVec 2) (s : State) (c : CtxNo) : State :=
  match waitsAt (s.ctxAt c) q with
  | some (.push x) =>
    if 8 ≤ (qAt s.core q).length then s
    else queueDone me c 1 q (fun t => t.modCore fun k => setQ k q (qAt k q ++ [x])) s
  | some (.pop _) | none => s

/-- The pop that a context stalls for, if there is a value. -/
def tryPop (me : Option CtxNo) (q : BitVec 2) (s : State) (c : CtxNo) : State :=
  match waitsAt (s.ctxAt c) q, qAt s.core q with
  | some (.pop d), x :: rest =>
    queueDone me c 0 q (fun t => (t.modCore fun k => setQ k q rest).modCtxAt c fun y => Machine.setGC y d x 63) s
  | _, _ => s

/-- The pushes, and the pops of some contexts, that stall at a queue, each in ascending context number (R166). -/
def queuePushes (me : Option CtxNo) (q : BitVec 2) (s : State) : State := ([0, 1, 2, 3] : List CtxNo).foldl (tryPush me q) s
def queuePops (me : Option CtxNo) (q : BitVec 2) (p : CtxNo → Bool) (s : State) : State :=
  (([0, 1, 2, 3] : List CtxNo).filter p).foldl (tryPop me q) s

/-- A CYCLE OF A QUEUE (R166): the pushes, then the pops. -/
def queueRound (me : Option CtxNo) (q : BitVec 2) (s : State) : State := queuePops me q (fun _ => true) (queuePushes me q s)

/-- A cycle of every queue of the core in focus but one, whose operations the instruction at hand has made. -/
def queueRounds (but : Option (BitVec 2)) (s : State) : State :=
  (([0, 1, 2, 3] : List (BitVec 2)).filter fun q => decide (but ≠ some q)).foldl (fun t q => queueRound none q t) s

/-- The operation of the current context at a queue, in its place among those that stall there. -/
def queueIssue (q : BitVec 2) (o : QOp) (s : State) : Out := .next (queueRound (some s.core.cur) q (s.stallAs (.queue q o)))

/-- QPUSH (R166). -/
def execQpush (a : Reg) (q : BitVec 2) (s : State) : Out := queueIssue q (.push (s.gr a)) s

/-- QPOP (R166). -/
def execQpop (d : Reg) (q : BitVec 2) (s : State) : Out := queueIssue q (.pop d) s

/-- QTRY (R166): among the pops in its place. -/
def execQtry (d a : Reg) (q : BitVec 2) (s : State) : Out :=
  let c := s.core.cur
  let t := queuePops none q (fun k => decide (k < c)) (queuePushes none q s)
  match seenAt t (.queues t.coreId) (queueSeen t c 0 q) with
  | none => stallOut t
  | some u =>
    let v := match qAt u.core q with
      | [] => u.setG a 0
      | x :: rest => ((u.modCore fun k => setQ k q rest).setG d x).setG a 1
    done (queuePops none q (fun k => decide (c < k)) v)

/-- QCNT (R166): after the pushes and the pops. -/
def execQcnt (d : Reg) (q : BitVec 2) (s : State) : Out :=
  let t := queueRound none q s
  done (t.setG d (BitVec.ofNat 64 (qAt t.core q).length))

end Sys2Proof.Machine
end

