-- ==== Sys2Proof/Machine/Sys.lean ====
section
/-! DEFINITION. System registers (R167, R172) with the write rules of those that have fields (R75, R88,
R193, R207, R224, R243, R244), TRAP (R168), SRET (R169), IFLUSH (R171), and the writes as events of
their own. -/
namespace Sys2Proof.Machine

/-- Rights on a system register (R172). -/
inductive SysAcc where
  | none | ro | rw
  deriving DecidableEq, Repr

def sysAcc (priv : Bool) : SysReg → SysAcc
  | .taskid | .coreid | .corecount | .sigop | .topoev | .cycles => .ro
  | .sigthr | .sigmode | .sigvec | .sigpc | .frm | .repstate | .tagbase | .scalebase5 | .scalebase6 => .rw
  | .inboxcfg | .framecfg | .shiftinj => if priv then .rw else .none
  | .wdbudget | .headpri | .mxbudget | .mxgov | .gen | .stackbase | .stacklimit | .lb1 | .lb2 | .lb3 =>
    if priv then .rw else .ro

/-! ### Values as read -/

def sigmodeBits (m : SigMode) : Word :=
  BitVec.ofNat 64 (m.mode.toNat + b2n m.sticky * 2 ^ 8 + b2n m.inh * 2 ^ 9)

/-- FRAMECFG and INBOXCFG: the layout in force, and PEND (R192, R193). -/
def areaBits (a : Area) : Word :=
  BitVec.ofNat 64 (a.base.toNat + a.size.toNat * 2 ^ 8 + b2n a.pend.isSome * 2 ^ 16)

def injBits (i : Inj) : Word :=
  BitVec.ofNat 64 (i.bank.toNat + i.pos.toNat * 2 ^ 8 + i.ofs.toNat * 2 ^ 16 + b2n i.arm * 2 ^ 20 +
    b2n i.fired * 2 ^ 21)

def budgetBits (b : MxBudget) : Word :=
  BitVec.ofNat 64 (b.rate.toNat + b.cap.toNat * 2 ^ 16 + b2n b.en * 2 ^ 32 + b.bucket.toNat * 2 ^ 40)

/-- MXGOV (R244): while FORCED, EN reads 1. DESIGN CHOICE (log entry 95): a LIMIT of 0, which acts as 1, is shown as
0; R244 says only that it is read as 1. Unsafe. -/
def govBits (g : MxGov) (forced : Bool) : Word :=
  BitVec.ofNat 64 (g.limit.toNat + b2n (g.en || forced) * 2 ^ 16 + b2n forced * 2 ^ 17 + g.stalled.toNat * 2 ^ 32)

/-- A system register as the current context reads it (R172). -/
def sysRead (s : State) (r : SysReg) : Word :=
  let x := s.ctx
  let k := s.core
  match r with
  | .taskid => BitVec.ofNat 64 (s.coreId.toNat + k.cur.toNat * 2 ^ 12 + x.actSeq.toNat * 2 ^ 14)
  | .coreid => BitVec.ofNat 64 (s.coreId.toNat + (s.logicalOf s.coreId).toNat * 2 ^ 16)
  | .corecount => s.count.setWidth 64
  | .sigthr => x.sigthr.setWidth 64
  | .sigmode => sigmodeBits x.sigmode
  | .sigvec => x.sigvec
  | .sigpc => x.sigpc
  | .sigop => x.sigop
  | .frm => x.frm.setWidth 64
  | .repstate => x.rep.setWidth 64
  | .tagbase => x.tagbase
  | .scalebase5 => x.scale5
  | .scalebase6 => x.scale6
  | .wdbudget => k.wdbudget.setWidth 64
  | .inboxcfg => areaBits k.inboxcfg
  | .framecfg => areaBits k.framecfg
  | .headpri => k.headpri.setWidth 64
  | .shiftinj => injBits (moveBanks s).core.inj
  | .mxbudget => budgetBits k.mxbudget
  | .mxgov => govBits k.mxgov s.forced
  | .topoev => s.topoev.setWidth 64
  | .gen => x.gen.setWidth 64
  | .stackbase => x.stackbase
  | .stacklimit => x.stacklimit
  | .lb1 => k.lb[0]
  | .lb2 => k.lb[1]
  | .lb3 => k.lb[2]
  | .cycles => BitVec.ofNat 64 s.cyc

/-! ### Writes -/

/-- FRM (R75): 6 and 7 become 0. -/
def frmOf (x : Word) : BitVec 3 := let r : BitVec 3 := x.extractLsb' 0 3; if 5 < r then 0 else r

/-- SIGMODE (R88): STICKY is cleared by writing 1, INH keeps its value. -/
def sigmodeWrite (m : SigMode) (x : Word) : SigMode :=
  { mode := x.extractLsb' 0 2, sticky := m.sticky && !(x.getLsbD 8), inh := m.inh }

def areasMeet (b1 n1 b2 n2 : Nat) : Bool := decide (b1 < b2 + n2 ∧ b2 < b1 + n1)

/-- A write of FRAMECFG or INBOXCFG (R193): lo is the least SIZE. -/
def areaWrite (mine other : Area) (lo : Nat) (x : Word) : Area :=
  let b : BitVec 8 := x.extractLsb' 0 8
  let n : BitVec 8 := x.extractLsb' 8 8
  let meets (b2 n2 : BitVec 8) : Bool := areasMeet b.toNat n.toNat b2.toNat n2.toNat
  let bad := decide (n.toNat < lo ∨ 192 < n.toNat ∨ 192 < b.toNat + n.toNat) || meets other.base other.size ||
    (match other.pend with | none => false | some p => meets p.1 p.2)
  if bad then mine else { mine with pend := some (b, n) }

/-- SHIFTINJ (R224). -/
def injWrite (i : Inj) (x : Word) : Inj :=
  let o : BitVec 4 := x.extractLsb' 16 4
  { bank := x.extractLsb' 0 8, pos := x.extractLsb' 8 8, ofs := o
    arm := x.getLsbD 20 && !(o == 0) && !(o == 8), fired := i.fired && !(x.getLsbD 21) }

/-- MXBUDGET (R243). -/
def budgetWrite (b : MxBudget) (x : Word) : MxBudget :=
  let cap : BitVec 16 := x.extractLsb' 16 16
  let en := x.getLsbD 32
  { rate := x.extractLsb' 0 16, cap := cap, en := en
    bucket := if en && !b.en then cap.setWidth 24 else b.bucket }

/-- MXGOV (R244): EN and LIMIT are not written while FORCED. -/
def govWrite (g : MxGov) (forced : Bool) (x : Word) : MxGov :=
  { g with
    limit := if forced then g.limit else x.extractLsb' 0 16
    en := if forced then g.en else x.getLsbD 16
    stalled := x.extractLsb' 32 32 }

/-- A write of a system register by the current context (R167, R172). -/
def sysWrite (s : State) (r : SysReg) (w : Word) : State :=
  match r with
  | .taskid | .coreid | .corecount | .sigop | .topoev | .cycles => s
  | .sigthr => s.modCtx fun x => { x with sigthr := w.extractLsb' 0 6 }
  | .sigmode => s.modCtx fun x => { x with sigmode := sigmodeWrite x.sigmode w }
  | .sigvec => s.modCtx fun x => { x with sigvec := w &&& ~~~3 }
  | .sigpc => s.modCtx fun x => { x with sigpc := w }
  | .frm => s.modCtx fun x => { x with frm := frmOf w }
  | .repstate => s.modCtx fun x => { x with rep := w.extractLsb' 0 34 }
  | .tagbase => s.modCtx fun x => { x with tagbase := w }
  | .scalebase5 => s.modCtx fun x => { x with scale5 := w }
  | .scalebase6 => s.modCtx fun x => { x with scale6 := w }
  | .wdbudget => s.modCore fun k => { k with wdbudget := w.extractLsb' 0 6 }
  | .inboxcfg => s.modCore fun k => { k with inboxcfg := areaWrite k.inboxcfg k.framecfg 8 w }
  | .framecfg => s.modCore fun k => { k with framecfg := areaWrite k.framecfg k.inboxcfg 1 w }
  | .headpri => s.modCore fun k => { k with headpri := w.extractLsb' 0 8 }
  | .shiftinj => (moveBanks s).modCore fun k => { k with inj := injWrite k.inj w }
  | .mxbudget => s.modCore fun k => { k with mxbudget := budgetWrite k.mxbudget w }
  | .mxgov => s.modCore fun k => { k with mxgov := govWrite k.mxgov s.forced w }
  | .gen => s.modCtx fun x => { x with gen := w.extractLsb' 0 24 }
  | .stackbase => s.modCtx fun x => { x with stackbase := w }
  | .stacklimit => s.modCtx fun x => { x with stacklimit := w }
  | .lb1 => s.modCore fun k => { k with lb := k.lb.set 0 w }
  | .lb2 => s.modCore fun k => { k with lb := k.lb.set 1 w }
  | .lb3 => s.modCore fun k => { k with lb := k.lb.set 2 w }

/-- SRR (R167). -/
def execSrr (d : Reg) (r : SysReg) (s : State) : Out :=
  match sysAcc s.priv r with
  | .none => trapOut s .access
  | .ro | .rw => done (s.setG d (sysRead s r))

/-- SRW (R167). -/
def execSrw (a : Reg) (r : SysReg) (s : State) : Out :=
  match sysAcc s.priv r with
  | .none | .ro => trapOut s .access
  | .rw => done (sysWrite s r (s.gr a))

/-- SRX (R167): the old value in gd, the new one in the register. -/
def execSrx (d a : Reg) (r : SysReg) (s : State) : Out :=
  match sysAcc s.priv r with
  | .none | .ro => trapOut s .access
  | .rw => done ((sysWrite s r (s.gr a)).setG d (sysRead s r))

/-- TRAP (R168): FENCE.W, then the context is suspended for the supervisor. -/
def execTrap (c : BitVec 13) (s : State) : Out := afterFenceW s fun t => faultOut t (.trap c)

/-- SRET (R150, R169). -/
def execSret (s : State) : Out :=
  let x := s.ctx
  if x.sigmode.inh then
    .next (s.modCtx fun y =>
      let z := { y with sigmode := { y.sigmode with inh := false }, stall := none, asleep := false }
      if repAct z.rep then repNext z z.sigpc else { z with pc := z.sigpc + 4 })
  else trapOut s .illegal

/-- IFLUSH (R171). -/
def execIflush (s : State) : Out := done (s.modCore fun k => { k with icache := [] })

/-! ### The writes that take effect as steps of the core in focus -/

/-- FRAMECFG_WRITE (R192, R193). -/
def execFramecfgWrite (x : Word) (s : State) : Out := .next (sysWrite s .framecfg x)

/-- INBOXCFG_WRITE (R192, R193). -/
def execInboxcfgWrite (x : Word) (s : State) : Out := .next (sysWrite s .inboxcfg x)

/-- HEADPRI_WRITE (R207). -/
def execHeadpriWrite (x : Word) (s : State) : Out := .next (sysWrite s .headpri x)

/-- SHIFTINJ_WRITE (R224). -/
def execShiftinjWrite (x : Word) (s : State) : Out := .next (sysWrite s .shiftinj x)

/-- FRM_WRITE (R75). -/
def execFrmWrite (c : CtxNo) (x : Word) (s : State) : Out :=
  .next (s.modCtxAt c fun y => { y with frm := frmOf x })

/-- MXBUDGET_WRITE (R243). -/
def execMxbudgetWrite (x : Word) (s : State) : Out := .next (sysWrite s .mxbudget x)

/-- MXGOV_WRITE (R244). -/
def execMxgovWrite (x : Word) (s : State) : Out := .next (sysWrite s .mxgov x)

end Sys2Proof.Machine
end

