-- ==== Sys2Proof/Machine/Fetch.lean ====
section
/-! DEFINITION. Fetching (R28, R102, R197) and REP: capture, stagger, the instruction a replay step is
(R57, R148-R150). -/
namespace Sys2Proof

/-- Registers of a vector form raised (R149). -/
def VArgs.raise (f g h : Reg → Reg) (x : VArgs) : VArgs := { x with d := f x.d, a := g x.a, b := h x.b }
def UArgs.raise (f g : Reg → Reg) (x : UArgs) : UArgs := { x with d := f x.d, a := g x.a }

/-- The instruction with its d, a and b registers raised; none for one REP may not capture (R57, R149). -/
def Instr.raise (f g h : Reg → Reg) : Instr → Option Instr
  | .add d a b => some (.add (f d) (g a) (h b))
  | .sub d a b => some (.sub (f d) (g a) (h b))
  | .and d a b => some (.and (f d) (g a) (h b))
  | .or d a b => some (.or (f d) (g a) (h b))
  | .xor d a b => some (.xor (f d) (g a) (h b))
  | .andn d a b => some (.andn (f d) (g a) (h b))
  | .orn d a b => some (.orn (f d) (g a) (h b))
  | .sll d a b => some (.sll (f d) (g a) (h b))
  | .srl d a b => some (.srl (f d) (g a) (h b))
  | .sra d a b => some (.sra (f d) (g a) (h b))
  | .rol d a b => some (.rol (f d) (g a) (h b))
  | .ror d a b => some (.ror (f d) (g a) (h b))
  | .slt d a b => some (.slt (f d) (g a) (h b))
  | .sltu d a b => some (.sltu (f d) (g a) (h b))
  | .min d a b => some (.min (f d) (g a) (h b))
  | .max d a b => some (.max (f d) (g a) (h b))
  | .minu d a b => some (.minu (f d) (g a) (h b))
  | .maxu d a b => some (.maxu (f d) (g a) (h b))
  | .mul d a b => some (.mul (f d) (g a) (h b))
  | .mulhi d a b => some (.mulhi (f d) (g a) (h b))
  | .mulhin d a b => some (.mulhin (f d) (g a) (h b))
  | .mulhix d a b => some (.mulhix (f d) (g a) (h b))
  | .quo d a b => some (.quo (f d) (g a) (h b))
  | .quon d a b => some (.quon (f d) (g a) (h b))
  | .rmd d a b => some (.rmd (f d) (g a) (h b))
  | .rmdn d a b => some (.rmdn (f d) (g a) (h b))
  | .clz d a => some (.clz (f d) (g a))
  | .ctz d a => some (.ctz (f d) (g a))
  | .popc d a => some (.popc (f d) (g a))
  | .bswap d a => some (.bswap (f d) (g a))
  | .sextb d a => some (.sextb (f d) (g a))
  | .sexth d a => some (.sexth (f d) (g a))
  | .sextw d a => some (.sextw (f d) (g a))
  | .addi d a i => some (.addi (f d) (g a) i)
  | .andi d a i => some (.andi (f d) (g a) i)
  | .ori d a i => some (.ori (f d) (g a) i)
  | .xori d a i => some (.xori (f d) (g a) i)
  | .slli d a n => some (.slli (f d) (g a) n)
  | .srli d a n => some (.srli (f d) (g a) n)
  | .srai d a n => some (.srai (f d) (g a) n)
  | .slti d a i => some (.slti (f d) (g a) i)
  | .sltiu d a i => some (.sltiu (f d) (g a) i)
  | .liz d q i => some (.liz (f d) q i)
  | .lik d q i => some (.lik (f d) q i)
  | .adpc d i => some (.adpc (f d) i)
  | .fadd d a b p r => some (.fadd (f d) (g a) (h b) p r)
  | .fsub d a b p r => some (.fsub (f d) (g a) (h b) p r)
  | .fmul d a b p r => some (.fmul (f d) (g a) (h b) p r)
  | .fdiv d a b p r => some (.fdiv (f d) (g a) (h b) p r)
  | .fsqrt d a p r => some (.fsqrt (f d) (g a) p r)
  | .fmin d a b p => some (.fmin (f d) (g a) (h b) p)
  | .fmax d a b p => some (.fmax (f d) (g a) (h b) p)
  | .feq d a b p => some (.feq (f d) (g a) (h b) p)
  | .flt d a b p => some (.flt (f d) (g a) (h b) p)
  | .fle d a b p => some (.fle (f d) (g a) (h b) p)
  | .fclass d a p => some (.fclass (f d) (g a) p)
  | .fcps d a b p => some (.fcps (f d) (g a) (h b) p)
  | .fcpsn d a b p => some (.fcpsn (f d) (g a) (h b) p)
  | .fcpsx d a b p => some (.fcpsx (f d) (g a) (h b) p)
  | .fcvti d a p r => some (.fcvti (f d) (g a) p r)
  | .fcvtu d a p r => some (.fcvtu (f d) (g a) p r)
  | .fcvtf d a p r => some (.fcvtf (f d) (g a) p r)
  | .fcvtfu d a p r => some (.fcvtfu (f d) (g a) p r)
  | .fcvtp d a p r => some (.fcvtp (f d) (g a) p r)
  | .fsig d a p => some (.fsig (f d) (g a) p)
  | .fsetsig d a b p => some (.fsetsig (f d) (g a) (h b) p)
  | .frint d a p r => some (.frint (f d) (g a) p r)
  | .fmvi d a p => some (.fmvi (f d) (g a) p)
  | .fma d a b c p r => some (.fma (f d) (g a) (h b) c p r)
  | .fms d a b c p r => some (.fms (f d) (g a) (h b) c p r)
  | .fnma d a b c p r => some (.fnma (f d) (g a) (h b) c p r)
  | .fnms d a b c p r => some (.fnms (f d) (g a) (h b) c p r)
  | .vfadd x t => some (.vfadd (x.raise f g h) t)
  | .vfsub x t => some (.vfsub (x.raise f g h) t)
  | .vfmul x t => some (.vfmul (x.raise f g h) t)
  | .vfdiv x t => some (.vfdiv (x.raise f g h) t)
  | .vfsqrt x t => some (.vfsqrt (x.raise f g) t)
  | .vfmin x t => some (.vfmin (x.raise f g h) t)
  | .vfmax x t => some (.vfmax (x.raise f g h) t)
  | .vfabs x t => some (.vfabs (x.raise f g) t)
  | .vfneg x t => some (.vfneg (x.raise f g) t)
  | .vadd x t => some (.vadd (x.raise f g h) t)
  | .vsub x t => some (.vsub (x.raise f g h) t)
  | .vmul x t => some (.vmul (x.raise f g h) t)
  | .vmulh x t => some (.vmulh (x.raise f g h) t)
  | .vand x t => some (.vand (x.raise f g h) t)
  | .vor x t => some (.vor (x.raise f g h) t)
  | .vxor x t => some (.vxor (x.raise f g h) t)
  | .vsll x t => some (.vsll (x.raise f g h) t)
  | .vsrl x t => some (.vsrl (x.raise f g h) t)
  | .vsra x t => some (.vsra (x.raise f g h) t)
  | .vmin x t => some (.vmin (x.raise f g h) t)
  | .vmax x t => some (.vmax (x.raise f g h) t)
  | .vminu x t => some (.vminu (x.raise f g h) t)
  | .vmaxu x t => some (.vmaxu (x.raise f g h) t)
  | .vadds x t => some (.vadds (x.raise f g h) t)
  | .vsubs x t => some (.vsubs (x.raise f g h) t)
  | .vfma x t => some (.vfma (x.raise f g h) t)
  | .vfms x t => some (.vfms (x.raise f g h) t)
  | .vfnma x t => some (.vfnma (x.raise f g h) t)
  | .vfnms x t => some (.vfnms (x.raise f g h) t)
  | .vdot2 x t => some (.vdot2 (x.raise f g h) t)
  | .vfeq x t => some (.vfeq (x.raise f g h) t)
  | .vflt x t => some (.vflt (x.raise f g h) t)
  | .vfle x t => some (.vfle (x.raise f g h) t)
  | .veq x t => some (.veq (x.raise f g h) t)
  | .vne x t => some (.vne (x.raise f g h) t)
  | .vlt x t => some (.vlt (x.raise f g h) t)
  | .vltu x t => some (.vltu (x.raise f g h) t)
  | .mand d a b s t => some (.mand (f d) (g a) (h b) s t)
  | .mor d a b s t => some (.mor (f d) (g a) (h b) s t)
  | .mxor d a b s t => some (.mxor (f d) (g a) (h b) s t)
  | .mandn d a b s t => some (.mandn (f d) (g a) (h b) s t)
  | .mnot d a s t => some (.mnot (f d) (g a) s t)
  | .mpop d a s t => some (.mpop (f d) (g a) s t)
  | .mfirst d a s t => some (.mfirst (f d) (g a) s t)
  | .mset d b t => some (.mset (f d) (h b) t)
  | .vslideup x b t => some (.vslideup (x.raise f g) (h b) t)
  | .vslidedn x b t => some (.vslidedn (x.raise f g) (h b) t)
  | .vperm x b t => some (.vperm (x.raise f g) (h b) t)
  | .vbcast x b t => some (.vbcast (x.raise f g) (h b) t)
  | .vsel x t => some (.vsel (x.raise f g h) t)
  | .vcompress x s t => some (.vcompress (x.raise f g) s t)
  | .vrsum d a m t => some (.vrsum (f d) (g a) m t)
  | .vrmax d a m t => some (.vrmax (f d) (g a) m t)
  | .vrmin d a m t => some (.vrmin (f d) (g a) m t)
  | .vradd d a m t => some (.vradd (f d) (g a) m t)
  | .vrand d a m t => some (.vrand (f d) (g a) m t)
  | .vcvt x src dst r => some (.vcvt (x.raise f g) src dst r)
  | .vcvts x src dst r => some (.vcvts (x.raise f g) src dst r)
  | .madd3 d a b t r => some (.madd3 d a b t r)
  | .msub3 d a b t r => some (.msub3 d a b t r)
  | .mmul3 d a b t r => some (.mmul3 d a b t r)
  | .mfma3 d a b t r => some (.mfma3 d a b t r)
  | .mmin3 d a b t => some (.mmin3 d a b t)
  | .mmax3 d a b t => some (.mmax3 d a b t)
  | .vsigm x b t => some (.vsigm (x.raise f g) (h b) t)
  | .vsigr x t => some (.vsigr (x.raise f g) t)
  | .vsigw x t => some (.vsigw (x.raise f g) t)
  | _ => none

end Sys2Proof

namespace Sys2Proof.Machine

/-- What a fetch finds. -/
inductive Fetched where
  | word (w : IWord)
  | trap (c : Cause) (contained : Bool)
  /-- The page is not present (R28, R370). -/
  | absent
  | miss
  /-- An access that replay holds back (R350): the fetch is tried again. -/
  | held
  /-- An uncorrectable error, which kills the core (R197). -/
  | lost
  deriving DecidableEq, Repr

/-- The word at an address as the current context fetches it, and the state after (R102, R197). DESIGN CHOICE (log
entry 65): the guard below the stack does not cover fetches; R179 speaks of the address of the access, R102 names no
guard. Unsafe. -/
def fetchAt (s : State) (a : Word) : Fetched × State :=
  if a.toNat % 4 ≠ 0 then (.trap .align false, s)
  else
    match classify a with
    | .ownI off =>
      match seenAt s (.istore s.coreId) (ownSeen s 0 off) with
      | none => (.held, s)
      | some t =>
        match t.consume .istore (wordsOf 4 [off]) with
        | (u, true) => (.lost, u)
        | (u, false) => (.word (BitVec.ofNat 32 (rdNat u.core.istore off 4)), u)
    | .fabric va =>
      match s.core.icache.find? fun l => l.va == va / 64 * 64 && decide (l.gen = s.ctx.gen) with
      | some l => (.word (BitVec.ofNat 32 (leNat ((l.bytes.drop (va % 64)).take 4))), s)
      | none =>
        match translate s (ctxTag s.ctx) 0 .fetch va 4 with
        | (.access c, t) => (.trap .access c, t)
        | (.stale, t) => (.trap .staleGen false, t)
        | (.held, t) => (.held, t)
        | (.pageFault, t) => (.absent, t)
        | (.ok _, t) | (.away _, t) => (.miss, t)
    | .own _ _ | .remote _ _ | .remI _ _ | .remE _ _ | .none => (.trap .access false, s)

/-- The word of an instruction that has been issued and stalls, which is not fetched again; where its line of far code
has left the instruction cache it is. -/
def refetch (s : State) (a : Word) : Fetched × State :=
  match classify a with
  | .ownI off => (.word (BitVec.ofNat 32 (rdNat s.core.istore off 4)), s)
  | _ => fetchAt s a

/-- Whether the instruction at hand has been issued: it stalls, and not for its fetch. -/
def issuedYet (x : Ctx) : Bool := match x.stall with | none | some .fetch => false | some _ => true

/-- A line put into the instruction cache; the oldest of 256 lines gives way (R197; log entry 45). -/
def cacheLine (k : Core) (va : Nat) (gen : BitVec 24) (bytes : List Byte) : Core :=
  let old := k.icache.filter fun l => !(l.va == va && decide (l.gen = gen))
  { k with icache := (old ++ [({ va := va, gen := gen, bytes := bytes } : ILine)]).drop (old.length - 255) }

/-- How the service of a fetch miss ends: the context fetches again, or takes a trap, or its core is lost. -/
inductive Filled where
  | again (s : State)
  | trap (s : State) (c : Cause) (contained : Bool)
  | lost (s : State)
  deriving DecidableEq, Repr

/-- The line of far code at an address brought into the instruction cache, where the page may be fetched
(R28, R197): the service of a fetch miss; none while replay holds its read back (R350). Without a route, and where
the frame tag rejects the fetch at the channel, it traps (R353, R373); poison kills the core (R367). -/
def fillLine (s : State) (c : CtxNo) (va : Nat) : Option Filled :=
  let x := s.ctxAt c
  match translate s (ctxTag x) 0 .fetch va 4 with
  | (.ok pa, t) =>
    let as := (List.range 64).map fun i => pa / 64 * 64 + i
    if chanCut t pa then some (.trap t .access true)
    else
      (seenAt t (.chan (BitVec.ofNat 5 (chanOf pa))) ⟨t.coreId, c.toNat, 0, false, va / 64 * 64, false⟩).map fun u =>
        if !(frameOk u (ctxTag x) pa) then .trap u .staleGen false
        else
          match chanRead u as with
          | none => .lost (killCore u)
          | some bs => .again ((countReads u as).modCore fun k => cacheLine k (va / 64 * 64) x.gen bs)
  | (.held, _) => none
  | (_, t) => some (.again t)

/-- Whether a word has an arithmetic opcode, which REP may capture (R57). -/
def arithOp (w : IWord) : Bool :=
  let o := (w.extractLsb' 26 6).toNat
  decide ((1 ≤ o ∧ o ≤ 0x0A) ∨ o = 0x20 ∨ o = 0x21 ∨ (0x2E ≤ o ∧ o ≤ 0x35) ∨ o = 0x39 ∨ o = 0x3A)

/-- n more words after a REP and those it has captured, fetched and checked (R57, R148), or how the REP ends: a trap
leaves REPSTATE at 0 (R57); while replay holds a word back, those before it stay captured (R350). -/
def capture (s : State) (pc : Word) : Nat → List IWord → (List IWord × State) ⊕ Out
  | 0, ws => .inl (ws, s)
  | n + 1, ws =>
    let a := pc + BitVec.ofNat 64 (4 * (ws.length + 1))
    let trapAt (t : State) (c : Cause) (k : Bool) : Out :=
      let u := t.modCtx fun x => { x with pc := a, rep := 0 }
      .next (abortWith u u.core.cur c k [])
    let suspend (t : State) (w : Suspend) : Out := faultOut (t.modCtx fun x => { x with caught := [] }) w
    match fetchAt s a with
    | (.trap c k, t) => .inr (trapAt t c k)
    | (.absent, t) => .inr (suspend t (.pageFault a))
    | (.miss, t) => .inr (suspend t (.fetchMiss a))
    | (.held, t) => .inr (stallOut (t.modCtx fun x => { x with caught := ws }))
    | (.lost, t) => .inr (killOut t)
    | (.word w, t) => if arithOp w then capture t pc n (ws ++ [w]) else .inr (trapAt t .illegal false)

/-- REPSTATE at the first step (R150). -/
def repStart (c : BitVec 5) (l : BitVec 4) (d a b : BitVec 5) : BitVec 34 :=
  BitVec.ofNat 34 (c.toNat + l.toNat * 2 ^ 5 + d.toNat * 2 ^ 9 + a.toNat * 2 ^ 14 + b.toNat * 2 ^ 19 + 2 ^ 33)

/-- REP (R57, R148). -/
def execRep (c : BitVec 5) (l : BitVec 4) (d a b : BitVec 5) (s : State) : Out :=
  if s.ctx.sigmode.inh then trapOut s .illegal
  else
    match capture s s.ctx.pc (l.toNat + 1 - s.ctx.caught.length) s.ctx.caught with
    | .inr o => o
    | .inl (ws, t) =>
      .next (t.modCtx fun x =>
        { x with rep := repStart c l d a b, body := ws, caught := [], replaying := true, pc := x.pc + 4
                 stall := none, asleep := false })

/-- A step of a replay with its registers raised (R149); none is an ILLEGAL step. -/
def raised (r : BitVec 34) (w : IWord) : Option Instr :=
  let up (lo : Nat) (x : Reg) : Reg := BitVec.ofNat 5 (x.toNat + repIter r * nfld r.toNat lo 5)
  (((decode w).bind (Instr.raise (up 9) (up 14) (up 19))).filter Instr.wf)

/-- What the current context issues next. -/
inductive Issue where
  | run (i : Instr)
  | trap (c : Cause) (contained : Bool)
  | absent
  | miss
  | held
  | lost
  deriving DecidableEq, Repr

def runOr (i : Option Instr) : Issue := match i with | some x => .run x | none => .trap .illegal false

/-- The next instruction of the current context, and the state after its fetch: the step of its replay, else the
word at its PC (R34, R56, R102, R148). DESIGN CHOICE (log entry 61): a step of a replay that SRET resumes and that
no capture covers (REPSTATE written by a handler) takes the word of the last captured body at POS, else the word
fetched at the PC; R150 names no words for it. Unsafe. -/
def issueOf (s : State) : Issue × State :=
  let x := s.ctx
  let as (w : IWord) : Issue := if x.replaying then runOr (raised x.rep w) else runOr (decode w)
  match (if x.replaying then x.body[repPos x.rep]? else none) with
  | some w => (as w, s)
  | none =>
    match (if issuedYet x then refetch s x.pc else fetchAt s x.pc) with
    | (.word w, t) => (as w, t)
    | (.trap c k, t) => (.trap c k, t)
    | (.absent, t) => (.absent, t)
    | (.miss, t) => (.miss, t)
    | (.held, t) => (.held, t)
    | (.lost, t) => (.lost, t)

end Sys2Proof.Machine
end

