-- ==== Sys2Proof/Machine/Window.lean ====
section
/-! DEFINITION. The alias windows (R141, R196), their side arrays, pointers (R139), and the bound
registers' checks (R143, R241). -/
namespace Sys2Proof.Machine

/-- Source bytes of a lane of w bits (R141); window 5 stores two elements in a byte. -/
def srcBytes (win w : Nat) : Nat :=
  match win with
  | 0 => w / 8
  | 1 | 2 => 2
  | 7 => 8
  | _ => 1

/-- The offset of element i from the first (R141). -/
def elemOff (win w i : Nat) : Nat := if win = 5 then i / 2 else i * srcBytes win w

/-- The alignment of A or OFFSET (R141). -/
def winAlign (win w : Nat) : Nat :=
  match win with
  | 0 => w / 8
  | 1 | 2 => 2
  | 3 | 4 => 1
  | 5 => 16
  | 6 => 32
  | _ => 8

/-- The lane width a window requires (R141). -/
def winWidthOk (win w : Nat) : Bool :=
  match win with
  | 0 => true
  | 1 | 2 => w == 32
  | 3 | 4 | 5 | 6 => w == 16
  | _ => w == 64

/-- The bases of the side arrays as captured: TAGBASE, SCALEBASE5, SCALEBASE6 (R172, R196). -/
structure Sides where
  tag : Nat
  s5  : Nat
  s6  : Nat
  deriving DecidableEq, Repr

def sidesOf (tag s5 s6 : Word) : Sides := ⟨nfld tag.toNat 0 17, nfld s5.toNat 0 17, nfld s6.toNat 0 17⟩
def ctxSides (x : Ctx) : Sides := sidesOf x.tagbase x.scale5 x.scale6

/-- The offsets of the side bytes of an element at offset off of a block at blk (R196). -/
def sideOffs (t : Sides) (win blk off : Nat) : List Nat :=
  match win with
  | 5 => [t.s5 + blk / 16]
  | 6 => [t.s6 + 2 * (blk / 32), t.s6 + 2 * (blk / 32) + 1]
  | 7 => [t.tag + off / 8]
  | _ => []

/-- Whether the side bytes exist (R196). -/
def sideOk (t : Sides) (win blk off : Nat) : Bool :=
  (sideOffs t win blk off).all (fun o => decide (o < spTop)) && !(win == 6 && t.s6 % 2 == 1)

/-- An e8m0 scale (R196). -/
def e8m0 (x : Nat) : FNum := if x = 0xFF then .nan else .fin false 1 ((x : Int) - 127)

def toBf16 (n : FNum) : Nat := encodeF bf16F (roundF bf16F .rne false 0 n).n

/-- Element i of a block at offset blk of the scratchpad, its source at offset off, as a lane of w bits
with its count (R87, R141, R196). -/
def winElem (m : Memory) (t : Sides) (win w blk off i : Nat) : Nat × Count :=
  match win with
  | 0 => (rdNat m off (w / 8), 63)
  | 1 => ((fcvtR bf16F f32F .rne false 0 (fval bf16F (rdNat m off 2) 63)).bits, 63)
  | 2 => ((fcvtR f16F f32F .rne false 0 (fval f16F (rdNat m off 2) 63)).bits, 63)
  | 3 => ((fcvtR e4m3F bf16F .rne false 0 (fval e4m3F (rdNat m off 1) 63)).bits, 63)
  | 4 => ((fcvtR e5m2F bf16F .rne false 0 (fval e5m2F (rdNat m off 1) 63)).bits, 63)
  | 5 =>
    let nib := nfld (rdNat m off 1) (4 * (i % 2)) 4
    (toBf16 (mulF (decodeF e2m1F nib) (e8m0 (rdNat m (t.s5 + blk / 16) 1))), 63)
  | 6 =>
    (toBf16 (mulF (ofIntF (sgn 8 (rdNat m off 1))) (decodeF bf16F (rdNat m (t.s6 + 2 * (blk / 32)) 2))), 63)
  | _ => (rdNat m off 8, BitVec.ofNat 6 (rdNat m (t.tag + off / 8) 1))

/-- The cells a lane of w bits stores through a window at offset off (R87, R141). DESIGN CHOICE (log entry 117): a
lane of window 7 writes its count byte after its value, which matters where that byte is one of its own eight; R142
orders lanes alone. Unsafe. -/
def winCells (t : Sides) (win w off x : Nat) (c : Count) : List Host.Cell :=
  match win with
  | 0 => cellsAt off (leBytes (w / 8) x)
  | 1 => cellsAt off (leBytes 2 (fcvtR f32F bf16F .rne false 0 (fval f32F x 63)).bits)
  | 2 => cellsAt off (leBytes 2 (fcvtR f32F f16F .rne false 0 (fval f32F x 63)).bits)
  | 3 => cellsAt off (leBytes 1 (fcvtR bf16F e4m3F .rne true 0 (fval bf16F x 63)).bits)
  | 4 => cellsAt off (leBytes 1 (fcvtR bf16F e5m2F .rne false 0 (fval bf16F x 63)).bits)
  | 7 => cellsAt off (leBytes 8 x) ++ [(t.tag + off / 8, c.setWidth 8)]
  | _ => []

/-! ### Pointers (R139) -/

def ptrLane (x : Ctx) (p : BitVec 3) : Word := (vval x 0).extractLsb' (64 * p.toNat) 64
def ptrOff (w : Word) : Nat := nfld w.toNat 0 17
def ptrWin (w : Word) : Nat := nfld w.toNat 17 3
def ptrInc (w : Word) : Nat := wrapNat 17 (sgn 16 (nfld w.toNat 32 16))

/-- The pointer after an access. -/
def ptrNext (w : Word) : Word := setFld w 0 17 (ptrOff w + ptrInc w)

/-- v0 with pointer p, read at issue as w, advanced and its counts 63. -/
def advPtr (x : Ctx) (p : BitVec 3) (w : Word) : Ctx :=
  let ls := (lanesOf (vval x 0) 64).set p.toNat (ptrNext w).toNat
  let cs := foldIdx (fun i _ (v : Vector Count 32) => v.setIfInBounds (4 * p.toNat + i) 63) 0 [0, 1, 2, 3] (vcounts x 0)
  Machine.setVC x 0 (vecOf 64 ls) cs

/-! ### Bound registers (R143, R241) -/

def boundAt (k : Core) (n : BitVec 3) : Bound := k.bounds[n.toNat]'(by have := n.isLt; omega)

def absF : FNum → FNum
  | .nan => .nan
  | .inf _ => .inf false
  | .fin _ m e => .fin false m e

/-- A bound as a word of the lane format. -/
def boundWord (f64 : Bool) (b : BitVec 32) : Nat :=
  if f64 then encodeF f64F (decodeF f32F b.toNat) else b.toNat

/-- What a clamped lane is stored as (R143). -/
def clampTo (f64 : Bool) (b : Bound) (x : FNum) : Nat :=
  let lo := decodeF f32F b.lo.toNat
  let hi := decodeF f32F b.hi.toNat
  let toLo := match ltF x lo, ltF hi x with
    | true, false => true
    | false, true => false
    | true, true =>
      let dl := absF (addF .rne x (negF lo))
      let dh := absF (addF .rne x (negF hi))
      !(ltF dh dl)
    | false, false => true
  boundWord f64 (if toLo then b.lo else b.hi)

/-- Lanes checked against a bound register: as they are to be used, and whether its flag is set; none
is a BOUND trap. A clamped lane takes count 0. -/
def boundLanes (b : Bound) (f64 : Bool) (ls : List (Nat × Count)) : Option (List (Nat × Count) × Bool) :=
  let f := if f64 then f64F else f32F
  let inR (x : Nat) : Bool :=
    leF (decodeF f32F b.lo.toNat) (decodeF f x) && leF (decodeF f x) (decodeF f32F b.hi.toNat)
  if ls.all fun p => inR p.1 then some (ls, false)
  else if b.act = 2 then none
  else if b.act = 1 then
    some (ls.map fun p => if inR p.1 then p else (clampTo f64 b (decodeF f p.1), 0), true)
  else some (ls, true)

def setFlag (k : Core) (n : BitVec 3) : Core :=
  { k with bounds := k.bounds.set n.toNat { boundAt k n with flag := true } (by have := n.isLt; omega) }

end Sys2Proof.Machine
end

