-- ==== Sys2Proof/Machine/VectorFp.lean ====
section
/-! DEFINITION. Floating-point vector forms: VFARITH (R128), VFMAG (R129), the floating-point reductions
(R80, R135) and conversions (R136, R137). -/
namespace Sys2Proof.Machine

/-- The elements an instruction wrote that a check looks at (R90). -/
def sigElems (p : Nat) (ls : List (Option (FRes × List FVal × List Count))) : List SigElem :=
  (foldIdx (fun i l acc =>
    match l with
    | none => acc
    | some (r, srcs, ops) => ⟨i, r.count, p, srcs, ops⟩ :: acc) 0 ls []).reverse

/-- Lanes of one width, of one floating-point format: each active lane computed from the state as it
stands, the register written, then the check of R90 where chk (R123, R128). -/
def vfLanes (d : Reg) (m : BitVec 2) (u : Bool) (f : FFmt) (chk : Bool)
    (lane : Nat → FRes × List FVal × List Count) (s : State) : Out :=
  let w := fmtBits f
  let ls := (List.range (512 / w)).map fun i => if active s.ctx m i then some (lane i) else none
  let t := s.modCtx fun x => writeLanes x d w u true (ls.map fun l => l.map fun r => (r.1.bits, r.1.count))
  if chk then checked t (sigElems (fmtP f) ls) true else done t

/-- A lane of a v register, or of a broadcast, as a value. -/
def vfv (f : FFmt) (p : Nat × Count) : FVal := fval f p.1 p.2

/-- A form of two sources (R128). -/
def vf2 (op : FFmt → Rnd → FVal → FVal → FRes) (chk : Bool) (a : VArgs) (t : FTy) (s : State) : Out :=
  let f := ftyFmt t
  let x := s.ctx
  vfLanes a.d a.m a.u f chk (fun i =>
    let p := vfv f (srcA x a.a t.bits i)
    let q := vfv f (srcB x a.s a.b t.bits i)
    (op f (rndOf x .dyn false) p q, [p, q], [p.c, q.c])) s

/-- A form of one source (R128). -/
def vf1 (op : FFmt → Rnd → FVal → Nat → FRes) (chk : Bool) (a : UArgs) (t : FTy) (s : State) : Out :=
  let f := ftyFmt t
  let x := s.ctx
  vfLanes a.d a.m a.u f chk (fun i =>
    let p := srcA x a.a t.bits i
    let v := vfv f p
    (op f (rndOf x .dyn false) v p.1, [v], [v.c])) s

/-- A form of VFMAG with one rounding and vd as its third source (R129). -/
def vf3 (n5 n4 : Bool) (a : VArgs) (t : FTy) (s : State) : Out :=
  let f := ftyFmt t
  let x := s.ctx
  vfLanes a.d a.m a.u f true (fun i =>
    let p := vfv f (srcA x a.a t.bits i)
    let q := vfv f (srcB x a.s a.b t.bits i)
    let c := vfv f (srcA x a.d t.bits i)
    (fmaR f (rndOf x .dyn false) n5 n4 p q c, [p, q, c], [p.c, q.c, c.c])) s

/-- VFADD (R128). -/
def execVfadd (x : VArgs) (t : FTy) (s : State) : Out := vf2 faddR true x t s

/-- VFSUB (R128). -/
def execVfsub (x : VArgs) (t : FTy) (s : State) : Out := vf2 (fun f r a b => faddR f r a (fnegV b)) true x t s

/-- VFMUL (R128). -/
def execVfmul (x : VArgs) (t : FTy) (s : State) : Out := vf2 fmulR true x t s

/-- VFDIV (R128). -/
def execVfdiv (x : VArgs) (t : FTy) (s : State) : Out := vf2 fdivR true x t s

/-- VFSQRT (R128). -/
def execVfsqrt (x : UArgs) (t : FTy) (s : State) : Out := vf1 (fun f r v _ => fsqrtR f r v) true x t s

/-- VFMIN (R128). -/
def execVfmin (x : VArgs) (t : FTy) (s : State) : Out := vf2 (fun f _ a b => fminmaxR f false a b) false x t s

/-- VFMAX (R128). -/
def execVfmax (x : VArgs) (t : FTy) (s : State) : Out := vf2 (fun f _ a b => fminmaxR f true a b) false x t s

/-- VFABS (R128). -/
def execVfabs (x : UArgs) (t : FTy) (s : State) : Out := vf1 (fun f _ v _ => signed f v false) false x t s

/-- VFNEG (R128). -/
def execVfneg (x : UArgs) (t : FTy) (s : State) : Out :=
  vf1 (fun f _ v w => signed f v (!(signBit f w))) false x t s

/-- VFMA (R129). -/
def execVfma (x : VArgs) (t : FTy) (s : State) : Out := vf3 false false x t s

/-- VFMS (R129). -/
def execVfms (x : VArgs) (t : FTy) (s : State) : Out := vf3 false true x t s

/-- VFNMA (R129). -/
def execVfnma (x : VArgs) (t : FTy) (s : State) : Out := vf3 true false x t s

/-- VFNMS (R129). -/
def execVfnms (x : VArgs) (t : FTy) (s : State) : Out := vf3 true true x t s

/-- Element j of VDOT2's second source: with S = 1, gb[31:0] holds the pair (R129). -/
def dotB (x : Ctx) (a : VArgs) (j : Nat) : Nat × Count :=
  if a.s then (nfld (gval x a.b).toNat (16 * (j % 2)) 16, gcount x a.b) else srcA x a.b 16 j

/-- VDOT2 (R129): two exact products and the accumulator rounded once. -/
def execVdot2 (a : VArgs) (t : FTy) (s : State) : Out :=
  let f := ftyFmt t
  let x := s.ctx
  vfLanes a.d a.m a.u f32F true (fun k =>
    let a0 := vfv f (srcA x a.a 16 (2 * k))
    let a1 := vfv f (srcA x a.a 16 (2 * k + 1))
    let b0 := vfv f (dotB x a (2 * k))
    let b1 := vfv f (dotB x a (2 * k + 1))
    let c := vfv f32F (srcA x a.d 32 k)
    let p0 := prodV 24 a0 b0
    let p1 := prodV 24 a1 b1
    let r := rndOf x .dyn false
    let n := (roundF f32F r false 0 (addF r (addF r c.n p0.n) p1.n)).n
    (deliver f32F n (addCount 24 [c, p0, p1] n (stdFloor 24)), [a0, a1, b0, b1, c], [a0.c, b0.c, c.c])) s

/-! ### Reductions (R80, R135) -/

/-- One level of the tree: elements 2j and 2j+1 combined; an absent one leaves the other as it is. -/
def pairUp {α : Type} (f : α → α → α) : List (Option α) → List (Option α)
  | [] => []
  | [x] => [x]
  | x :: y :: rest =>
    (match x, y with
     | some p, some q => some (f p q)
     | some p, none => some p
     | none, q => q) :: pairUp f rest

/-- The tree of at most 64 lanes. -/
def reduce {α : Type} (f : α → α → α) (l : List (Option α)) : Option α :=
  let up := pairUp f
  (up (up (up (up (up (up l)))))).headD none

/-- The active lanes of a register, the others absent. -/
def redLanes (x : Ctx) (a : Reg) (m : BitVec 2) (w : Nat) : List (Option (Nat × Count)) :=
  (List.range (512 / w)).map fun i => if active x m i then some (srcA x a w i) else none

/-- A floating-point reduction; e is the result where no lane is active. -/
def vfReduce (op : FFmt → Rnd → FVal → FVal → FRes) (e : FFmt → Nat × Count) (chk : Bool)
    (d a : Reg) (m : BitVec 2) (t : FTy) (s : State) : Out :=
  let f := ftyFmt t
  let x := s.ctx
  let ls := redLanes x a m t.bits
  let comb (p q : Nat × Count) : Nat × Count :=
    let r := op f (rndOf x .dyn false) (vfv f p) (vfv f q)
    (r.bits, r.count)
  let r := (reduce comb ls).getD (e f)
  let u := s.setGC d (BitVec.ofNat 64 r.1) r.2
  if chk then
    let vs := (ls.filterMap id).map (vfv f)
    let m := sigM vs
    let sa := (vs.find? fun v => readCount v.p v.c == m).map FVal.c
    match sa with
    | none => done u
    | some c => checked u [⟨0, r.2, fmtP f, vs, [c]⟩] true
  else done u

/-- VRSUM (R135). -/
def execVrsum (d a : Reg) (m : BitVec 2) (t : FTy) (s : State) : Out :=
  vfReduce faddR (fun _ => (0, 63)) true d a m t s

/-- VRMAX (R135). -/
def execVrmax (d a : Reg) (m : BitVec 2) (t : FTy) (s : State) : Out :=
  vfReduce (fun f _ p q => fminmaxR f true p q) (fun f => (encodeF f (.inf true), 0)) false d a m t s

/-- VRMIN (R135). -/
def execVrmin (d a : Reg) (m : BitVec 2) (t : FTy) (s : State) : Out :=
  vfReduce (fun f _ p q => fminmaxR f false p q) (fun f => (encodeF f (.inf false), 0)) false d a m t s

/-! ### Conversions (R136, R137) -/

/-- An integer-format element as a number. -/
def intElem (f : Fmt) (x : Nat) : Int := if cvtIsNat f then x else sgn f.bits x

/-- The range of an integer format. -/
def intLo (f : Fmt) : Int := if cvtIsNat f then 0 else -(2 ^ (f.bits - 1) : Nat)
def intHi (f : Fmt) : Int := if cvtIsNat f then (2 ^ f.bits : Nat) - 1 else (2 ^ (f.bits - 1) : Nat) - 1

/-- One element converted (R77, R78, R83). -/
def cvtElem (src dst : Fmt) (r : Rnd) (sat : Bool) (u : BitVec 32) (x : Nat) (c : Count) : FRes :=
  match src.isInt, dst.isInt with
  | false, false => fcvtR (cvtFmt src) (cvtFmt dst) r sat u (fval (cvtFmt src) x c)
  | false, true => ⟨toIntF r u dst.bits (cvtIsNat dst) (decodeF (cvtFmt src) x), 63⟩
  | true, false => ofIntR (cvtFmt dst) r sat u (intElem src x)
  | true, true => ⟨wrapNat dst.bits (clampInt (intLo dst) (intHi dst) (intElem src x)), 63⟩

/-- How many elements a conversion has (R136). -/
def cvtCount (src dst : Fmt) : Nat :=
  if src.bits < dst.bits then 1024 / dst.bits else 512 / src.bits

/-- The elements converted in ascending order, the LFSR advanced once for each active one under SR. -/
def cvtAll (x : Ctx) (a : Reg) (m : BitVec 2) (src dst : Fmt) (r : Rnd) (sat : Bool) :
    List Nat → BitVec 32 → List (Option (FRes × List FVal × List Count)) × BitVec 32
  | [], u => ([], u)
  | j :: js, u =>
    if active x m j then
      let u1 := if r = .sr then lfsrNext u else u
      let p := srcA x a src.bits j
      let q := cvtAll x a m src dst r sat js u1
      let v := fval (cvtFmt src) p.1 p.2
      (some (cvtElem src dst r sat u1 p.1 p.2, [v], [v.c]) :: q.1, q.2)
    else
      let q := cvtAll x a m src dst r sat js u
      (none :: q.1, q.2)

/-- VCVT and VCVTS (R136, R137). -/
def vcvt (sat : Bool) (a : UArgs) (src dst : Fmt) (r : Rnd) (s : State) : Out :=
  let x := s.ctx
  let rr := rndOf x r (decide (dst.bits < src.bits) || src.isInt)
  let q := cvtAll x a.a a.m src dst rr sat (List.range (cvtCount src dst)) x.lfsr
  let fp := !dst.isInt
  let per := 512 / dst.bits
  let ls : List LaneOut := q.1.map fun l => l.map fun e => (e.1.bits, e.1.count)
  let lo := ls.take per ++ List.replicate (per - ls.length) (some (0, 63))
  let y := writeLanes { x with lfsr := q.2 } a.d dst.bits a.u fp lo
  let y2 := if per < ls.length then writeLanes y (a.d + 1) dst.bits a.u fp (ls.drop per) else y
  let t := s.modCtx fun _ => y2
  if !src.isInt && !dst.isInt then checked t (sigElems (fmtP (cvtFmt dst)) q.1) true else done t

/-- VCVT (R136). -/
def execVcvt (x : UArgs) (src dst : Fmt) (r : Rnd) (s : State) : Out := vcvt false x src dst r s

/-- VCVTS (R136). -/
def execVcvts (x : UArgs) (src dst : Fmt) (r : Rnd) (s : State) : Out := vcvt true x src dst r s

end Sys2Proof.Machine
end

