-- ==== Sys2Proof/Machine/VectorInt.lean ====
section
/-! DEFINITION. Integer vector forms (R130), compares and masks (R131, R132), permutes (R133), moves
(R134), integer reductions (R135) and significance access (R138). -/
namespace Sys2Proof.Machine

/-- Integer lanes: each active lane computed, count 63 (R130). -/
def viLanes (f : Nat → Nat → Nat → Nat) (a : VArgs) (t : Wd) (s : State) : Out :=
  let w := t.bits
  let x := s.ctx
  let ls : List LaneOut := (List.range (512 / w)).map fun i =>
    if active x a.m i then some (f w (srcA x a.a w i).1 (srcB x a.s a.b w i).1, 63) else none
  done (s.modCtx fun y => writeLanes y a.d w a.u false ls)

/-- The saturated sum or difference of signed lanes (R130). -/
def satI (w : Nat) (z : Int) : Nat := wrapNat w (clampInt (-(2 ^ (w - 1) : Nat)) ((2 ^ (w - 1) : Nat) - 1) z)

/-- A mask written to vd: n result bits, inactive ones kept or set, the rest 0, counts 63 (R131). -/
def writeMask (x : Ctx) (d : Reg) (n : Nat) (m : BitVec 2) (u : Bool) (f : Nat → Bool) : Ctx :=
  let old := (vval x d).toNat
  let bitAt (i : Nat) : Bool := if active x m i then f i else (!u || nbit old i)
  Machine.setVC x d (BitVec.ofNat 512 (ofLanes 1 ((List.range n).map fun i => b2n (bitAt i)))) fullCounts

def vcmpF (f : FNum → FNum → Bool) (a : VArgs) (t : FTy) (s : State) : Out :=
  let w := t.bits
  let x := s.ctx
  done (s.modCtx fun y => writeMask y a.d (512 / w) a.m a.u fun i =>
    f (decodeF (ftyFmt t) (srcA x a.a w i).1) (decodeF (ftyFmt t) (srcB x a.s a.b w i).1))

def vcmpI (f : Nat → Nat → Nat → Bool) (a : VArgs) (t : Wd) (s : State) : Out :=
  let w := t.bits
  let x := s.ctx
  done (s.modCtx fun y => writeMask y a.d (512 / w) a.m a.u fun i =>
    f w (srcA x a.a w i).1 (srcB x a.s a.b w i).1)

/-- Bits [n-1:0] of a mask operand: a v register, or gb read whole (R125, R132). -/
def maskOpnd (x : Ctx) (g : Bool) (r : Reg) (n : Nat) : Nat :=
  (if g then (gval x r).toNat else (vval x r).toNat) % 2 ^ n

def lanesOfWd (t : Wd) : Nat := 512 / t.bits

/-- A mask form (R132). -/
def vmask2 (f : Nat → Nat → Nat) (d a b : Reg) (g : Bool) (t : Wd) (s : State) : Out :=
  let n := lanesOfWd t
  done (s.setVC d (BitVec.ofNat 512 (f (maskOpnd s.ctx false a n) (maskOpnd s.ctx g b n) % 2 ^ n)) fullCounts)

/-- Whole lanes moved: each active lane takes lane j of va, or 0 with count 63 (R133). -/
def vmove (pick : Nat → Option Nat) (a : UArgs) (t : Wd) (s : State) : Out :=
  let w := t.bits
  let n := 512 / w
  let x := s.ctx
  let ls : List LaneOut := (List.range n).map fun i =>
    if active x a.m i then
      some (match pick i with | some j => if j < n then srcA x a.a w j else (0, 63) | none => (0, 63))
    else none
  done (s.modCtx fun y => writeLanes y a.d w a.u false ls)

/-- An integer reduction (R80, R135). -/
def viReduce (f : Nat → Nat → Nat → Nat) (e : Nat → Nat) (sx : Bool) (d a : Reg) (m : BitVec 2) (t : Wd)
    (s : State) : Out :=
  let w := t.bits
  let r := (reduce (fun p q : Nat × Count => (f w p.1 q.1, (63 : Count))) (redLanes s.ctx a m w)).getD (e w, 63)
  done (s.setGC d (BitVec.ofNat 64 (if sx then wrapNat 64 (sgn w r.1) else r.1)) r.2)

/-- VADD (R130). -/
def execVadd (x : VArgs) (t : Wd) (s : State) : Out := viLanes (fun w x y => (x + y) % 2 ^ w) x t s

/-- VSUB (R130). -/
def execVsub (x : VArgs) (t : Wd) (s : State) : Out := viLanes (fun w x y => (x + 2 ^ w - y) % 2 ^ w) x t s

/-- VMUL (R130). -/
def execVmul (x : VArgs) (t : Wd) (s : State) : Out := viLanes (fun w x y => (x * y) % 2 ^ w) x t s

/-- VMULH (R130). -/
def execVmulh (x : VArgs) (t : Wd) (s : State) : Out := viLanes (fun w x y => wrapNat w ((sgn w x * sgn w y) / (2 ^ w : Nat))) x t s

/-- VAND (R130). -/
def execVand (x : VArgs) (t : Wd) (s : State) : Out := viLanes (fun _ x y => x &&& y) x t s

/-- VOR (R130). -/
def execVor (x : VArgs) (t : Wd) (s : State) : Out := viLanes (fun _ x y => x ||| y) x t s

/-- VXOR (R130). -/
def execVxor (x : VArgs) (t : Wd) (s : State) : Out := viLanes (fun _ x y => x ^^^ y) x t s

/-- VSLL (R130). -/
def execVsll (x : VArgs) (t : Wd) (s : State) : Out := viLanes (fun w x y => (x <<< (y % w)) % 2 ^ w) x t s

/-- VSRL (R130). -/
def execVsrl (x : VArgs) (t : Wd) (s : State) : Out := viLanes (fun w x y => x >>> (y % w)) x t s

/-- VSRA (R130). -/
def execVsra (x : VArgs) (t : Wd) (s : State) : Out := viLanes (fun w x y => wrapNat w (sgn w x / (2 ^ (y % w) : Nat))) x t s

/-- VMIN (R130). -/
def execVmin (x : VArgs) (t : Wd) (s : State) : Out := viLanes (fun w x y => if sgn w x < sgn w y then x else y) x t s

/-- VMAX (R130). -/
def execVmax (x : VArgs) (t : Wd) (s : State) : Out := viLanes (fun w x y => if sgn w x < sgn w y then y else x) x t s

/-- VMINU (R130). -/
def execVminu (x : VArgs) (t : Wd) (s : State) : Out := viLanes (fun _ x y => min x y) x t s

/-- VMAXU (R130). -/
def execVmaxu (x : VArgs) (t : Wd) (s : State) : Out := viLanes (fun _ x y => max x y) x t s

/-- VADDS (R130). -/
def execVadds (x : VArgs) (t : Wd) (s : State) : Out := viLanes (fun w x y => satI w (sgn w x + sgn w y)) x t s

/-- VSUBS (R130). -/
def execVsubs (x : VArgs) (t : Wd) (s : State) : Out := viLanes (fun w x y => satI w (sgn w x - sgn w y)) x t s

/-! ### Compares and masks -/

/-- VFEQ (R131). -/
def execVfeq (x : VArgs) (t : FTy) (s : State) : Out := vcmpF eqF x t s

/-- VFLT (R131). -/
def execVflt (x : VArgs) (t : FTy) (s : State) : Out := vcmpF ltF x t s

/-- VFLE (R131). -/
def execVfle (x : VArgs) (t : FTy) (s : State) : Out := vcmpF leF x t s

/-- VEQ (R131). -/
def execVeq (x : VArgs) (t : Wd) (s : State) : Out := vcmpI (fun _ x y => x == y) x t s

/-- VNE (R131). -/
def execVne (x : VArgs) (t : Wd) (s : State) : Out := vcmpI (fun _ x y => x != y) x t s

/-- VLT (R131). -/
def execVlt (x : VArgs) (t : Wd) (s : State) : Out := vcmpI (fun w x y => decide (sgn w x < sgn w y)) x t s

/-- VLTU (R131). -/
def execVltu (x : VArgs) (t : Wd) (s : State) : Out := vcmpI (fun _ x y => decide (x < y)) x t s

/-- MAND (R132). -/
def execMand (d a b : Reg) (g : Bool) (t : Wd) (s : State) : Out := vmask2 (fun x y => x &&& y) d a b g t s

/-- MOR (R132). -/
def execMor (d a b : Reg) (g : Bool) (t : Wd) (s : State) : Out := vmask2 (fun x y => x ||| y) d a b g t s

/-- MXOR (R132). -/
def execMxor (d a b : Reg) (g : Bool) (t : Wd) (s : State) : Out := vmask2 (fun x y => x ^^^ y) d a b g t s

/-- MANDN (R132). -/
def execMandn (d a b : Reg) (g : Bool) (t : Wd) (s : State) : Out := vmask2 (fun x y => x - (x &&& y)) d a b g t s

/-- MNOT (R132). -/
def execMnot (d a : Reg) (_g : Bool) (t : Wd) (s : State) : Out := 
  vmask2 (fun x _ => 2 ^ lanesOfWd t - 1 - x) d a 0 false t s

/-- MPOP (R132). -/
def execMpop (d a : Reg) (_g : Bool) (t : Wd) (s : State) : Out := 
  done (s.setG d (BitVec.ofNat 64 (popN (maskOpnd s.ctx false a (lanesOfWd t)) (lanesOfWd t))))

/-- MFIRST (R132). -/
def execMfirst (d a : Reg) (_g : Bool) (t : Wd) (s : State) : Out := 
  done (s.setG d (BitVec.ofNat 64 (ctzN (maskOpnd s.ctx false a (lanesOfWd t)) (lanesOfWd t))))

/-- MSET (R132). -/
def execMset (d b : Reg) (t : Wd) (s : State) : Out := vmask2 (fun _ y => y) d 0 b true t s

/-! ### Permutes -/

/-- VSLIDEUP (R133). -/
def execVslideup (x : UArgs) (b : Reg) (t : Wd) (s : State) : Out := 
  vmove (fun i => if (s.gr b).toNat ≤ i then some (i - (s.gr b).toNat) else none) x t s

/-- VSLIDEDN (R133). -/
def execVslidedn (x : UArgs) (b : Reg) (t : Wd) (s : State) : Out := vmove (fun i => some (i + (s.gr b).toNat)) x t s

/-- VPERM (R133). -/
def execVperm (x : UArgs) (b : Reg) (t : Wd) (s : State) : Out := vmove (fun i => some (srcA s.ctx b t.bits i).1) x t s

/-- VBCAST (R133). -/
def execVbcast (x : UArgs) (b : Reg) (t : Wd) (s : State) : Out := vmove (fun _ => some (s.gr b).toNat) x t s

/-- VSEL (R133): every lane is written. -/
def execVsel (a : VArgs) (t : Wd) (s : State) : Out :=
  let w := t.bits
  let x := s.ctx
  let ls : List LaneOut := (List.range (512 / w)).map fun i =>
    some (if active x a.m i then srcA x a.a w i else srcB x a.s a.b w i)
  done (s.modCtx fun y => writeLanes y a.d w a.u false ls)

/-- VCOMPRESS (R133): the active lanes of va packed, the rest as inactive lanes. -/
def execVcompress (a : UArgs) (_g : Bool) (t : Wd) (s : State) : Out :=
  let w := t.bits
  let n := 512 / w
  let x := s.ctx
  let on : List LaneOut := ((List.range n).filter (active x a.m)).map fun i => some (srcA x a.a w i)
  done (s.modCtx fun y => writeLanes y a.d w a.u false (on ++ List.replicate (n - on.length) none))

/-! ### Moves -/

/-- VSPLAT (R134). -/
def execVsplat (d b : Reg) (m : BitVec 2) (u : Bool) (t : Wd) (s : State) : Out :=
  let w := t.bits
  let x := s.ctx
  let ls : List LaneOut := (List.range (512 / w)).map fun i =>
    if active x m i then some (srcB x true b w i) else none
  done (s.modCtx fun y => writeLanes y d w u false ls)

/-- VINS (R134). -/
def execVins (d a b : Reg) (t : Wd) (s : State) : Out :=
  let w := t.bits
  let x := s.ctx
  let ls : List LaneOut := (List.range (512 / w)).map fun i =>
    if i = (s.gr a).toNat then some (srcB x true b w i) else none
  if (s.gr a).toNat < 512 / w then done (s.modCtx fun y => writeLanes y d w true false ls) else done s

/-- VEXT (R134). -/
def execVext (d a b : Reg) (t : Wd) (s : State) : Out :=
  let w := t.bits
  let p := if (s.gr b).toNat < 512 / w then srcA s.ctx a w (s.gr b).toNat else (0, 63)
  done (s.setGC d (BitVec.ofNat 64 p.1) p.2)

/-- VMOVV (R134). -/
def execVmovv (x : UArgs) (t : Wd) (s : State) : Out := vmove some x t s

/-! ### Integer reductions -/

/-- VRADD (R135). -/
def execVradd (d a : Reg) (m : BitVec 2) (t : Wd) (s : State) : Out :=
  viReduce (fun w x y => (x + y) % 2 ^ w) (fun _ => 0) true d a m t s

/-- VRAND (R135). -/
def execVrand (d a : Reg) (m : BitVec 2) (t : Wd) (s : State) : Out :=
  viReduce (fun _ x y => x &&& y) (fun w => 2 ^ w - 1) false d a m t s

/-! ### Significance access (R138) -/

/-- VSIGM. -/
def execVsigm (a : UArgs) (b : Reg) (t : FTy) (s : State) : Out :=
  let x := s.ctx
  let thr := (s.gr b).toNat % 64
  done (s.modCtx fun y => writeMask y a.d (512 / t.bits) a.m a.u fun i =>
    decide ((srcA x a.a t.bits i).2.toNat < thr))

/-- VSIGR. -/
def execVsigr (a : UArgs) (t : FTy) (s : State) : Out :=
  let w := t.bits
  let x := s.ctx
  let ls : List LaneOut := (List.range (512 / w)).map fun i =>
    if active x a.m i then some ((srcA x a.a w i).2.toNat, 63) else none
  done (s.modCtx fun y => writeLanes y a.d w a.u true ls)

/-- VSIGW. -/
def execVsigw (a : UArgs) (t : FTy) (s : State) : Out :=
  let w := t.bits
  let x := s.ctx
  let ls : List LaneOut := (List.range (512 / w)).map fun i =>
    if active x a.m i then some ((srcA x a.d w i).1, BitVec.ofNat 6 (srcA x a.a w i).1) else none
  done (s.modCtx fun y => writeLanes y a.d w a.u true ls)

end Sys2Proof.Machine
end

