-- ==== Sys2Proof/Machine/VectorMem.lean ====
section
/-! DEFINITION. Vector loads and stores (R140-R145), with the privileged remote forms (R195), and the
three-address memory forms (R146). -/
namespace Sys2Proof.Machine

/-- How a form makes its lane addresses (R140). -/
inductive VForm where
  | unit (a : Word)
  | ptr (p : BitVec 3) (w : Word)
  | stride (a b : Word)
  | index (a : Word) (ix : List Nat)
  deriving DecidableEq, Repr

/-- A and the window it names. -/
def VForm.base : VForm → Word
  | .unit a | .stride a _ | .index a _ => a
  | .ptr _ w => BitVec.ofNat 64 (apLocal + ptrWin w * 0x40000 + ptrOff w)

def winOf (a : Word) : Nat := match classify a with | .own w _ => w | _ => 0

def VForm.win (f : VForm) : Nat :=
  match f with
  | .ptr _ w => ptrWin w
  | .unit a | .stride a _ | .index a _ => winOf a

/-- The address of lane i of w bits (R140). -/
def VForm.addr (f : VForm) (w i : Nat) : Word :=
  match f with
  | .unit _ | .ptr _ _ => f.base + BitVec.ofNat 64 (elemOff f.win w i)
  | .stride a b => a + BitVec.ofNat 64 i * b
  | .index a ix => a + BitVec.ofInt 64 (sgn w (ix.getD i 0) * ((w / 8 : Nat) : Int))

/-- Alignment (R141, R144): of each lane in windows 0 and 7 and outside the core, of A in windows 1 to 7. DESIGN
CHOICE (log entry 62): where the active lanes and A name different windows, the first active lane's window says which
of the two rules holds, and A's window names the block (VForm.win); with lane 0 inactive A is held to R141's column in
windows 1 to 7 all the same, in window 0 the active lanes alone are, as R144 has it. Outside the windows (fabric, an
instruction store, an entry table, an address of no class) each active lane must be a multiple of w/8 too, and ALIGN
comes before the class; R141 says so of windows 0 and 7. Unsafe. -/
def VForm.aligned (f : VForm) (w : Nat) (act : List Nat) : Bool :=
  let win := match f, act with
    | .ptr _ p, _ => ptrWin p
    | _, [] => 0
    | _, i :: _ => winOf (f.addr w i)
  if 1 ≤ win ∧ win ≤ 6 then f.base.toNat % winAlign win w == 0
  else (win != 7 || f.base.toNat % 8 == 0) && act.all fun i => (f.addr w i).toNat % (w / 8) == 0

/-- Where the active lanes lie: one class, one core, one window (R140). -/
inductive VCls where
  | own (win : Nat) (offs : List Nat)
  | remote (c : CoreId) (offs : List Nat)
  | remI (c : CoreId) (offs : List Nat)
  | remE (c : CoreId) (offs : List Nat)
  | fabric (vas : List Nat)
  | bad
  deriving DecidableEq, Repr

/-- The offsets, if every class is the one that f reads. -/
def allOf (f : Cls → Option Nat) (cs : List Cls) (k : List Nat → VCls) : VCls :=
  let xs := cs.filterMap f
  if xs.length = cs.length then k xs else .bad

def vclassify (cs : List Cls) : VCls :=
  match cs with
  | [] => .bad
  | .own w _ :: _ => allOf (fun c => match c with | .own v o => if v = w then some o else none | _ => none) cs (.own w)
  | .remote k _ :: _ => allOf (fun c => match c with | .remote v o => if v = k then some o else none | _ => none) cs (.remote k)
  | .remI k _ :: _ => allOf (fun c => match c with | .remI v o => if v = k then some o else none | _ => none) cs (.remI k)
  | .remE k _ :: _ => allOf (fun c => match c with | .remE v o => if v = k then some o else none | _ => none) cs (.remE k)
  | .fabric _ :: _ => allOf (fun c => match c with | .fabric a => some a | _ => none) cs .fabric
  | .ownI _ :: _ => .bad
  | .none :: _ => .bad

/-- Whether a window takes a form (R141): windows 5 and 6 only unit and pointer loads, gather and scatter
only window 0; the lane width fits; every byte and side byte exists. -/
def winTakes (t : Sides) (f : VForm) (store : Bool) (w win : Nat) (offs : List Nat) : Bool :=
  let blk := f.base.toNat % 0x40000
  winWidthOk win w && !(store && (win == 5 || win == 6)) &&
    (match f with
     | .unit _ | .ptr _ _ => true
     | .stride _ _ => !(win == 5 || win == 6)
     | .index _ _ => win == 0) &&
    offs.all fun o => decide (o + (if win = 5 then 1 else srcBytes win w) ≤ spTop) && sideOk t win blk o

/-- The lanes and addresses of the active lanes. -/
def actives (x : Ctx) (m : BitVec 2) (n : Nat) : List Nat := (List.range n).filter (active x m)

/-- The end of a form that has accessed memory through a pointer (R139). -/
def ptrDone (f : VForm) (x : Ctx) : Ctx :=
  match f with
  | .ptr p w => advPtr x p w
  | .unit _ | .stride _ _ | .index _ _ => x

/-- The bytes of lanes at virtual addresses: each with its place among all bytes of the access. -/
def laneVas (vas : List Nat) (n : Nat) : List Nat := vas.flatMap fun a => (List.range n).map fun j => a + j

/-- The first address in each 64-KiB page touched, in order of first touch: translation is by page. -/
def pagesOf (vas : List Nat) : List Nat :=
  ((vas.map fun a => a / 65536).eraseDups).map fun p => (vas.find? fun a => a / 65536 == p).getD 0

/-- Every page of an access translated, or the first that fails (R144). DESIGN CHOICE (log entry 116): the first in
the order of first touch by ascending lane; R144 orders no pages of one access. Unsafe. -/
def xlateAll (s : State) (acc : Access) : List Nat → List (Nat × Xlate) → (List (Nat × Xlate) × State) ⊕ Out
  | [], done => .inl (done, s)
  | a :: as, done =>
    match translate s (ctxTag s.ctx) 0 acc a 1 with
    | (.ok pa, t) => xlateAll t acc as (done ++ [(a / 65536, .ok (pa - a % 65536))])
    | (.away k, t) => xlateAll t acc as (done ++ [(a / 65536, .away k)])
    | (r, t) => .inr (xlateTrap t a r)

/-- Where a byte of a translated page lies. -/
def placeOf (ps : List (Nat × Xlate)) (va : Nat) : Xlate :=
  match ps.find? fun p => p.1 == va / 65536 with
  | some (_, .ok pa) => .ok (pa + va % 65536)
  | some (_, r) => r
  | none => .pageFault

/-- The guard below a stack lies on addresses, not pages: whether one of the bytes of an access lies in it (R179).
DESIGN CHOICE (log entry 85): it is looked at before any page is translated; R144 and R179 give no order between it
and an absent page. Unsafe. -/
def guarded (x : Ctx) (vas : List Nat) : Bool := vas.any fun a => inGuard x.stacklimit a

/-- The bytes of a fabric access grouped by the package that holds them. -/
def asksOf (ps : List (Nat × Xlate)) (need : List (Nat × Nat)) : List (BitVec 9 × List (Nat × Nat)) :=
  let pk := (need.filterMap fun p => match placeOf ps p.2 with | .away k => some k | _ => none).eraseDups
  pk.map fun k => (k, need.filter fun p => match placeOf ps p.2 with | .away j => j == k | _ => false)

/-- The lines of channel accesses, each once. -/
def vlinesOf (vas : List Nat) : List Nat := (vas.map fun a => a / 64 * 64).eraseDups

/-- The lines an access performs at their channels, held by replay or logged (R349, R350). -/
def noteLines (s : State) (ps : List (Nat × Xlate)) (kind : Nat) : List Nat → Option State
  | [] => some s
  | l :: ls =>
    match placeOf ps l with
    | .ok pa =>
      let sn : Seen := ⟨s.coreId, s.core.cur.toNat, kind, false, l, false⟩
      let port := PortKey.chan (BitVec.ofNat 5 (chanOf pa))
      if replayHolds s port sn then none else noteLines (noteAccess s port sn) ps kind ls
    | _ => noteLines s ps kind ls

/-- The place of a byte of a translated access, if it has one. -/
def placeIn (ps : List (Nat × Xlate)) (tg : Tag) (va : Nat) : Option LinePlace :=
  match placeOf ps va with
  | .ok pa => some ⟨none, tg, va, pa⟩
  | .away k => some ⟨some k, tg, va, va⟩
  | _ => none

/-- A vector load from fabric memory: bytes of the gather buffer, then memory line by line (R107, R144); a channel
that it needs may be cut off or reject it (R353, R373). DESIGN CHOICE (log entry 116): a channel that is cut off is
met before a frame tag that rejects, whichever lines they are on; R144 gives no order between lines. Unsafe. -/
def vloadFabric (s : State) (d : Dest) (vas : List Nat) (n : Nat) : Out :=
  if guarded s.ctx (laneVas vas n) then trapOut s .access
  else
    match xlateAll s .read (pagesOf vas) [] with
    | .inr o => o
    | .inl (ps, t) =>
      let bs := laneVas vas n
      let tg := ctxTag t.ctx
      let fwd := bs.map fun a => (placeIn ps tg a).bind (gatherFwd t.core)
      let need := (gaps fwd).map fun i => (i, bs.getD i 0)
      let here := need.filterMap fun p => match placeOf ps p.2 with | .ok pa => some (p.1, pa) | _ => none
      let hereVa := need.filterMap fun p => match placeOf ps p.2 with | .ok _ => some p.2 | _ => none
      if here.any fun p => chanCut t p.2 then xlateTrap t 0 (.access true)
      else
      match noteLines t ps 0 (vlinesOf hereVa) with
      | none => stallOut t
      | some u0 =>
        if here.any fun p => !(frameOk u0 tg p.2) then xlateTrap u0 0 .stale
        else
        let u := countReads u0 (here.map Prod.snd)
        match chanRead u (here.map Prod.snd) with
        | none => killOut u
        | some ys =>
          let got := (here.zip ys).foldl (fun (l : List (Option Byte)) p => l.set p.1.1 (some p.2)) fwd
          loadAway u d got (asksOf ps need)

/-- The bytes that elements at offsets of a block read, their side bytes among them (R141, R196). -/
def winReads (t : Sides) (win w blk : Nat) (offs : List Nat) : List Nat :=
  offs.flatMap fun o => ((List.range (srcBytes win w)).map fun i => o + i) ++ sideOffs t win blk o

/-- A vector load (R140-R144). -/
def vload (f : VForm) (d : Reg) (m : BitVec 2) (u : Bool) (z : Wd) (s : State) : Out :=
  let w := z.bits
  let n := 512 / w
  let x := s.ctx
  let act := actives x m n
  let lanes := (List.range n).map (active x m)
  let sides := ctxSides x
  if act.isEmpty then
    done (s.modCtx fun y => writeLanes y d w u false (List.replicate n none))
  else if !(f.aligned w act) then trapOut s .align
  else
    match vclassify (act.map fun i => classify (f.addr w i)) with
    | .own win offs =>
      if winTakes sides f false w win offs then
        atOwnPort s (.scratch s.coreId) 0 (offs.headD 0) fun t0 =>
          let blk := f.base.toNat % 0x40000
          consuming t0 .scratch 8 (winReads sides win w blk offs) fun t =>
            let res : List LaneOut := lanes.mapIdx fun i on =>
              if on then some (winElem t.core.mem sides win w blk ((f.addr w i).toNat % 0x40000) i) else none
            done (t.modCtx fun y => ptrDone f (writeLanes y d w u false res))
      else trapOut s .access
    | .remote c offs =>
      match f with
      | .ptr _ _ => trapOut s .access
      | .unit _ | .stride _ _ | .index _ _ =>
        if inReach s.coreId x c then loadRemote s c (.lanes d w u lanes) (laneVas offs (w / 8))
        else trapOut s .access
    | .fabric vas =>
      match f with
      | .ptr _ _ => trapOut s .access
      | .unit _ | .stride _ _ | .index _ _ => vloadFabric s (.lanes d w u lanes) vas (w / 8)
    | .remI _ _ | .remE _ _ | .bad => trapOut s .access

/-- VLD (R140). -/
def execVld (v a : Reg) (m : BitVec 2) (u : Bool) (z : Wd) (s : State) : Out := vload (.unit (s.gr a)) v m u z s

/-- VLDS (R140). -/
def execVlds (v a b : Reg) (m : BitVec 2) (u : Bool) (z : Wd) (s : State) : Out :=
  vload (.stride (s.gr a) (s.gr b)) v m u z s

/-- VLDP (R139, R140). -/
def execVldp (v : Reg) (p : BitVec 3) (m : BitVec 2) (u : Bool) (z : Wd) (s : State) : Out :=
  vload (.ptr p (ptrLane s.ctx p)) v m u z s

/-- The index elements of VGATHER and VSCATTER (R140). -/
def indexForm (s : State) (a b : Reg) (z : Wd) : VForm := .index (s.gr a) (lanesOf (s.vr b) z.bits)

/-- VGATHER (R140). -/
def execVgather (v a b : Reg) (m : BitVec 2) (u : Bool) (z : Wd) (s : State) : Out :=
  vload (indexForm s a b z) v m u z s

/-! ### Stores -/

/-- The cells a store leaves: of cells for one byte the last stands (R142), in the order of first
writing. -/
def lastCells (cs : List Host.Cell) : List Host.Cell :=
  ((cs.map Prod.fst).eraseDups).map fun a => (a, ((cs.reverse.find? fun c => c.1 == a).map Prod.snd).getD 0)

/-- Whether the bytes written form whole aligned pieces of n bytes (R195). -/
def wholePieces (n : Nat) (cs : List Host.Cell) : Bool :=
  (cs.map fun c => c.1 / n).all fun k => (List.range n).all fun i => cs.any fun c => c.1 == n * k + i

def byteIn (cs : List Host.Cell) (a : Nat) : Byte := ((cs.find? fun c => c.1 == a).map Prod.snd).getD 0

/-- The entries that whole 16-byte pieces write (R195, R198). -/
def entriesIn (cs : List Host.Cell) : List (Nat × Entry) :=
  ((cs.map fun c => c.1 / 16).eraseDups).map fun k =>
    let dw (o : Nat) : Word := BitVec.ofNat 64 (leNat ((List.range 8).map fun i => byteIn cs (16 * k + o + i)))
    (k, ⟨dw 0, dw 8⟩)

/-- The cells of raw lanes at offsets or addresses. -/
def rawCells (as : List Nat) (ls : List (Nat × Count)) (n : Nat) : List Host.Cell :=
  lastCells ((as.zip ls).flatMap fun p => cellsAt p.1 (leBytes n p.2.1))

/-- What a vector store is to do once its checks have passed: at the own port, as an effect at an aim, or in the
gather buffer. -/
inductive VPlan where
  | own (win : Nat) (offs : List Nat)
  | remote (a : Aim) (offs : List Nat)
  | istore (a : Aim) (offs : List Nat)
  | entries (a : Aim) (offs : List Nat)
  | fabric (ps : List (Nat × Xlate)) (vas : List Nat)
  deriving DecidableEq, Repr

/-- The checks of a vector store after alignment (R144, R195): class, reach, window, translation. n is the size of
a lane in bytes. DEDUCED (log entry 72): a store to an instruction store is 4-aligned where A is. -/
def vstoreCheck (f : VForm) (w : Nat) (c : VCls) (s : State) : (VPlan × State) ⊕ Out :=
  let x := s.ctx
  let n := w / 8
  let zeros (l : List Nat) : List (Nat × Count) := l.map fun _ => (0, 63)
  let bad : (VPlan × State) ⊕ Out := .inr (trapOut s .access)
  match c, f with
  | .own win offs, _ => if winTakes (ctxSides x) f true w win offs then .inl (.own win offs, s) else bad
  | .remI c offs, _ =>
    if s.priv && f.base.toNat % 4 == 0 && offs.all fun o => decide (o + n ≤ 0x10000) then
      .inl (.istore (toCore c (offs.headD 0)) offs, s)
    else bad
  | .remE c offs, _ =>
    if s.priv && wholePieces 16 (rawCells offs (zeros offs) n) then .inl (.entries (toCore c (offs.headD 0)) offs, s) else bad
  | .bad, _ | .remote _ _, .ptr _ _ | .fabric _, .ptr _ _ => bad
  | .remote c offs, _ => if inReach s.coreId x c then .inl (.remote (toCore c (offs.headD 0)) offs, s) else bad
  | .fabric vas, _ =>
    if guarded x (laneVas vas n) then bad
    else
      match xlateAll s .write (pagesOf (laneVas vas n)) [] with
      | .inr o => .inr o
      | .inl (ps, t) => .inl (.fabric ps vas, t)

/-- A vector store performed or placed, with what its bound check marks (R143): a fabric store marks as it issues, the
others as they are done. -/
def vstoreDo (f : VForm) (w : Nat) (ls : List (Nat × Count)) (p : VPlan) (mark : State → State) (s : State) : Out :=
  let n := w / 8
  let k (u : State) : Out := done (mark u)
  match p with
  | .own win offs =>
    let cs := (offs.zip ls).flatMap fun p => winCells (ctxSides s.ctx) win w p.1 p.2.1 p.2.2
    atOwnPort s (.scratch s.coreId) 1 (offs.headD 0) fun t =>
      rewriting t .scratch 8 cs fun u => k ((u.modCore fun y => { y with mem := wrCells y.mem cs }).modCtx (ptrDone f))
  | .remote a offs => placing s a (.store (rawCells offs ls n)) k
  | .istore a offs => placing s a (.istore (rawCells offs ls n)) k
  | .entries a offs => placing s a (.entries (entriesIn (rawCells offs ls n))) k
  | .fabric ps vas =>
    gathering (mark s) (mergeByLine ((rawCells vas ls n).filterMap fun c => (placeIn ps (ctxTag s.ctx) c.1).map fun p => (p, c.2)))

/-- A vector store issued (R140-R144). The bound check precedes every write (R143). DESIGN CHOICE (log entry 60): it
follows the checks of R144, whose list omits it. Unsafe. -/
def vstoreIssue (f : VForm) (v : Reg) (m : BitVec 2) (z : Wd) (b : Option (BitVec 3)) (s : State) : Out :=
  let w := z.bits
  let x := s.ctx
  let act := actives x m (512 / w)
  let c := vclassify (act.map fun i => classify (f.addr w i))
  if act.isEmpty then done s
  else if !(f.aligned w act) then trapOut s .align
  else
    let ls := act.map fun i => srcA x v w i
    match vstoreCheck f w c s with
    | .inr o => o
    | .inl (p, t) =>
      match b with
      | none => vstoreDo f w ls p id t
      | some r =>
        match boundLanes (boundAt t.core r) (w == 64) ls with
        | some (ls1, flag) =>
          vstoreDo f w ls1 p (fun u => if flag then u.modCore fun k => setFlag k r else u) t
        | none => trapOut t .bound

/-- A vector store: its checks are made once, as it issues; a fabric store that waits for a line of the gather buffer
then goes on where it stood (R143, R144, R285). -/
def vstore (f : VForm) (v : Reg) (m : BitVec 2) (z : Wd) (b : Option (BitVec 3)) (s : State) : Out :=
  storingOr s (vstoreIssue f v m z b s)

/-- VST (R140). -/
def execVst (v a : Reg) (m : BitVec 2) (z : Wd) (b : Option (BitVec 3)) (s : State) : Out :=
  vstore (.unit (s.gr a)) v m z b s

/-- VSTS (R140). -/
def execVsts (v a b : Reg) (m : BitVec 2) (z : Wd) (n : Option (BitVec 3)) (s : State) : Out :=
  vstore (.stride (s.gr a) (s.gr b)) v m z n s

/-- VSTP (R139, R140). -/
def execVstp (v : Reg) (p : BitVec 3) (m : BitVec 2) (z : Wd) (n : Option (BitVec 3)) (s : State) : Out :=
  vstore (.ptr p (ptrLane s.ctx p)) v m z n s

/-- VSCATTER (R140). -/
def execVscatter (v a b : Reg) (m : BitVec 2) (z : Wd) (s : State) : Out :=
  vstore (indexForm s a b z) v m z none s

/-! ### MM3 (R146) -/

/-- The window and offset of a pointer register. -/
def p3Win (x : Ctx) (p : BitVec 3) : Nat := ptrWin (ptrLane x p)
def p3Off (x : Ctx) (p : BitVec 3) : Nat := ptrOff (ptrLane x p)

/-- The lane type a window requires (R146). -/
def m3Type (win : Nat) (t : FTy) : Bool :=
  match win with
  | 0 => true
  | 1 | 2 => t == .f32
  | 3 | 4 => t == .bf16
  | _ => t == .f64

/-- Source bytes of one decoded line (R146). -/
def m3Line (win : Nat) : Nat := if win = 0 ∨ win = 7 then 64 else 32

/-- How one pointer of an MM3 form fails: ACCESS for windows 5 and 6, ALIGN, then ACCESS. DESIGN CHOICE (log entry
93): a type that does not match a pointer's window is ACCESS too; R146 names no trap for it. Unsafe. -/
def m3Check (x : Ctx) (t : FTy) (p : BitVec 3) : Option Cause :=
  let win := p3Win x p
  let off := p3Off x p
  if win = 5 ∨ win = 6 then some .access
  else if off % m3Line win ≠ 0 then some .align
  else if m3Type win t && decide (off + m3Line win ≤ spTop) &&
    (win != 7 || decide ((ctxSides x).tag + off / 8 + 7 < spTop)) then none
  else some .access

/-- Alignment is judged before class and window (R144). -/
def m3Fault (cs : List (Option Cause)) : Option Cause :=
  match cs.find? fun c => c == some .align with
  | some c => c
  | none => (cs.find? Option.isSome).getD none

/-- Element i of the line at a pointer. -/
def m3Elem (k : Core) (x : Ctx) (t : FTy) (p : BitVec 3) (i : Nat) : FVal :=
  let win := p3Win x p
  let off := p3Off x p
  let e := winElem k.mem (ctxSides x) win t.bits off (off + elemOff win t.bits i) i
  fval (ftyFmt t) e.1 e.2

/-- The bytes of the line at a pointer (R146). -/
def m3Reads (x : Ctx) (t : FTy) (p : BitVec 3) : List Nat :=
  let win := p3Win x p
  winReads (ctxSides x) win t.bits (p3Off x p) ((List.range (512 / t.bits)).map fun i => p3Off x p + elemOff win t.bits i)

/-- An MM3 form: lines read, computed, written, each named pointer advanced once, then the check. -/
def mm3 (op : FFmt → List FVal → FRes) (chk readsD : Bool) (d a b : BitVec 3) (t : FTy) (s : State) : Out :=
  let x := s.ctx
  match m3Fault ([a, b, d].map (m3Check x t)) with
  | some c => trapOut s c
  | none =>
    atOwnPort s (.scratch s.coreId) 1 (p3Off x d) fun u0 =>
      let f := ftyFmt t
      consuming u0 .scratch 8 ((if readsD then [a, b, d] else [a, b]).flatMap (m3Reads x t)) fun u =>
      let srcs (i : Nat) : List FVal :=
        (if readsD then [a, b, d] else [a, b]).map fun p => m3Elem u.core x t p i
      let rs := (List.range (512 / t.bits)).map fun i => (op f (srcs i), srcs i)
      let win := p3Win x d
      let cs := (rs.mapIdx fun i r =>
        winCells (ctxSides x) win t.bits (p3Off x d + elemOff win t.bits i) r.1.bits r.1.count).flatten
      rewriting u .scratch 8 cs fun u1 =>
      let v := (u1.modCore fun k => { k with mem := wrCells k.mem cs }).modCtx fun y =>
        ([a, b, d].eraseDups).foldl (fun z p => advPtr z p (ptrLane x p)) y
      if chk then
        checked v (sigElems (fmtP f) (rs.map fun r => some (r.1, r.2, r.2.map FVal.c))) true
      else done v

/-- Two sources of an MM3 form. -/
def m3two (op : FFmt → FVal → FVal → FRes) (f : FFmt) (l : List FVal) : FRes :=
  match l with
  | p :: q :: _ => op f p q
  | _ => ⟨0, 0⟩

def m3fma (r : Rnd) (f : FFmt) (l : List FVal) : FRes :=
  match l with
  | p :: q :: c :: _ => fmaR f r false false p q c
  | _ => ⟨0, 0⟩

/-- MADD3 (R146). -/
def execMadd3 (d a b : BitVec 3) (t : FTy) (r : Rnd) (s : State) : Out :=
  mm3 (m3two fun f p q => faddR f (rndOf s.ctx r false) p q) true false d a b t s

/-- MSUB3 (R146). -/
def execMsub3 (d a b : BitVec 3) (t : FTy) (r : Rnd) (s : State) : Out :=
  mm3 (m3two fun f p q => faddR f (rndOf s.ctx r false) p (fnegV q)) true false d a b t s

/-- MMUL3 (R146). -/
def execMmul3 (d a b : BitVec 3) (t : FTy) (r : Rnd) (s : State) : Out :=
  mm3 (m3two fun f p q => fmulR f (rndOf s.ctx r false) p q) true false d a b t s

/-- MFMA3 (R146). -/
def execMfma3 (d a b : BitVec 3) (t : FTy) (r : Rnd) (s : State) : Out :=
  mm3 (m3fma (rndOf s.ctx r false)) true true d a b t s

/-- MMIN3 (R146). -/
def execMmin3 (d a b : BitVec 3) (t : FTy) (s : State) : Out :=
  mm3 (m3two fun f p q => fminmaxR f false p q) false false d a b t s

/-- MMAX3 (R146). -/
def execMmax3 (d a b : BitVec 3) (t : FTy) (s : State) : Out :=
  mm3 (m3two fun f p q => fminmaxR f true p q) false false d a b t s

end Sys2Proof.Machine
end

