-- ==== Sys2Proof/Machine/Head.lean ====
section
/-! DEFINITION. The shift store and its heads: claims and holdings (R208, R209), motion (R204), the
transfer with its picot check (R205, R221), the eight head instructions (R210-R218). -/
namespace Sys2Proof.Machine

/-! ### Levels -/

/-- The 32-bit state of a head (R206). -/
def headWord (y : Head) : Nat :=
  y.bank.toNat + y.pos.toNat * 2 ^ 8 + y.step.toNat * 2 ^ 16 + b2n y.bnd * 2 ^ 21 + b2n y.disp * 2 ^ 22 +
    b2n y.busy * 2 ^ 23 + y.rcnt.toNat * 2 ^ 24 + b2n y.err * 2 ^ 28

/-- The level of a holder (R207): 1-4 for contexts, 0 for the engine. -/
def levelOf (k : Core) : Holder → Nat
  | .head c _ => nfld k.headpri.toNat (2 * c.toNat) 2 + 1
  | .engine _ => 0

/-! ### Holding -/

def holds (s : State) (w : Holder) : Bool := decide ((bankAt s.core (headOf s w).bank).holder = some w)

/-- A holder's head set on its way to its POS from where its bank stands as cycle n begins: BUSY until aligned (R206,
R213). Within a line transfer's occupancy the step shift under way makes its first position before (R205, R209). -/
def steer (s : State) (w : Holder) (n : Nat) : State :=
  let y := headOf s w
  let b := bankAt s.core y.bank
  let aim (k : Core) : Core :=
    if n < b.taken ∧ b.moving.isSome = true then setBank k y.bank cutStep
    else setBank (stopBank n k y.bank) y.bank fun b => aimBank n b y.pos
  let t := s.modCore aim
  modHead t w fun z => { z with disp := false, busy := (bankAt t.core y.bank).moving.isSome }

/-- Whether an operation of a head waits for its bank: a context stalled in one, the engine's track command
(R209). DESIGN CHOICE (log entry 87): engine head 1, which only seeks ahead for a queued command (R270), renews its
claim at once as well; R209 speaks of a waiting operation. Unsafe. -/
def waitsFor (s : State) (w : Holder) : Bool :=
  match w with
  | .head c h => decide ((s.ctxAt c).phase = .running) && decide ((s.ctxAt c).stall = some (.head h))
  | .engine h => s.core.cprun.isSome && (engHead s.core h).bnd

/-- The head that loses its bank at the boundary before cycle n is displaced; where an operation of it waits, it
renews its claim at once (R208, R209). -/
def displace (s : State) (b : BitVec 8) (o : Holder) (n : Nat) : State :=
  let again := waitsFor s o
  let s1 := modHead s o fun y => { y with disp := true, busy := again }
  if again then s1.modCore fun k => setBank k b fun x => { x with claims := x.claims ++ [(o, n - 1)] } else s1

/-- A claim granted at the step boundary before cycle n (R208, R209): the former holder is displaced and its bank
stops where it stands; then it moves to the new one's POS. -/
def grant (s : State) (w : Holder) (n : Nat) : State :=
  let b := (headOf s w).bank
  let s1 := match (bankAt s.core b).holder with
    | none => s
    | some o => displace s b o n
  let s2 := s1.modCore fun k => setBank (stopBank n k b) b fun x =>
    { x with holder := some w, granted := n + 1, claims := x.claims.filter fun p => !(decide (p.1 = w)) }
  steer s2 w n

/-- Order among claims at one time (R208): contexts by number, then the engine's heads. -/
def holderRank : Holder → Nat
  | .head c h => 4 * c.toNat + h.toNat
  | .engine false => 16
  | .engine true => 17

/-- The claim granted first: the highest level, the earliest, the lowest number (R208). -/
def bestClaim (k : Core) (cs : List (Holder × Nat)) : Option (Holder × Nat) :=
  let better (a b : Holder × Nat) : Bool :=
    decide (levelOf k b.1 < levelOf k a.1 ∨ (levelOf k b.1 = levelOf k a.1 ∧
      (a.2 < b.2 ∨ (a.2 = b.2 ∧ holderRank a.1 < holderRank b.1))))
  cs.foldl (fun a c => match a with | none => some c | some x => if better c x then some c else some x) none

/-- Whether a claim is granted at the boundary before cycle n (R208, R209, R217): never within a line transfer's
occupancy or a rewind, nor where one has been granted at that boundary. DEDUCED (log entry 41): a transfer that waits
for a channel is an operation of its holder in progress, so a lower claim waits for it. Unsafe. -/
def grantable (s : State) (b : Bank) (w : Holder) (n : Nat) : Bool :=
  decide (b.taken ≤ n) &&
  match b.holder with
  | none => true
  | some o =>
    let lw := levelOf s.core w
    let lo := levelOf s.core o
    let still := match b.moving with | none => true | some p => reached n b == p && p == (headOf s o).pos
    !b.rewind && decide (b.granted ≤ n) && (decide (lo < lw) || (still && (lo == lw || (decide (b.idle + 16 ≤ n) && !(waitsFor s o)))))

/-- The claim of a bank that R208 grants at the boundary before cycle n. -/
def grantAt (bank : BitVec 8) (n : Nat) (s : State) : Option State :=
  let b := bankAt s.core bank
  match bestClaim s.core b.claims with
  | none => none
  | some (w, _) => if grantable s b w n then some (grant s w n) else none

/-- HEAD_CLAIM_GRANT (R208), before the instruction of this cycle. -/
def tryGrant (bank : BitVec 8) (s : State) : Option State := grantAt bank s.cyc s

/-- A motion that is over has ended, and a claim that R208 grants is granted, before the next operation at a bank
begins. -/
def dueBank (s : State) (b : BitVec 8) : State :=
  let t := arrive s b
  (tryGrant b t).getD t

/-- The same at the bank of a head. -/
def dueGrant (s : State) (w : Holder) : State := dueBank s (headOf s w).bank

/-- A head claims its bank: granted at the end of this cycle where R208 grants it then, else it waits. -/
def claim (s : State) (w : Holder) : State :=
  let y := headOf s w
  let s1 := modHead s w fun z => { z with disp := true, busy := true }
  let s2 := if (bankAt s.core y.bank).claims.any fun p => decide (p.1 = w) then s1
    else s1.modCore fun k => setBank k y.bank fun x => { x with claims := x.claims ++ [(w, s.cyc)] }
  (grantAt y.bank (s.cyc + 1) s2).getD s2

/-- A head that f sets on bank b seeks its POS: steered where it holds that bank, else a claim (R211, R213). -/
def seekHead (s : State) (w : Holder) (b : BitVec 8) (f : Head → Head) : State :=
  let t := modHead (dueBank s b) w f
  if holds t w then steer t w (t.cyc + 1) else claim t w

/-- Whether a head holds its bank, which stands at its POS with no line transfer in progress. -/
def standsAt (s : State) (w : Holder) : Bool :=
  let y := headOf s w
  let b := bankAt s.core y.bank
  decide (b.holder = some w) && b.moving.isNone && b.counted == y.pos && decide (b.taken ≤ s.cyc)

/-- The same in a cycle in which the head may transfer: after that at whose end it was granted or steered (R208,
R209). -/
def alignedAt (s : State) (w : Holder) : Bool :=
  standsAt s w && decide ((bankAt s.core (headOf s w).bank).began ≤ s.cyc)

/-! ### Shifts and transfers -/

/-- What the picot check finds: off in -8..+7 (R221). -/
def picotOff (track : Int) (pos : BitVec 8) : Int :=
  let o := wrapNat 4 (track - (pos.toNat : Int))
  if 8 ≤ o then (o : Int) - 16 else o

/-- The check of one transfer with up to n realignments left, and the cycles they take; false is a track fault
(R205, R221). DESIGN CHOICE (log entry 100): an over-shift that a realignment fires shows in the cycle in which the
transfer, which reads what the check leaves, begins (R220); R221 gives the shift of a realignment no cycle of its own.
Unsafe. -/
def verify (b : BitVec 8) : Nat → Core × Head × Nat → (Core × Head × Nat) × Bool
  | n, (k, y, t) =>
    let off := picotOff (bankAt k b).track y.pos
    if off = 0 then ((k, y, t), true)
    else
      match n with
      | 0 => ((k, y, t), false)
      | m + 1 =>
        verify b m (shiftBy k b (-off) y.pos, { y with rcnt := if y.rcnt = 15 then 15 else y.rcnt + 1, err := true },
          t + off.natAbs + 8)

/-- The key of a line of a bank, its spare if one stands in for it; none beyond the data positions (R203,
R222). -/
def lineKey (k : Core) (b : BitVec 8) (track : Int) : Option Nat :=
  let phys := match (bankAt k b).spare with | none => b.toNat | some i => 256 + i.toNat
  if 0 ≤ track ∧ track < 256 then some (phys * 256 + track.toNat) else none

/-- A word of a line that the specification does not state (log entry 6). -/
def freeLine (n : Nat) : VWord := BitVec.ofNat 512 (ofLanes 64 ((List.range 8).map fun i => (Config.freeWord (n + i)).toNat))

/-- The words of a line that carry check bits (R223). -/
def lineWords (a : Nat) : List Nat := (List.range 8).map fun i => 8 * a + i

/-- The line under the port, and whether it shows an uncorrectable error (R223); a guard position holds no data: a
free value. -/
def readLine (s : State) (b : BitVec 8) : VWord × State × Bool :=
  match lineKey s.core b (bankAt s.core b).track with
  | some a => (tget 0 s.core.lines a, s.consume .lines (lineWords a))
  | none => (freeLine s.free, { s with free := s.free + 8 }, false)

/-- A line written, with fresh check bytes (R216). -/
def writeLine (k : Core) (b : BitVec 8) (x : VWord) : Core :=
  match lineKey k b (bankAt k b).track with
  | some a => freshWords .lines (lineWords a) { k with lines := tput 0 k.lines a x }
  | none => k

/-- How a line transfer ends: performed, in a track fault, or in the loss of its core. -/
inductive Moved where
  | done
  | track
  | lost
  deriving DecidableEq, Repr

/-- The step shift after a transfer (R205): its first position in the last cycle of the occupancy, the others one a
cycle after it. -/
def stepShift (s : State) (w : Holder) : State :=
  let y := headOf s w
  let t := s.modCore fun k => setBank k y.bank fun b =>
    let m := aimBank 0 { b with taken := b.taken - 1 } y.pos
    { m with taken := b.taken, idle := max b.taken m.idle }
  modHead t w fun z => { z with disp := false, busy := (bankAt t.core y.bank).moving.isSome }

/-- Whether one of the four channels of the core is free (R205): each line transfer holds one for its occupancy. -/
def channelFree (s : State) : Bool := decide ((s.core.banks.filter fun e => decide (s.cyc < e.2.taken)).length < 4)

/-- A line transfer of an aligned holder, checked and stepped (R205, R215, R216): f reads or writes the
line, and says whether it met an uncorrectable error. It takes the bank for two cycles and its realignments'. -/
def transfer (s : State) (w : Holder) (f : State → BitVec 8 → State × Bool) : State × Moved :=
  let y := headOf s w
  let r := verify y.bank 2 (s.core, y, 0)
  let s1 := modHead
    (s.modCore fun _ => setBank r.1.1 y.bank fun b => { b with taken := s.cyc + 2 + r.1.2.2, lastBy := some w }) w fun _ => r.1.2.1
  if r.2 then
    match f s1 y.bank with
    | (s2, true) => (s2, .lost)
    | (s2, false) => (stepShift (modHead s2 w fun z => { z with pos := z.pos + z.step.signExtend 8 }) w, .done)
  else (s1, .track)

/-! ### The head instructions -/

def cur (s : State) (h : BitVec 2) : Holder := .head s.core.cur h

/-- TRACK at a bank and position (R222). -/
def trackOut (s : State) (b p : BitVec 8) : Out := .next (abortWith s s.core.cur .track false [b.toNat, p.toNat])

/-- The checks of a form that names a bound head (R210, R222). -/
def headForm (h : BitVec 2) (s : State) (k : State → Out) : Out :=
  let y := headAt s.ctx h
  if !y.bnd then trapOut s .access
  else if (bankAt s.core y.bank).failed then trackOut s y.bank y.pos
  else k s

/-- HBIND (R211). DESIGN CHOICE (log entry 86): for a failed bank, which leaves the head as it was, the fault record
holds the POS of the operand, ga[15:8]; R222 does not say which. Unsafe. -/
def execHbind (a : Reg) (h : BitVec 2) (s : State) : Out :=
  let w := s.gr a
  let b : BitVec 8 := w.extractLsb' 0 8
  let y := headAt s.ctx h
  if (bankAt s.core b).failed then trackOut s b (w.extractLsb' 8 8)
  else
    let s1 := if y.bnd && y.bank != b then freeHead s s.core.cur h else s
    done (seekHead s1 (cur s1 h) b fun z =>
      { z with bank := b, pos := w.extractLsb' 8 8, step := w.extractLsb' 16 5, bnd := true, rcnt := 0, err := false })

/-- HFREE (R212). -/
def execHfree (h : BitVec 2) (s : State) : Out := done (freeHead s s.core.cur h)

/-- SEEK (R213). -/
def execSeek (a : Reg) (h : BitVec 2) (s : State) : Out :=
  headForm h s fun t =>
    done (seekHead t (cur t h) (headAt t.ctx h).bank fun y => { y with pos := (t.gr a).setWidth 8 })

/-- The current context stalls in an operation of a head. -/
def headStall (h : BitVec 2) (s : State) : Out := .next (s.stallAs (.head h))

/-- k once the head holds its bank and stands at its POS; else a stall, with a claim where it is displaced (R214,
R215). A claim that is due goes first; one granted on a held bank is granted at the end of this cycle, so that k is
for the next (R208). -/
def whenAligned (h : BitVec 2) (s0 : State) (k : State → Out) : Out :=
  let s := dueGrant s0 (cur s0 h)
  if alignedAt s (cur s h) then k s
  else if holds s (cur s h) then headStall h s
  else
    let t := claim s (cur s h)
    let free := (bankAt s.core (headAt s.ctx h).bank).holder.isNone
    if free && standsAt t (cur t h) then k t else headStall h t

/-- HWAIT (R214): an operation newly issued, so the bank is not idle (R208). -/
def execHwait (h : BitVec 2) (s : State) : Out :=
  headForm h s fun t => whenAligned h t fun u =>
    done (u.modCore fun k => setBank k (headAt u.ctx h).bank fun b => { b with idle := u.cyc + 1 })

/-- A transfer of the current context at a bank's port (R215, R216). -/
def headTransfer (h : BitVec 2) (kind : Nat) (f : State → BitVec 8 → State × Bool) (s : State) : Out :=
  headForm h s fun t => whenAligned h t fun t =>
    let y := headAt t.ctx h
    if !(channelFree t) then headStall h t
    else atOwnPort t (.bank t.coreId y.bank) kind y.pos.toNat fun u =>
      match transfer u (cur u h) f with
      | (v, .done) => done v
      | (v, .track) => trackOut v y.bank y.pos
      | (v, .lost) => killOut v

/-- RDS (R215). -/
def execRds (d : Reg) (h : BitVec 2) (s : State) : Out :=
  headTransfer h 0 (fun t b => let r := readLine t b; (r.2.1.setVC d r.1 fullCounts, r.2.2)) s

/-- WRS (R216). -/
def execWrs (a : Reg) (h : BitVec 2) (s : State) : Out :=
  headTransfer h 1 (fun t b => (t.modCore fun k => writeLine k b (t.vr a), false)) s

/-- RWD (R217): the bank claimed, then rewound; the context stalls until the bank's rewind ends, which
also ends the instruction. -/
def execRwd (h : BitVec 2) (s : State) : Out :=
  headForm h s fun t0 =>
    let b := (headAt t0.ctx h).bank
    let w := cur t0 h
    let rewinds := (bankAt t0.core b).rewind && holds t0 w
    let t := if rewinds then t0 else dueGrant t0 w
    let t1 := if holds t w then t else claim t w
    let from_ := if holds t w || (bankAt t.core b).holder.isNone then t.cyc else t.cyc + 1
    if rewinds || decide (t.cyc + 1 < (bankAt t.core b).taken) then headStall h t1
    else if holds t1 w then
      headStall h (modHead (t1.modCore fun k => setBank (stopBank (t.cyc + 1) k b) b fun x =>
        { x with moving := some 0, began := max from_ x.taken, rewind := true }) w fun y => { y with busy := true })
    else headStall h t1

/-- The state of a head as HSTAT reads it in this cycle: BUSY also within its transfer's occupancy (R206, R218). -/
def headSeen (s : State) (w : Holder) : Nat :=
  let t := dueGrant s w
  let y := headOf t w
  headWord { y with busy := y.busy || (holds t w && decide (s.cyc < (bankAt t.core y.bank).taken)) }

/-- HSTAT (R218). -/
def execHstat (d : Reg) (h : BitVec 2) (s : State) : Out :=
  done (s.setG d (BitVec.ofNat 64 (headSeen s (cur s h))))

end Sys2Proof.Machine
end

