-- ==== Sys2Proof/Machine/Matrix.lean ====
section
/-! DEFINITION. The matrix unit: commands and their checks (R231-R233, R246, R255), reads of A, B, tables
and scales (R234, R236, R248-R254), chains (R79, R235), views (R238), the sequencer (R242), the budget
and the governor (R243, R244), and the four instructions (R231, R238-R240). -/
namespace Sys2Proof.Machine

/-! ### The command word (R232) -/

def mxKind (d : Vector Word 8) : Nat := nfld (d[0]).toNat 0 8
def mxAcc (d : Vector Word 8) : Nat := nfld (d[0]).toNat 8 3
def mxZf (d : Vector Word 8) : Bool := (d[0]).getLsbD 11
def mxAfmt (d : Vector Word 8) : Nat := nfld (d[0]).toNat 12 4
def mxBfmt (d : Vector Word 8) : Nat := nfld (d[0]).toNat 16 4
def mxCd (d : Vector Word 8) : Bool := (d[0]).getLsbD 20
def mxMode (d : Vector Word 8) : Nat := nfld (d[0]).toNat 21 4
def mxK (d : Vector Word 8) : Nat := nfld (d[0]).toNat 32 16
def mxOff (d : Vector Word 8) : Nat := (d[1]).toNat % 0x40000
def mxStride (d : Vector Word 8) : Int := sgn 32 (nfld (d[2]).toNat 0 32)
def mxLen (d : Vector Word 8) : Nat := nfld (d[2]).toNat 0 32
def mxWofs (d : Vector Word 8) : Nat := nfld (d[3]).toNat 0 17
def mxTable (d : Vector Word 8) : Nat := nfld (d[4]).toNat 0 17
def mxScale (d : Vector Word 8) : Nat := nfld (d[5]).toNat 0 17

def isMma (d : Vector Word 8) : Bool := mxKind d == 1
def isCodebook (d : Vector Word 8) : Bool := isMma d && (mxBfmt d == 5 || mxBfmt d == 6 || mxBfmt d == 7)

/-- A doubleword has no bit outside a mask. -/
def within (x : Word) (mask : Nat) : Bool := (x.toNat &&& mask) == x.toNat

/-- The combinations of R233. -/
def comboOk (mode a b : Nat) : Bool :=
  match mode with
  | 0 => a == 0 && (b ≤ 2 || (5 ≤ b && b ≤ 9))
  | 1 => (a == 1 || a == 2) && (b == 1 || b == 2)
  | 2 => a == 3 && b == 3
  | 3 => a == 4 && b == 4
  | _ => false

/-- The windows of A by mode (R233). -/
def winOkA (mode win : Nat) : Bool :=
  match mode with
  | 0 => win == 0 || win == 3 || win == 4 || win == 5 || win == 6
  | 1 => win == 0
  | 2 => win == 0 || win == 1 || win == 2
  | _ => win == 0 || win == 7

/-- The format and width of an A element by AFMT. -/
def aFmt (a : Nat) : FFmt :=
  match a with
  | 0 => bf16F
  | 1 => e4m3F
  | 2 => e5m2F
  | 3 => f32F
  | _ => f64F
def aBits (a : Nat) : Nat := fmtBits (aFmt a)

/-- Bytes of B per k-row (R246). -/
def rowBytesB (b : Nat) : Nat :=
  match b with
  | 0 => 64
  | 1 | 2 => 32
  | 3 | 4 => 128
  | 5 => 8
  | 6 => 12
  | 7 => 16
  | 8 => 8
  | _ => 16

/-- The first check of R232: kind, unused fields, reserved bits, combinations, K, ACC. -/
def mxLegal (d : Vector Word 8) : Bool :=
  let m20 : Nat := 2 ^ 20
  let cd6 := mxCd d || d[6] == 0
  let d3ok := within (d[3]) 0x1FFFF
  match mxKind d with
  | 1 =>
    within (d[0]) (0xFFFF00000000 + 0x1FFFFFF) && comboOk (mxMode d) (mxAfmt d) (mxBfmt d) &&
      mxK d % 32 == 0 && 0 < mxK d && mxK d ≤ 4096 && !(mxMode d == 3 && mxAcc d % 2 == 1) &&
      within (d[2]) 0xFFFFFFFF && d3ok &&
      (if isCodebook d then within (d[4]) 0x1FFFF else d[4] == 0) &&
      (if mxBfmt d == 8 || mxBfmt d == 9 then within (d[5]) 0x1FFFF else d[5] == 0) && cd6
  | 2 =>
    within (d[0]) (0xFF + m20) && within (d[2]) 0xFFFFFFFF && d3ok && d[4] == 0 && d[5] == 0 && cd6
  | 3 => within (d[0]) (0xFF + m20) && within (d[2]) 0xFF && d[3] == 0 && d[4] == 0 && d[5] == 0 && cd6
  | 4 =>
    within (d[0]) (0x7FF + m20 + 0x1E00000) && (mxMode d == 0 || (mxMode d == 3 && mxAcc d % 2 == 0)) &&
      d[1] == 0 && d[2] == 0 && d[3] == 0 && d[4] == 0 && d[5] == 0 && cd6
  | 5 =>
    within (d[0]) (0x8FF + m20) && !(mxZf d && d[1] != 0) && d[2] == 0 && d[3] == 0 && d[4] == 0 &&
      d[5] == 0 && cd6
  | _ => false

/-- The window of A, where D1 is an address of the local aperture. -/
def mxWin (d : Vector Word 8) : Option Nat := match classify (d[1]) with | .own w _ => some w | _ => none

/-- Whether a kind reads a 64-aligned window-0 source at D1. -/
def readsLine (d : Vector Word 8) : Bool :=
  mxKind d == 2 || mxKind d == 3 || (mxKind d == 5 && !(mxZf d))

/-- The second check: D1 (R232). -/
def mxAddrOk (d : Vector Word 8) : Bool :=
  if isMma d then (match mxWin d with | none => false | some w => winOkA (mxMode d) w)
  else if readsLine d then mxWin d == some 0 && (d[1]).toNat % 64 == 0
  else true

/-- The third check: alignment (R232, R255). -/
def mxAlignOk (d : Vector Word 8) : Bool :=
  if isMma d then
    let al := winAlign ((mxWin d).getD 0) (aBits (mxAfmt d))
    mxOff d % al == 0 && mxStride d % (al : Int) == 0 && mxWofs d % 64 == 0 &&
      !(isCodebook d && mxTable d % 64 != 0) && !(mxBfmt d == 8 && mxScale d % 64 != 0) &&
      !(mxBfmt d == 9 && mxScale d % 32 != 0)
  else if mxKind d == 2 then mxWofs d % 64 == 0
  else true

/-- The source offset of row m of A (R233). -/
def rowA (d : Vector Word 8) (m : Nat) : Int := (mxOff d : Int) + m * mxStride d

/-- The bytes of a row and its side bytes exist. DESIGN CHOICE (log entry 110): an odd SCALEBASE6, which R196 makes
ACCESS at issue and R232 does not list, is found by this check, after those for ALIGN. Unsafe. -/
def rowOk (d : Vector Word 8) (t : Sides) (m : Nat) : Bool :=
  let win := (mxWin d).getD 0
  let w := aBits (mxAfmt d)
  let o := rowA d m
  let last := elemOff win w (mxK d - 1) + (if win = 5 then 1 else srcBytes win w)
  decide (0 ≤ o ∧ o + last ≤ spTop) &&
    (let a := o.toNat
     let blk := a + elemOff win w (mxK d - 32)
     sideOk t win blk (a + elemOff win w (mxK d - 1)))

/-- The fourth check: ranges (R232, R246, R255). -/
def mxRangeOk (d : Vector Word 8) (t : Sides) : Bool :=
  let k := mxK d
  match mxKind d with
  | 1 =>
    ((List.range 16).all (rowOk d t)) && mxWofs d + rowBytesB (mxBfmt d) * k ≤ 0x20000 &&
      !(isCodebook d && decide (spTop < mxTable d + 16 * k)) &&
      !(mxBfmt d == 8 && decide (spTop < mxScale d + 2 * k)) && !(mxBfmt d == 9 && decide (spTop < mxScale d + k))
  | 2 =>
    0 < mxLen d && mxLen d % 64 == 0 && mxOff d + mxLen d ≤ spTop && mxWofs d + mxLen d ≤ 0x20000
  | 3 => (List.range 8).all fun i => !(nbit (d[2]).toNat i) || decide (mxOff d + 16 * i + 16 ≤ spTop)
  | 5 => mxZf d || decide (mxOff d + 512 ≤ spTop)
  | _ => true

/-- The checks of MXC in order: the trap the first failing one takes (R232). -/
def mxFault (me : CoreId) (d : Vector Word 8) (t : Sides) : Option Cause :=
  if !(mxLegal d) then some .illegal
  else if !(mxAddrOk d) then some .access
  else if !(mxAlignOk d) then some .align
  else if !(mxRangeOk d t) then some .access
  else if mxCd d then (match cdAim me (d[6]) with | .bad c => some c | .record _ _ => none)
  else none

/-! ### Operands of an MMA -/

/-- A[m][k] (R233): 63 as its count but through window 7 (R86). -/
def elemA (mem : Memory) (c : MxCmd) (m k : Nat) : FVal :=
  let d := c.dw
  let win := (mxWin d).getD 0
  let w := aBits (mxAfmt d)
  let o := (rowA d m).toNat
  let e := winElem mem (sidesOf c.tag c.sc5 c.sc6) win w (o + elemOff win w (k / 32 * 32)) (o + elemOff win w k) k
  fval (aFmt (mxAfmt d)) e.1 e.2

/-- The index of B's element (k, n) (R234). -/
def linB (d : Vector Word 8) (k n : Nat) : Nat := if mxMode d = 3 then 16 * k + n else 32 * k + n

/-- Bits a codebook index has. -/
def bookBits (b : Nat) : Nat := b - 3

/-- The k-bit index of element i in the bitstream from wofs (R248): bytes in order, bit 0 first. -/
def bookIndex (wb : Memory) (wofs k i : Nat) : Nat := nfld (rdNat wb (wofs + k * i / 8) 2) (k * i % 8) k

/-- Entry c of a table line (R249). -/
def bookEntry (line : List Byte) (c : Nat) : Nat := leNat ((line.drop (8 + 2 * c)).take 2)

/-- The lattice table; the ROM default: p and p mirrored (R253). -/
def rev8 (p : Nat) : Nat := ((List.range 8).map fun i => b2n (nbit p i) * 2 ^ (7 - i)).sum
def latticePat (t : Option (List Byte)) (p : Nat) : Nat :=
  match t with
  | none => p + rev8 p * 256
  | some bs => leNat ((bs.drop (2 * p)).take 2)

/-- An L8 weight (R252). -/
def latticeElem (t : Option (List Byte)) (x e : Nat) (sc : FNum) : FNum :=
  let c := nfld (latticePat t (x / 256)) (2 * e) 2
  let sg := if e < 7 then nbit x (1 + e) else popN (x % 256) 8 % 2 == 1
  mulF (.fin sg (2 * c + 1) (-1)) sc

/-- B[k][n], exact, with count 63 (R234, R248, R252, R254). tabs are the lines of the K-step's blocks. -/
def elemB (mem wb : Memory) (lat : Option (List Byte)) (d : Vector Word 8) (tabs : List (List Byte)) (kr n : Nat) : FVal :=
  let i := linB d kr n
  let o := mxWofs d
  let v : FNum :=
    match mxBfmt d with
    | 0 => decodeF bf16F (rdNat wb (o + 2 * i) 2)
    | 1 => decodeF e4m3F (rdNat wb (o + i) 1)
    | 2 => decodeF e5m2F (rdNat wb (o + i) 1)
    | 3 => decodeF f32F (rdNat wb (o + 4 * i) 4)
    | 4 => decodeF f64F (rdNat wb (o + 8 * i) 8)
    | 8 =>
      latticeElem lat (rdNat wb (o + 8 * kr + 2 * (n / 8)) 2) (n % 8)
        (decodeF bf16F (rdNat mem (mxScale d + 2 * kr) 2))
    | 9 =>
      let nib := nfld (rdNat wb (o + i / 2) 1) (4 * (i % 2)) 4
      mulF (decodeF e2m1F nib) (e8m0 (rdNat mem (mxScale d + kr) 1))
    | b =>
      decodeF bf16F (bookEntry (tabs.getD (kr % 32 / 4) []) (bookIndex wb o (bookBits b) i))
  ⟨v, 63, 53⟩

/-! ### Accumulators and chains (R79, R235) -/

def accFmt (mode : Nat) : FFmt := if mode = 3 then f64F else fa40F
/-- Columns of a tile. -/
def accCols (mode : Nat) : Nat := if mode = 3 then 16 else 32

def zeroCell : Cell40 := ⟨0, 63⟩
def zeroCell64 : Cell64 := ⟨0, 63⟩
def cellKey (n row col : Nat) : Nat := n * 512 + row * 32 + col
def tileKey (n row col : Nat) : Nat := n / 2 * 256 + row * 16 + col

/-- A cell of an accumulator, or of its pair, as a chain. -/
def accCell (k : Core) (mode n row col : Nat) : Chain :=
  if mode = 3 then let c := tget zeroCell64 k.tiles (tileKey n row col); ⟨c.bits, c.count⟩
  else let c := tget zeroCell k.acc (cellKey n row col); ⟨c.bits.setWidth 64, c.count⟩

def setAccCell (k : Core) (mode n row col : Nat) (c : Chain) : Core :=
  if mode = 3 then { k with tiles := tput zeroCell64 k.tiles (tileKey n row col) ⟨c.bits, c.count⟩ }
  else { k with acc := tput zeroCell k.acc (cellKey n row col) ⟨c.bits.setWidth 40, c.count⟩ }

def chainVal (f : FFmt) (c : Chain) : FVal := fval f c.bits.toNat c.count

/-- round_acc of a sum (R79). -/
def chainAdd (f : FFmt) (a b : FVal) : Chain := let r := faddR f .rne a b; ⟨BitVec.ofNat 64 r.bits, r.count⟩

/-- Both chains of a cell advanced over k, k+1, ... (R79). -/
def chainRun (f : FFmt) (a b : Nat → FVal) : List Nat → Chain × Chain → Chain × Chain
  | [], p => p
  | k :: ks, (e, o) =>
    let t := prodV (fmtP f) (a k) (b k)
    if k % 2 = 0 then chainRun f a b ks (chainAdd f (chainVal f e) t, o)
    else chainRun f a b ks (e, chainAdd f (chainVal f o) t)

def zeroChain : Chain := ⟨0, 63⟩

/-- The cells of a tile, row by row. -/
def tileCells (mode : Nat) : List (Nat × Nat) :=
  (List.range 16).flatMap fun r => (List.range (accCols mode)).map fun c => (r, c)

/-- The view of a cell: what stood before, E and O combined (R238). -/
def cellView (f : FFmt) (before e o : Chain) : Chain :=
  let s := chainAdd f (chainVal f e) (chainVal f o)
  chainAdd f (chainVal f before) (chainVal f s)

/-- The accumulators a command names (R239). -/
def mxNames (d : Vector Word 8) : List Nat :=
  if isMma d || mxKind d == 4 then
    (if mxMode d = 3 then [mxAcc d, mxAcc d + 1] else [mxAcc d])
  else []

def tagOf (k : Core) (n : Nat) : Bool := k.f64tag.getLsbD n
def setTag (k : Core) (n : Nat) (b : Bool) : Core :=
  { k with f64tag := if b then k.f64tag ||| (1#8 <<< n) else k.f64tag &&& ~~~(1#8 <<< n) }

def dropSteps (k : Core) (n : Nat) : Core := { k with steps := k.steps.setIfInBounds n 0 }

/-- The running MMA that owns an accumulator (R238). -/
def ownerOf (k : Core) (n : Nat) : Option MxRun :=
  match k.mxrun with
  | none => none
  | some r => if isMma r.cmd.dw && (mxNames r.cmd.dw).contains n then some r else none

/-- What MXR sees in a cell of accumulator n, or of its pair (R238). -/
def viewCell (k : Core) (mode n row col : Nat) : Chain :=
  match ownerOf k n with
  | none => accCell k mode n row col
  | some r =>
    let i := row * accCols mode + col
    let b := r.before.getD i zeroChain
    if r.steps = 0 then b else cellView (accFmt mode) b (r.even.getD i zeroChain) (r.odd.getD i zeroChain)

/-- The step count of an accumulator (R238). -/
def stepCount (k : Core) (n : Nat) : Nat :=
  match ownerOf k n with
  | none => k.steps.toArray.getD n 0
  | some r => r.steps

/-- The stall cycles of a running command at a core cycle (R250): those of the stalls that are over, and those so
far of the one at hand, up to the re-read that is due. -/
def stallsOf (cyc : Nat) (r : MxRun) : Nat :=
  r.tstall + (match r.stall with | none => 0 | some c => cyc - c)

def tstallOf (cyc : Nat) (k : Core) (n : Nat) : Nat :=
  min 65535 (match ownerOf k n with | none => k.tstall.toArray.getD n 0 | some r => stallsOf cyc r)

/-! ### The instructions -/

def mxqAt (k : Core) (c : CtxNo) : List MxCmd := k.mxq[c.toNat]'(by have := c.isLt; omega)
def setMxq (k : Core) (c : CtxNo) (l : List MxCmd) : Core :=
  { k with mxq := k.mxq.set c.toNat l (by have := c.isLt; omega) }

/-- Bits in which two stored patterns differ. -/
def hamming (x y : Nat) : Nat := popN (x ^^^ y) 64

/-- The stored pattern of A[0][k] (R242). -/
def storedA (mem : Memory) (c : MxCmd) (k : Nat) : Nat :=
  let win := (mxWin c.dw).getD 0
  let w := aBits (mxAfmt c.dw)
  let a := (rowA c.dw 0).toNat + elemOff win w k
  if win = 5 then nfld (rdNat mem a 1) (4 * (k % 2)) 4 else rdNat mem a (srcBytes win w)

/-- The stored pattern of B[k][0]; of a lattice group its index (R242; log entry 22). -/
def storedB (wb : Memory) (d : Vector Word 8) (k : Nat) : Nat :=
  let i := linB d k 0
  let o := mxWofs d
  match mxBfmt d with
  | 0 => rdNat wb (o + 2 * i) 2
  | 1 | 2 => rdNat wb (o + i) 1
  | 3 => rdNat wb (o + 4 * i) 4
  | 4 => rdNat wb (o + 8 * i) 8
  | 8 => rdNat wb (o + 8 * k) 2
  | 9 => nfld (rdNat wb (o + i / 2) 1) (4 * (i % 2)) 4
  | b => bookIndex wb o (bookBits b) i

/-- The estimate of a head (R242). DESIGN CHOICE (log entry 98): its reads of A and B are no accesses at the ports: no
ring sees them and they consume no check bits; R242 does not say. Unsafe. -/
def estimate (k : Core) (c : MxCmd) : Nat :=
  if isMma c.dw then
    let h := ((List.range 31).map fun i =>
      hamming (storedA k.mem c i) (storedA k.mem c (i + 1)) +
        hamming (storedB k.wbuf c.dw i) (storedB k.wbuf c.dw (i + 1))).sum
    (mxK c.dw + 31) / 32 * (16 + h / 64)
  else 0

/-- The head of a queue has its estimate formed (R242). -/
def formHead (k : Core) (l : List MxCmd) : List MxCmd :=
  match l with
  | [] => []
  | c :: rest => { c with est := estimate k c } :: rest

/-- MXC (R231, R232). DESIGN CHOICE (log entry 106): the cycle of an MXC that stalled on a full queue, which is its
command's age (R242), is that in which it enters the queue. Unsafe. -/
def execMxc (a : Reg) (s : State) : Out :=
  let d := dwords (s.vr a)
  let x := s.ctx
  match mxFault s.coreId d (ctxSides x) with
  | some c => trapOut s c
  | none =>
    let q := mxqAt s.core s.core.cur
    if 2 ≤ q.length then stallOut s
    else
      let c : MxCmd := { dw := d, tag := x.tagbase, sc5 := x.scale5, sc6 := x.scale6, age := s.now, passed := 0, est := 0 }
      let l := if q.isEmpty then formHead s.core [c] else q ++ [c]
      let t := s.modCore fun k => setMxq k k.cur l
      done (if mxCd d then t.modCtx fun y => { y with committed := true } else t)

/-- The lanes MXR delivers: f32 rounded from fa40, or f64 (R84, R238). -/
def mxrLanes (k : Core) (n row : Nat) (half f64 : Bool) : List (Nat × Count) :=
  if f64 then
    (List.range 8).map fun i =>
      if tagOf k n && tagOf k (n + 1) then
        let c := viewCell k 3 n row (8 * b2n half + i)
        (c.bits.toNat, c.count)
      else (nanBits f64F, 0)
  else
    (List.range 16).map fun i =>
      if tagOf k n then (nanBits f32F, 0)
      else
        let r := fcvtR fa40F f32F .rne false 0 (chainVal fa40F (viewCell k 0 n row (16 * b2n half + i)))
        (r.bits, r.count)

/-- MXR (R238, R241). -/
def execMxr (d a : Reg) (c : BitVec 3) (r : BitVec 4) (h f : Bool) (b : Option (BitVec 3)) (s : State) : Out :=
  let ls := mxrLanes s.core c.toNat r.toNat h f
  let fin (t : State) (ls : List (Nat × Count)) : Out :=
    let w := if f then 64 else 32
    done ((t.modCtx fun x => writeLanes x d w false true (ls.map some)).setG a
      (BitVec.ofNat 64 (stepCount s.core c.toNat)))
  match b with
  | none => fin s ls
  | some n =>
    match boundLanes (boundAt s.core n) f ls with
    | none => trapOut s .bound
    | some (ls1, flag) => fin (if flag then s.modCore fun k => setFlag k n else s) ls1

/-- Commands of a context that have not completed: queued and running (R239). -/
def mxMine (k : Core) (c : CtxNo) : List MxCmd :=
  (match k.mxrun with | some r => if r.own = c then [r.cmd] else [] | none => []) ++ mxqAt k c

/-- MXW (R239). -/
def execMxw (c : BitVec 3) (l : Bool) (s : State) : Out :=
  let mine := mxMine s.core s.core.cur
  let wait := if l then !mine.isEmpty else mine.any fun x => (mxNames x.dw).contains c.toNat
  if wait then stallOut s else done s

/-- The status word of MXS (R240). -/
def mxsWord (s : State) (n : Nat) : Nat :=
  let k := s.core
  let queued := k.mxq.toList.any fun q => q.any fun c => (mxNames c.dw).contains n
  let flags := ((List.range 8).map fun i => b2n (boundAt k (BitVec.ofNat 3 i)).flag * 2 ^ i).sum
  stepCount k n % 256 + b2n (ownerOf k n).isSome * 2 ^ 8 + b2n queued * 2 ^ 9 + b2n (tagOf k n) * 2 ^ 10 +
    (mxqAt k k.cur).length * 2 ^ 12 + flags * 2 ^ 16 + tstallOf s.cyc k n * 2 ^ 24

/-- MXS (R240). -/
def execMxs (d : Reg) (c : BitVec 3) (s : State) : Out := done (s.setG d (BitVec.ofNat 64 (mxsWord s c.toNat)))

/-! ### The sequencer and the running command -/

/-- The queue heads with their contexts. -/
def mxHeads (k : Core) : List (CtxNo × MxCmd) :=
  ([0, 1, 2, 3] : List CtxNo).filterMap fun c => ((mxqAt k c).head?).map fun x => (c, x)

/-- The first of a list that is least by f. -/
def leastBy {α : Type} (f : α → Nat) : List α → Option α
  | [] => none
  | x :: xs =>
    match leastBy f xs with
    | none => some x
    | some y => if f y < f x then some y else some x

/-- Whether the sequencer chooses by the estimates, rule 3 of R242. -/
def mxFrugal (gov : Bool) (k : Core) : Bool :=
  let b := sgn 24 k.mxbudget.bucket.toNat
  k.mxbudget.en && !gov && decide (0 < b ∧ 2 * b < (k.mxbudget.cap.toNat : Int))

/-- The head the sequencer starts (R242). DESIGN CHOICE (log entry 98): of several that have been passed over 4 times
the oldest goes first, then the lower context; R242 breaks only a tie by the context. Unsafe. -/
def mxPick (gov : Bool) (k : Core) : Option (CtxNo × MxCmd) :=
  let hs := mxHeads k
  let oldest := leastBy (fun p => p.2.age) hs
  let b := sgn 24 k.mxbudget.bucket.toNat
  if !k.mxbudget.en || gov then oldest
  else if b ≤ 0 then none
  else if mxFrugal gov k then
    match leastBy (fun p => p.2.age) (hs.filter fun p => decide (4 ≤ p.2.passed)) with
    | some p => some p
    | none => leastBy (fun p => p.2.est) hs
  else oldest

/-- The accumulators as an MMA finds them at its start: zeroed where its tag does not fit (R235). -/
def mmaTags (k : Core) (d : Vector Word 8) : Core :=
  let mode := mxMode d
  let n := mxAcc d
  let bad := if mode = 3 then !(tagOf k n && tagOf k (n + 1)) else tagOf k n
  if bad then
    let z := (tileCells mode).foldl (fun u p => setAccCell u mode n p.1 p.2 zeroChain) k
    (mxNames d).foldl (fun u i => dropSteps (setTag u i (decide (mode = 3))) i) z
  else k

/-! ### The accesses of the unit at its ports (R236, R237, R250, R256, R349, R350; log entry 54) -/

/-- Accesses the unit makes together: port, kind and address; all are logged, or replay holds them all. -/
def mxNotes (s : State) : List (PortKey × Nat × Nat) → Option State
  | [] => some s
  | p :: ps =>
    let e : Seen := ⟨s.coreId, 5, p.2.1, false, p.2.2, false⟩
    if replayHolds s p.1 e then none else mxNotes (noteAccess s p.1 e) ps

/-- The lines from one offset to the end of n bytes. -/
def linesFrom (a n : Nat) : List Nat := (List.range ((a + n - 1) / 64 + 1 - a / 64)).map fun i => (a / 64 + i) * 64

def readsOf (me : CoreId) (l : List Nat) : List (PortKey × Nat × Nat) := l.map fun a => (.scratch me, 0, a)

/-- The lines of A that K-step j fetches (R236). -/
def fetchLines (c : MxCmd) (j : Nat) : List Nat :=
  let win := (mxWin c.dw).getD 0
  let w := aBits (mxAfmt c.dw)
  let n := elemOff win w 31 + (if win = 5 then 1 else srcBytes win w)
  ((List.range 16).flatMap fun m => linesFrom ((rowA c.dw m).toNat + elemOff win w (32 * j)) n).eraseDups

/-- The scales K-step j reads (R256). -/
def scaleReads (d : Vector Word 8) (j : Nat) : List Nat :=
  match mxBfmt d with
  | 8 => [mxScale d + 64 * j]
  | 9 => [mxScale d + 32 * j]
  | _ => []

/-- K-steps of an MMA. -/
def kSteps (d : Vector Word 8) : Nat := (mxK d + 31) / 32

/-- The offset of block i of the K-step at hand (R249): blocks beyond its 8 are those of the next. -/
def tableOff (r : MxRun) (i : Nat) : Nat := mxTable r.cmd.dw + 64 * (8 * r.steps + i)

/-- The bytes of a block's table line (R249). -/
def tableLine (k : Core) (r : MxRun) (i : Nat) : List Byte := rdBytes k.mem (tableOff r i) 64

def lineValid (l : List Byte) : Bool := l.headD 0 != 0

/-- n addresses from a upward. -/
def span (a n : Nat) : List Nat := (List.range n).map fun i => a + i

/-- The accesses of the fetch of a K-step: A, the scales, and B (R236). -/
def fetchNotes (me : CoreId) (r : MxRun) : List (PortKey × Nat × Nat) :=
  let d := r.cmd.dw
  readsOf me (fetchLines r.cmd r.steps ++ scaleReads d r.steps) ++
    [(.weight me, 0, mxWofs d + 32 * rowBytesB (mxBfmt d) * r.steps)]

/-- The scratchpad bytes that such a fetch consumes, side bytes and scales among them (R196, R236, R256). -/
def fetchBytes (r : MxRun) : List Nat :=
  let d := r.cmd.dw
  let win := (mxWin d).getD 0
  let w := aBits (mxAfmt d)
  let sides := sidesOf r.cmd.tag r.cmd.sc5 r.cmd.sc6
  let row (m : Nat) : List Nat :=
    let o := (rowA d m).toNat
    winReads sides win w (o + elemOff win w (32 * r.steps)) ((List.range 32).map fun i => o + elemOff win w (32 * r.steps + i))
  ((List.range 16).flatMap row) ++ (scaleReads d r.steps).flatMap fun a => span a (if mxBfmt d = 8 then 64 else 32)

/-- The accesses of line i of a weight load (R237). -/
def loadNotes (me : CoreId) (d : Vector Word 8) (i : Nat) : List (PortKey × Nat × Nat) :=
  [(.scratch me, 0, mxOff d + 64 * i), (.weight me, 1, mxWofs d + 64 * i)]

/-- The accesses of a command that is no MMA as it completes, after n lines of a weight load (R237). -/
def endNotes (me : CoreId) (d : Vector Word 8) (n : Nat) : List (PortKey × Nat × Nat) :=
  match mxKind d with
  | 2 => ((List.range (mxLen d / 64)).drop n).flatMap (loadNotes me d)
  | 3 => readsOf me (((List.range 8).filter fun i => nbit (d[2]).toNat i).map fun i => (mxOff d + 16 * i) / 64 * 64).eraseDups
  | 5 => if mxZf d then [] else readsOf me (linesFrom (mxOff d) 512)
  | _ => []

/-- The scratchpad bytes that such a command consumes. -/
def endBytes (d : Vector Word 8) (n : Nat) : List Nat :=
  match mxKind d with
  | 2 => span (mxOff d + 64 * n) (mxLen d - 64 * n)
  | 3 => ((List.range 8).filter fun i => nbit (d[2]).toNat i).flatMap fun i => span (mxOff d + 16 * i) 16
  | 5 => if mxZf d then [] else span (mxOff d) 512
  | _ => []

/-- Whether a running weight load has lines to load. -/
def loadsLines (r : MxRun) : Bool := mxKind r.cmd.dw == 2 && decide (64 * r.steps < mxLen r.cmd.dw)

/-- n bytes of the scratchpad copied to the weight buffer, with fresh check bits (R228, R237). -/
def loadWeights (a w n : Nat) (k : Core) : Core :=
  freshWords .weight (wordsOf 8 (span w n)) { k with wbuf := wrBytes k.wbuf w (rdBytes k.mem a n) }

/-- The next line of a running weight load (R237). -/
def tryLoadLine (s : State) (r : MxRun) : Option State :=
  let d := r.cmd.dw
  let o := 64 * r.steps
  if loadsLines r then
    (mxNotes s (loadNotes s.coreId d r.steps)).map fun t =>
      taking t .scratch 8 (span (mxOff d + o) 64) fun u => u.modCore fun k =>
        { loadWeights (mxOff d + o) (mxWofs d + o) 64 k with mxrun := some { r with steps := r.steps + 1 } }
  else none

/-- Whether the governor lets another K-step begin in this window (R244). -/
def govLets (s : State) : Bool := !s.govOn || decide (s.core.mxgov.begun < max 1 s.core.mxgov.limit.toNat)

def putRun (r : MxRun) (k : Core) : Core := { k with mxrun := some r }

/-- The fetch of A, scales and B for the K-step at hand, which begins it (R236, R244, R256); none while the governor
or replay holds it back. A K-step that begins to wait for the governor adds 1 to STALLED. f is what begins with it.
-/
def tryFetch (s : State) (r : MxRun) (f : MxRun → MxRun) : Option State :=
  if !(govLets s) then
    if r.waited then none
    else some (s.modCore fun k =>
      { putRun { r with waited := true } k with
        mxgov := { k.mxgov with stalled := if k.mxgov.stalled = BitVec.allOnes 32 then k.mxgov.stalled else k.mxgov.stalled + 1 } })
  else
    (mxNotes s (fetchNotes s.coreId r)).map fun t =>
      taking t .scratch 8 (fetchBytes r) fun t =>
        taking t .weight 8 (span (mxWofs r.cmd.dw + 32 * rowBytesB (mxBfmt r.cmd.dw) * r.steps) (32 * rowBytesB (mxBfmt r.cmd.dw)))
          fun t => t.modCore fun k =>
            { putRun (f { r with fetched := some (k.mem, k.wbuf), waited := false }) k with
              mxgov := { k.mxgov with begun := k.mxgov.begun + 1 } }

/-- A table line read at its port: one access (R250); none while replay holds it back. -/
def readTable (s : State) (r : MxRun) (i : Nat) (f : List Byte → State → State) : Option State :=
  (mxNotes s (readsOf s.coreId [tableOff r i])).map fun t =>
    taking t .scratch 8 (span (tableOff r i) 64) fun u => f (tableLine u.core r i) u

/-- Block i = r.tables.length of the K-step at hand starts with the line l (R250); the first block of a K-step fetches
its operands. The next block's line is read in the block's first cycle. -/
def startBlock (s : State) (r : MxRun) (l : List Byte) : Option State :=
  let go (q : MxRun) : MxRun := { q with tables := q.tables ++ [l], ahead := none }
  (if r.fetched.isSome then some (s.modCore (putRun (go r))) else tryFetch s r go).bind fun t =>
    match t.core.mxrun with
    | none => some t
    | some q =>
      if q.tables.length = r.tables.length ∨ kSteps q.cmd.dw * 8 ≤ 8 * q.steps + q.tables.length then some t
      else readTable t q q.tables.length fun x u => u.modCore (putRun { q with ahead := some x })

/-- A codebook MMA moves on (R250): the line of its first block is read; a block whose line is valid starts; one
whose line is not begins to wait. -/
def tryBlock (s : State) (r : MxRun) : Option State :=
  if r.stall.isSome ∨ 8 ≤ r.tables.length then none
  else
    match r.ahead with
    | none => readTable s r r.tables.length fun x u => u.modCore (putRun { r with ahead := some x })
    | some l =>
      if lineValid l then startBlock s r l
      else some (s.modCore (putRun { r with stall := some s.cyc, reread := 0 }))

/-- The running MMA moves on: its next K-step's operands are fetched (R236), or its next block starts. -/
def tryAdvance (s : State) (r : MxRun) : Option State :=
  if isMma r.cmd.dw && decide (r.steps < kSteps r.cmd.dw) then
    if isCodebook r.cmd.dw then tryBlock s r
    else if r.fetched.isSome then none else tryFetch s r id
  else none

/-- MATRIX_COMMAND_START (R229, R235, R242): a command starts; or the running one moves on: a weight load performs its
next line (R237), an MMA fetches for its next K-step or starts its next block (R236, R250; log entry 46). -/
def tryMxStart (s : State) : Option State :=
  let k := s.core
  if !(enginesRun k) then none
  else
    match k.mxrun, mxPick s.govOn k with
    | some r, _ => (tryLoadLine s r).orElse fun _ => tryAdvance s r
    | none, none => none
    | none, some (c, m) =>
      let d := m.dw
      let frugal := mxFrugal s.govOn k
      let pass (l : List MxCmd) : List MxCmd :=
        match l with | [] => [] | x :: xs => { x with passed := if frugal then x.passed + 1 else x.passed } :: xs
      let k1 : Core := { k with mxq := k.mxq.mapFinIdx fun i l _ =>
        if i = c.toNat then formHead k (l.drop 1) else pass l }
      let k2 : Core := if k.mxbudget.en && !s.govOn then
          { k1 with mxbudget := { k1.mxbudget with bucket := k1.mxbudget.bucket - BitVec.ofNat 24 m.est } }
        else k1
      let k3 := if isMma d then mmaTags k2 d else k2
      let cells := if isMma d then tileCells (mxMode d) else []
      let before := cells.map fun p => if mxZf d then zeroChain else accCell k3 (mxMode d) (mxAcc d) p.1 p.2
      let z := cells.map fun _ => zeroChain
      some (s.modCore fun _ =>
        { k3 with mxrun := some { own := c, cmd := m, before := before, even := z, odd := z, steps := 0, tstall := 0, fetched := none, tables := [], ahead := none, stall := none, reread := 0, waited := false } })

/-- One K-step of an MMA on the operands it fetched: both chains of every cell advanced (R235, R236). -/
def kStep (k : Core) (r : MxRun) : MxRun :=
  let d := r.cmd.dw
  let f := accFmt (mxMode d)
  let m := r.fetched.getD (k.mem, k.wbuf)
  let ks := (List.range 32).map fun i => 32 * r.steps + i
  let bs := ks.flatMap fun kk => (List.range (accCols (mxMode d))).map fun n => elemB m.1 m.2 k.lattice d r.tables kk n
  let n := accCols (mxMode d)
  let bAt (c : Nat) (kk : Nat) : FVal := bs.getD ((kk - 32 * r.steps) * n + c) ⟨.nan, 0, 53⟩
  let run (i : Nat) (p : Nat × Nat) : Chain × Chain :=
    chainRun f (elemA m.1 r.cmd p.1) (bAt p.2) ks (r.even.getD i zeroChain, r.odd.getD i zeroChain)
  let es := (tileCells (mxMode d)).mapIdx run
  { r with even := es.map Prod.fst, odd := es.map Prod.snd, steps := r.steps + 1, fetched := none, tables := [] }

/-- Whether the K-step at hand has all it needs (R236, R250). -/
def stepReady (r : MxRun) : Bool :=
  isMma r.cmd.dw && decide (r.steps < kSteps r.cmd.dw) && r.fetched.isSome &&
    (!(isCodebook r.cmd.dw) || decide (r.tables.length = 8))

/-- K_STEP_COMPLETE (R230, R235): the K-step counts; in its last cycle the next one's operands are fetched (R236). -/
def tryKStep (s : State) : Option State :=
  match s.core.mxrun with
  | none => none
  | some r =>
    if stepReady r && enginesRun s.core then
      let q := kStep s.core r
      let t := s.modCore (putRun q)
      some ((tryAdvance t q).getD t)
    else none

/-- A codebook MMA with a block that waits, and the core cycle its stall began in. -/
def waitingRun (k : Core) : Option (MxRun × Nat) := k.mxrun.bind fun r => r.stall.map fun c => (r, c)

/-- The stall of a block ends with the line it uses, which it keeps while the governor holds its K-step; the cycles
since its ideal start are stall cycles (R250). -/
def endStall (r : MxRun) (l : List Byte) (n : Nat) : MxRun :=
  { r with ahead := some l, stall := none, reread := 0, tstall := r.tstall + n }

/-- The running command goes on with its next block, if it may. -/
def goOnBlock (s : State) : State :=
  match s.core.mxrun with
  | none => s
  | some r => (tryBlock s r).getD s

/-- The re-read of a table that is due by a core cycle: of which run, how many cycles after its block's ideal start.
-/
def dueReread (cyc : Nat) (k : Core) : Option (MxRun × Nat) :=
  (waitingRun k).bind fun p =>
    let n := 16 * (p.1.reread + 1)
    if enginesRun k ∧ p.1.reread < 4096 ∧ p.2 + n ≤ cyc then some (p.1, n) else none

/-- TABLE_REREAD (R250): a block that waits re-reads its line 16 cycles after its ideal start, and every 16 cycles
after that; it starts where the line is valid. DESIGN CHOICE (log entry 119): re-reads that replay (R350) held past
their cycles are made one after the other once it lets go, and T takes 16 for each re-read, not the cycles held; R250
counts every cycle and has T a multiple of 16, which both cannot be then. Unsafe. -/
def tryReread (s : State) : Option State :=
  (dueReread s.cyc s.core).bind fun p =>
    (readTable s p.1 p.1.tables.length fun x u =>
      u.modCore (putRun (if lineValid x then endStall p.1 x p.2 else { p.1 with ahead := some x, reread := p.1.reread + 1 }))).map goOnBlock

/-- TABLE_GIVE_UP (R251): after the 4,096th re-read every entry is the canonical bf16 NaN; an error record with USER
and the block. -/
def tryGiveUp (s : State) : Option State :=
  match waitingRun s.core with
  | none => none
  | some (r, _) =>
    if enginesRun s.core ∧ 4096 ≤ r.reread then
      let l : List Byte := 1 :: leBytes 7 0 ++ ((List.range 16).flatMap fun _ => leBytes 2 0x7FC0)
      some ((goOnBlock (s.modCore (putRun (endStall r l (16 * r.reread))))).report
        (.error s.coreId 251 ((r.cmd.dw[7]).toNat * 2 ^ 16 + 8 * r.steps + r.tables.length)))
    else none

/-- The re-reads of a block of the core in focus that are due, each in its cycle, n of them at most (R250, R251). -/
def doRereads : Nat → State → State
  | 0, s => (tryGiveUp s).getD s
  | n + 1, s => match tryReread s with | some t => doRereads n t | none => (tryGiveUp s).getD s

def isRereadDue (now : Nat) (k : Core) : Bool := (dueReread (coreCycles now k) k).isSome

/-- THE RE-READS THAT ARE DUE AT EVERY CORE, made before anything else of the present cycle (R250). -/
def catchUp (s : State) : State :=
  let t := if isRereadDue s.now s.core then doRereads 4096 s else s
  (t.others.filter fun p => isRereadDue t.now p.2).foldl (fun u p => u.onCore (BitVec.ofNat 12 p.1) (doRereads 4096)) t

/-- The final cells of an MMA (R235). -/
def mmaEnd (k : Core) (r : MxRun) : Core :=
  let d := r.cmd.dw
  let f := accFmt (mxMode d)
  let put (i : Nat) (p : Nat × Nat) (u : Core) : Core :=
    setAccCell u (mxMode d) (mxAcc d) p.1 p.2
      (cellView f (r.before.getD i zeroChain) (r.even.getD i zeroChain) (r.odd.getD i zeroChain))
  let k1 := foldIdx put 0 (tileCells (mxMode d)) k
  (mxNames d).foldl (fun u i =>
    { u with steps := u.steps.setIfInBounds i r.steps, tstall := u.tstall.setIfInBounds i (min 65535 r.tstall) }) k1

/-- The effects of the other kinds, performed as they complete (R237): of a weight load, those of the lines
after its first n. -/
def mxEffect (k : Core) (d : Vector Word 8) (n : Nat) : Core :=
  match mxKind d with
  | 2 => loadWeights (mxOff d + 64 * n) (mxWofs d + 64 * n) (mxLen d - 64 * n) k
  | 3 =>
    (List.range 8).foldl (fun u i =>
      if nbit (d[2]).toNat i then
        let a := mxOff d + 16 * i
        let b : Bound :=
          { lo := BitVec.ofNat 32 (rdNat k.mem a 4), hi := BitVec.ofNat 32 (rdNat k.mem (a + 4) 4)
            act := BitVec.ofNat 2 (rdNat k.mem (a + 8) 1), flag := false }
        { u with bounds := u.bounds.setIfInBounds i b }
      else u) k
  | 4 =>
    let z := (tileCells (mxMode d)).foldl (fun u p => setAccCell u (mxMode d) (mxAcc d) p.1 p.2 zeroChain) k
    (mxNames d).foldl (fun u i => dropSteps (setTag u i (decide (mxMode d = 3))) i) z
  | _ =>
    let l := if mxZf d then none else some (rdBytes k.mem (mxOff d) 512)
    { k with lattice := l }

/-- The decrement an engine's command sends when all its effects are complete (R237, R272). -/
def engineCdec (s : State) (who : Origin) (a user : Word) : State :=
  match cdAim s.coreId a with
  | .bad _ => s.report (.error s.coreId 237 user.toNat)
  | .record c off => sendFrom s s.coreId who c (.cdec off 1 (some user))

/-- MATRIX_COMMAND_COMPLETE (R230, R235, R237). -/
def tryMxComplete (s : State) : Option State :=
  match s.core.mxrun with
  | none => none
  | some r =>
    let d := r.cmd.dw
    if (isMma d && decide (r.steps < kSteps d)) || !(enginesRun s.core) then none
    else
      let fin (k1 : Core) (u : State) : State :=
        let t := u.modCore fun _ => { k1 with mxrun := none }
        if mxCd d then engineCdec t .matrix (d[6]) (d[7]) else t
      if isMma d then some (fin (mmaEnd s.core r) s)
      else
        (mxNotes s (endNotes s.coreId d r.steps)).map fun u =>
          taking u .scratch 8 (endBytes d r.steps) fun v => fin (mxEffect v.core d r.steps) v

/-- BUCKET_REFILL (R243). DESIGN CHOICE (log entry 109): a BUCKET above a CAP that has been lowered stays as it is.
Unsafe. -/
def refill (b : MxBudget) : MxBudget :=
  let v := sgn 24 b.bucket.toNat
  if (b.cap.toNat : Int) ≤ v then b
  else { b with bucket := BitVec.ofInt 24 (min (b.cap.toNat : Int) (v + b.rate.toNat)) }

/-- A new governor window (R244). -/
def newWindow (s : State) : State := s.modCore fun k => { k with mxgov := { k.mxgov with begun := 0 } }

def orSame (f : State → Option State) (s : State) : Out := .next ((f s).getD s)

/-- MATRIX_COMMAND_START (R242). -/
def execMatrixCommandStart (s : State) : Out := orSame tryMxStart s

/-- K_STEP_COMPLETE (R230). -/
def execKStepComplete (s : State) : Out := orSame tryKStep s

/-- TABLE_REREAD (R250). -/
def execTableReread (s : State) : Out := orSame tryReread s

/-- TABLE_GIVE_UP (R251). -/
def execTableGiveUp (s : State) : Out := orSame tryGiveUp s

/-- MATRIX_COMMAND_COMPLETE (R237). -/
def execMatrixCommandComplete (s : State) : Out := orSame tryMxComplete s

/-- BUCKET_REFILL (R243): the core's clock runs (R375). -/
def execBucketRefill (s : State) : Out :=
  .next (if enginesRun s.core then s.modCore fun k => { k with mxbudget := refill k.mxbudget } else s)

/-- GOVERNOR_WINDOW (R244). -/
def execGovernorWindow (s : State) : Out := .next (newWindow s)

end Sys2Proof.Machine
end

