-- ==== Sys2Proof/Machine/Copy.lean ====
section
/-! DEFINITION. The copy engine (14): CPC and its checks (R261-R265, R267-R269, R276), CPW and CPS
(R272, R273), and the engine's events: it starts a command or performs its next block (R260, R266),
resumes after a page fault (R275), completes (R272). -/
namespace Sys2Proof.Machine

/-! ### Fields of a command (R262) -/

def cpDw (d : Vector Word 8) (i : Nat) : Nat := (d.toArray.getD i 0).toNat
def cpKind (d : Vector Word 8) : Nat := nfld (cpDw d 0) 0 8
def cpEs (d : Vector Word 8) : Nat := nfld (cpDw d 0) 8 3
def cpPad (d : Vector Word 8) : Bool := nbit (cpDw d 0) 11
def cpGm (d : Vector Word 8) : Nat := nfld (cpDw d 0) 12 2
def cpCd (d : Vector Word 8) : Bool := nbit (cpDw d 0) 14
def cpRnd (d : Vector Word 8) : Nat := nfld (cpDw d 0) 16 3
def cpSat (d : Vector Word 8) : Bool := nbit (cpDw d 0) 19
def cpSf (d : Vector Word 8) : Nat := nfld (cpDw d 0) 20 4
def cpDf (d : Vector Word 8) : Nat := nfld (cpDw d 0) 24 4
def cpN0 (d : Vector Word 8) : Nat := nfld (cpDw d 0) 32 16
def cpN1 (d : Vector Word 8) : Nat := nfld (cpDw d 0) 48 16
def cpN2 (d : Vector Word 8) : Nat := nfld (cpDw d 6) 0 16
def cpVer (d : Vector Word 8) : Nat := nfld (cpDw d 6) 16 16
def cpAux (d : Vector Word 8) : Nat := nfld (cpDw d 6) 32 32
/-- Stride of dimension i on the source and on the destination side. -/
def cpSs (d : Vector Word 8) (i : Nat) : Int := sgn 32 (nfld (cpDw d (3 + i)) 0 32)
def cpDs (d : Vector Word 8) (i : Nat) : Int := sgn 32 (nfld (cpDw d (3 + i)) 32 32)
/-- The low and high padding of R267. -/
def cpPl (d : Vector Word 8) : Nat := nfld (cpAux d) 0 16
def cpPh (d : Vector Word 8) : Nat := nfld (cpAux d) 16 16

def cpIsTrack (d : Vector Word 8) : Bool := cpKind d == 7 || cpKind d == 8

/-- Bytes of an element by ESIZE. -/
def esizeBytes (e : Nat) : Nat := if e = 5 then 64 else 2 ^ e

def fmtBytes (c : Nat) : Nat := match Fmt.ofCode (BitVec.ofNat 5 c) with | some f => f.bits / 8 | none => 1

/-- Element sizes of the two sides (R263). -/
def cpSrcSize (d : Vector Word 8) : Nat := if cpKind d = 2 then fmtBytes (cpSf d) else esizeBytes (cpEs d)
def cpDstSize (d : Vector Word 8) : Nat := if cpKind d = 2 then fmtBytes (cpDf d) else esizeBytes (cpEs d)

def cpTotal (d : Vector Word 8) : Nat := cpN0 d * cpN1 d * cpN2 d
def cpGuarded (d : Vector Word 8) : Bool := cpGm d != 0

/-! ### The checks of CPC (R264) -/

/-- A bank state (R262). -/
def bankStateOk (x : Nat) : Bool := x / 2 ^ 21 == 0

/-- The limits of each kind on its own fields (R263, R268-R270, R276). DESIGN CHOICE (log entry 99): a limit of R263
that the list of R264 does not name (ESIZE, N0 and N1 of a transpose, ESIZE of a track kind, GM of a WBFILL) is
ILLEGAL too. Unsafe. -/
def cpKindOk (d : Vector Word 8) : Bool :=
  let fmtOk (c : Nat) : Bool := decide (c ≤ 5 ∨ 8 ≤ c)
  match cpKind d with
  | 1 => true
  | 2 =>
    cpEs d == 0 && fmtOk (cpSf d) && fmtOk (cpDf d) && cpSf d != cpDf d && cpRnd d != 5 && cpRnd d != 7 &&
      !(decide (8 ≤ cpSf d ∧ 8 ≤ cpDf d ∧ cpRnd d ≠ 0))
  | 3 => decide (cpEs d ≤ 3) && cpN0 d % 8 == 0 && cpN1 d % 8 == 0
  | 4 => cpSs d 1 == 0 && cpSs d 2 == 0 && cpAux d / 2 ^ 17 == 0
  | 5 => cpDs d 2 == 0 && nfld (cpAux d) 17 7 == 0
  | 6 => cpSs d 0 == 0 && cpSs d 1 == 0 && cpSs d 2 == 0
  | 7 => cpEs d == 5 && bankStateOk (cpDw d 1)
  | 8 => cpEs d == 5 && bankStateOk (cpDw d 2)
  | 9 => cpGm d == 0 || cpGm d == 2
  | _ => false

/-- The first row of R264. -/
def cpLegal (d : Vector Word 8) : Bool :=
  let k := cpKind d
  cpKindOk d && decide (cpEs d ≤ 5) && !(nbit (cpDw d 0) 15) && nfld (cpDw d 0) 28 4 == 0 &&
    (k == 2 || nfld (cpDw d 0) 16 12 == 0) &&
    (k == 4 || k == 5 || cpPad d || cpGuarded d || cpAux d == 0) &&
    cpTotal d != 0 &&
    (!(cpPad d) || ((k == 1 || k == 2) && decide (cpPl d + cpPh d ≤ cpN0 d) && !(cpGuarded d))) &&
    (!(cpGuarded d) ||
      ((k == 1 || k == 9) && cpEs d == 5 && cpSs d 0 == 64 && cpDs d 0 == 64 && cpN1 d == 1 && cpN2 d == 1 &&
        cpN0 d % 4 == 0))

def stridesFit (f : Nat → Int) (n : Nat) : Bool := (List.range 3).all fun i => f i % (n : Int) == 0

/-- The second row of R264. -/
def cpAligned (d : Vector Word 8) : Bool :=
  let k := cpKind d
  let n := cpSrcSize d
  let m := cpDstSize d
  (k == 6 || k == 7 || (cpDw d 1 % n == 0)) && (k == 8 || cpDw d 2 % m == 0) &&
    stridesFit (cpSs d) n && stridesFit (cpDs d) m &&
    (k != 4 || cpAux d % 4 == 0) && (k != 5 || cpAux d % 2 == 0) && (k != 9 || cpDw d 1 % 64 == 0)

/-- The checks of CPC in order: the trap the first failing one takes. -/
def cpFault (me : CoreId) (d : Vector Word 8) : Option Cause :=
  if !(cpLegal d) then some .illegal
  else if !(cpAligned d) then some .align
  else if cpCd d then (match cdAim me (d[7]) with | .bad c => some c | .record _ _ => none)
  else none

/-! ### Elements (R263, R267, R269) -/

def elemA0 (d : Vector Word 8) (x : Nat) : Nat := x % cpN0 d
def elemB0 (d : Vector Word 8) (x : Nat) : Nat := x / cpN0 d % cpN1 d
def elemC0 (d : Vector Word 8) (x : Nat) : Nat := x / (cpN0 d * cpN1 d)

/-- Whether element x is padding (R267). -/
def isPad (d : Vector Word 8) (x : Nat) : Bool :=
  cpPad d && decide (elemA0 d x < cpPl d ∨ cpN0 d - cpPh d ≤ elemA0 d x)

/-- base + i·f 0 + j·f 1 + l·f 2. -/
def strideAt (f : Nat → Int) (base : Int) (i j l : Int) : Int := base + i * f 0 + j * f 1 + l * f 2

/-- The source address of element x; none where GATHER's index lies outside the scratchpad (R265). -/
def srcAddr (k : Core) (d : Vector Word 8) (x : Nat) : Option Word :=
  let a : Int := elemA0 d x
  let b : Int := elemB0 d x
  let c : Int := elemC0 d x
  let at_ (i j l : Int) : Word := BitVec.ofInt 64 (strideAt (cpSs d) (cpDw d 1) i j l)
  match cpKind d with
  | 3 => some (at_ b a c)
  | 4 =>
    let o := nfld (cpAux d) 0 17 + 4 * x
    if o + 4 ≤ spTop then some (BitVec.ofInt 64 ((cpDw d 1 : Int) + sgn 32 (rdNat k.mem o 4) * cpSs d 0)) else none
  | _ => some (at_ (a - (if cpPad d then (cpPl d : Int) else 0)) b c)

/-- Where a destination element lies, before its class is checked. -/
inductive CpDst where
  | addr (a : Word)
  | weight (o : Int)
  | bad
  deriving DecidableEq, Repr

/-- The destination of element x (R263, R269, R271). DESIGN CHOICE (log entry 99): of the D2 of a WBFILL or DEAL only
the offset in bits 16-0 is read. Unsafe. -/
def dstAddr (k : Core) (d : Vector Word 8) (x : Nat) : CpDst :=
  let a : Int := elemA0 d x
  let b : Int := elemB0 d x
  let c : Int := elemC0 d x
  let low : Int := nfld (cpDw d 2) 0 17
  match cpKind d with
  | 5 =>
    let r := elemB0 d x + cpN1 d * elemC0 d x
    let l := nfld (cpAux d) 24 8 + 1
    let o := nfld (cpAux d) 0 17 + 2 * (r % l)
    let id : CoreId := BitVec.ofNat 12 (rdNat k.mem o 2)
    let off := low + (r / l : Nat) * cpDs d 1 + a * cpDs d 0
    if o + 2 ≤ spTop ∧ visible id = true ∧ 0 ≤ off ∧ off < spTop then
      .addr (BitVec.ofNat 64 (apRemote + id.toNat * 2 ^ 24) + BitVec.ofInt 64 off)
    else .bad
  | 9 => .weight (strideAt (cpDs d) low a b c)
  | _ => .addr (BitVec.ofInt 64 (strideAt (cpDs d) (cpDw d 2) a b c))

/-! ### Places -/

/-- Where an access of the engine is performed. -/
inductive CpLoc where
  | own (off : Nat)
  | core (c : CoreId) (off : Nat)
  | chan (pa va : Nat)
  | away (pkg : BitVec 9) (va : Nat)
  | weight (off : Nat)
  deriving DecidableEq, Repr

/-- Why a block is not performed (R275): a page fault, another cause, with its containment mark; or a read of a
walk is held back by replay (R350), and the block waits. -/
inductive CpStop where
  | page (va : Nat)
  | cause (c : Cause) (contained : Bool)
  | held
  deriving DecidableEq, Repr

/-- A place, or why there is none. -/
abbrev CpFound := CpLoc ⊕ CpStop

def cpAccess (s : State) : CpFound × State := (.inr (.cause .access false), s)

def cpReach (me : CoreId) (m : CpCmd) (c : CoreId) : Bool := c == me || m.wide || m.reach.contains c

/-- An access of n bytes at an address of a command resolved (R179, R265, R275, R353, R373, R395). DESIGN CHOICE (log
entry 121): a remote address that names the engine's own core is that core's port, with nothing of its own route
waited for; R105 says so of scalar accesses, R265 of none. Unsafe. -/
def cpLoc (s : State) (m : CpCmd) (acc : Access) (n : Nat) (a : Word) : CpFound × State :=
  match classify a with
  | .own 0 off => (.inl (.own off), s)
  | .remote c off =>
    if c = s.coreId then (.inl (.own off), s)
    else if !(cpReach s.coreId m c) then cpAccess s
    else if (s.coreAt c).killed || routeDown s ⟨.core s.coreId, .core c⟩ then (.inr (.cause .access true), s)
    else (.inl (.core c off), s)
  | .fabric va =>
    match translate s m.tag m.slimit acc va n with
    | (.ok pa, t) =>
      if chanCut t pa then (.inr (.cause .access true), t)
      else if frameOk t m.tag pa then (.inl (.chan pa va), t)
      else (.inr (.cause .staleGen false), t)
    | (.pageFault, t) => (.inr (.page va), t)
    | (.access k, t) => (.inr (.cause .access k), t)
    | (.stale, t) => (.inr (.cause .staleGen false), t)
    | (.away p, t) => (if s.podEn then .inl (.away p va) else .inr (.cause .access true), t)
    | (.held, t) => (.inr .held, t)
  | .own _ _ | .ownI _ | .remI _ _ | .remE _ _ | .none => cpAccess s

/-- A destination resolved (R269, R271). -/
def cpDstLoc (s : State) (m : CpCmd) (n : Nat) : CpDst → CpFound × State
  | .addr a => cpLoc s m .write n a
  | .weight o => if 0 ≤ o ∧ o + (n : Int) ≤ 0x20000 then (.inl (.weight o.toNat), s) else cpAccess s
  | .bad => cpAccess s

/-- The plan of one element: its number, its source unless it is padding or a fill, its destination. -/
structure CpStep where
  x   : Nat
  src : Option CpLoc
  dst : CpLoc
  deriving DecidableEq, Repr

/-- A block planned: all its places, or the first stop (R275) with the elements whose list entries have been read by
then (R263, R269). DESIGN CHOICE (log entry 85): the elements in ascending
order, the destination of each before its source; where one meets the guard and another an absent page, the first in
that order decides, and R275 gives none. Unsafe. -/
def cpPlan (s : State) (m : CpCmd) : List Nat → List CpStep → (List CpStep ⊕ CpStop × List Nat) × State
  | [], acc => (.inl acc.reverse, s)
  | x :: xs, acc =>
    let seen := acc.reverse.map CpStep.x
    match cpDstLoc s m (cpDstSize m.dw) (dstAddr s.core m.dw x) with
    | (.inr r, t) => (.inr (r, if cpKind m.dw = 5 then seen ++ [x] else seen), t)
    | (.inl d, t) =>
      if isPad m.dw x || cpKind m.dw == 6 then cpPlan t m xs (⟨x, none, d⟩ :: acc)
      else
        match srcAddr s.core m.dw x with
        | none => (.inr (.cause .access false, seen), t)
        | some a =>
          match cpLoc t m .read (cpSrcSize m.dw) a with
          | (.inr r, u) => (.inr (r, seen ++ [x]), u)
          | (.inl l, u) => cpPlan u m xs (⟨x, some l, d⟩ :: acc)

/-- The entry of the index or core list that element x uses (R263, R269): its offset and size. -/
def cpList (d : Vector Word 8) (x : Nat) : Option (CpLoc × Nat) :=
  match cpKind d with
  | 4 => some (.own (nfld (cpAux d) 0 17 + 4 * x), 4)
  | 5 => some (.own (nfld (cpAux d) 0 17 + 2 * ((elemB0 d x + cpN1 d * elemC0 d x) % (nfld (cpAux d) 24 8 + 1))), 2)
  | _ => none

/-! ### Reads and writes at the ports -/

/-- The byte of a place at an offset from it. -/
def CpLoc.at_ : CpLoc → Nat → CpLoc
  | .own off, i => .own (off + i)
  | .core c off, i => .core c (off + i)
  | .chan pa va, i => .chan (pa + i) (va + i)
  | .away p va, i => .away p (va + i)
  | .weight off, i => .weight (off + i)

/-- The address of a place at its port. -/
def CpLoc.addr : CpLoc → Nat
  | .own off => off
  | .core _ off => off
  | .chan pa _ => pa
  | .away _ va => va
  | .weight off => off

/-- The 64-byte line of a place, which one access reads or writes (R266). -/
def CpLoc.line : CpLoc → CpLoc
  | .own off => .own (off / 64 * 64)
  | .core c off => .core c (off / 64 * 64)
  | .chan pa va => .chan (pa / 64 * 64) (va / 64 * 64)
  | .away p va => .away p (va / 64 * 64)
  | .weight off => .weight (off / 64 * 64)

/-- Whether two places lie in one line: at a channel whatever their virtual addresses. -/
def sameLine (a b : CpLoc) : Bool :=
  match a, b with
  | .chan x _, .chan y _ => x / 64 == y / 64
  | _, _ => decide (a.line = b.line)

/-- Each line of places once, in order of their first place. -/
def cpLinesOf (ls : List CpLoc) : List CpLoc := (ls.map CpLoc.line).eraseDupsBy sameLine

/-- Things with places gathered by line, the lines in order of their first place. -/
def byLine {α : Type} (f : α → CpLoc) (xs : List α) : List (CpLoc × List α) :=
  (cpLinesOf (xs.map f)).map fun l => (l, xs.filter fun x => sameLine (f x) l)

/-- The port of a line and the address a ring logs there. -/
def cpPort (me : CoreId) : CpLoc → Option (PortKey × Nat)
  | .own off => some (.scratch me, off)
  | .core c off => some (.scratch c, off)
  | .chan pa va => some (.chan (BitVec.ofNat 5 (chanOf pa)), va)
  | .weight off => some (.weight me, off)
  | .away _ _ => none

/-- The accesses of a block at its ports, one for each line (R266), held by replay or logged. -/
def cpNotes (s : State) (kind : Nat) : List (PortKey × Nat) → Option State
  | [] => some s
  | p :: ps => (seenAt s p.1 ⟨s.coreId, 4, kind, false, p.2, false⟩).bind fun t => cpNotes t kind ps

/-- The core at whose port the first access that replay holds back lies, if it is another one (R350). -/
def cpHeldAt (s : State) (kind : Nat) : List (PortKey × Nat) → Option CoreId
  | [] => none
  | p :: ps =>
    match seenAt s p.1 ⟨s.coreId, 4, kind, false, p.2, false⟩ with
    | some t => cpHeldAt t kind ps
    | none => match p.1 with | .scratch c => if c = s.coreId then none else some c | _ => none

def cpLines (s : State) (ls : List CpLoc) : List (PortKey × Nat) :=
  (cpLinesOf ls).filterMap (cpPort s.coreId)

def isRequest (p : Packet) : Bool := match p.body with | .op _ => true | _ => false

/-- Whether requests that a sampler held back wait to be sent again to a core: what follows them on their route
waits (R325). -/
def samplerWaits (k : Core) (dst : CoreId) : Bool := k.resend.any fun x => x.samp && x.dst == dst

/-- Whether something is under way between the core in focus and another that the other's sampler may still
refuse (R325). -/
def samplerBusy (s : State) (dst : CoreId) : Bool :=
  s.net.any fun p =>
    (decide (p.route = ⟨.core s.coreId, .core dst⟩) && isRequest p && !p.spray) ||
    (decide (p.route = ⟨.core dst, .core s.coreId⟩) && (match p.body with | .nack c _ => c == 5 | _ => false))

/-- An access of the engine at a core that refuses this one for want of a sampler, and to which nothing is under way
or held back: refused in its turn, it is sent again with DR, and the refusals end (R325). -/
def cpAdmit (s : State) (l : CpLoc) : State :=
  match l with
  | .core c _ =>
    if (s.coreAt c).refuse.contains s.coreId then
      s.modCoreAt c fun k => { k with refuse := k.refuse.filter fun x => !(x == s.coreId) }
    else s
  | .own _ | .chan _ _ | .weight _ | .away _ _ => s

/-- Whether an earlier packet of this core is under way to the end a place lies at, or held back by its sampler: the
engine's access follows it (R325, R342). What is under way to the core at which replay holds the block is behind it
(R350). -/
def cpBehind (s : State) (r : CpRun) (l : CpLoc) : Bool :=
  let busy (p : Port) : Bool := s.net.any fun k => decide (k.route = ⟨.core s.coreId, p⟩) && !k.spray &&
    (match k.body with | .op _ => true | _ => false)
  match l with
  | .core c _ => !(decide (r.heldAt = some c)) && (busy (.core c) || samplerBusy s c || samplerWaits s.core c)
  | .chan pa _ => busy (.chan (BitVec.ofNat 5 (chanOf pa)))
  | .own _ | .weight _ | .away _ _ => false

/-- How the reads or writes of a block at their ports end: done; the engine's own core is lost to an
uncorrectable error or poison that it consumes (R33, R275); or another one, whose word a write merges (log entry 69),
and the block is performed no further. -/
inductive CpMade where
  | done
  | lost
  | other
  deriving DecidableEq, Repr

/-- f at another core; lost there, that core is killed. -/
def cpOther (s : State) (c : CoreId) (f : State → State × Bool) : State × CpMade :=
  let r := f (s.focus c)
  if r.2 then ((killCore r.1).focus s.coreId, .other) else (r.1.focus s.coreId, .done)

def cpOwn (r : State × Bool) : State × CpMade := (r.1, if r.2 then .lost else .done)

/-- The check bits of the words that a read uses (R191); those of a channel are the reads' of its lines. -/
def cpTake (s : State) (n : Nat) (l : CpLoc) : State × CpMade :=
  let as := (List.range n).map fun i => l.addr + i
  match l with
  | .own _ => cpOwn (s.consume .scratch (wordsOf 8 as))
  | .core c _ =>
    let r := (s.focus c).consume .scratch (wordsOf 8 as)
    cpOwn (r.1.focus s.coreId, r.2)
  | .weight _ => cpOwn (s.consume .weight (wordsOf 8 as))
  | .chan _ _ | .away _ _ => (s, .done)

/-- Such reads in order, until one core is lost. -/
def cpTakeEach (s : State) : List (CpLoc × Nat) → State × CpMade
  | [] => (s, .done)
  | p :: ps =>
    match cpTake s p.2 p.1 with
    | (t, .done) => cpTakeEach t ps
    | r => r

/-- The reads of a block (R266): of a channel each line is one access (R364), and poison is consumed (R367). -/
def cpTakes (s : State) (ps : List (CpLoc × Nat)) : State × CpMade :=
  let as := ps.flatMap fun p => match p.1 with
    | .chan pa _ => (List.range p.2).map fun i => pa + i
    | .own _ | .core _ _ | .away _ _ | .weight _ => []
  match cpTakeEach (countReads s as) ps with
  | (t, .done) => (t, if (chanRead t as).isNone then .lost else .done)
  | r => r

/-- The bytes of a place once its reads have been made: those of another package as its answers brought them. -/
def cpBytes (s : State) (got : List (Nat × Byte)) (n : Nat) : CpLoc → List Byte
  | .own off => rdBytes s.core.mem off n
  | .core c off => rdBytes (s.coreAt c).mem off n
  | .chan pa _ => rdBytes s.dram pa n
  | .weight off => rdBytes s.core.wbuf off n
  | .away _ va => (List.range n).map fun i => ((got.find? fun g => g.1 == va + i).map Prod.snd).getD 0

/-- The cells of one line written as one access (R266). -/
def cpWriteLine (s : State) (l : CpLoc) (cs : List Host.Cell) : State × CpMade :=
  match l with
  | .own _ =>
    let r := s.rewrite .scratch 8 cs
    cpOwn (r.1.modCore fun k => { k with mem := wrCells k.mem cs }, r.2)
  | .core c _ => cpOther s c fun t =>
      let r := t.rewrite .scratch 8 cs
      (r.1.modCore fun k => { k with mem := wrCells k.mem cs }, r.2)
  | .chan _ _ => (chanWrite s cs, .done)
  | .weight _ =>
    let r := s.rewrite .weight 8 cs
    cpOwn (r.1.modCore fun k => { k with wbuf := wrCells k.wbuf cs }, r.2)
  | .away _ _ => (s, .done)

/-- FRM's mode as CONVERT uses it (R75, R268). -/
def cpRounding (m : CpCmd) : Rnd :=
  let code : BitVec 3 := if cpRnd m.dw = 6 then m.frm else BitVec.ofNat 3 (cpRnd m.dw)
  match code.toNat with
  | 0 => .rne
  | 1 => .rna
  | 2 => .rtz
  | 3 => .rdn
  | 4 => .rup
  | _ => .rne

/-- An element as it is written (R263, R267, R268). -/
def cpValue (m : CpCmd) (bs : Option (List Byte)) : List Byte :=
  let n := cpDstSize m.dw
  match bs with
  | none => if cpKind m.dw = 6 then (List.replicate ((n + 7) / 8) (leBytes 8 (cpDw m.dw 1))).flatten.take n else List.replicate n 0
  | some b =>
    if cpKind m.dw = 2 then
      match Fmt.ofCode (BitVec.ofNat 5 (cpSf m.dw)), Fmt.ofCode (BitVec.ofNat 5 (cpDf m.dw)) with
      | some sf, some df => leBytes n (cvtElem sf df (cpRounding m) (cpSat m.dw) 0 (leNat b) 63).bits
      | _, _ => b
    else b

/-! ### Guards (R276) -/

/-- The guard of a block of 256 bytes. -/
def guardOf (d : Vector Word 8) (g : Nat) (bs : List Byte) : List Byte :=
  leBytes 16 ((crc32c bs).toNat + cpVer d * 2 ^ 32 + (cpAux d + g) % 2 ^ 32 * 2 ^ 48)

def guardFits (d : Vector Word 8) (g : Nat) (bs guard : List Byte) : Bool := guard == guardOf d g bs

/-- The address of guard g of the buffer at an address. -/
def guardAddr (d : Vector Word 8) (y : Nat) (g : Nat) : Word := BitVec.ofNat 64 (y + 64 * cpN0 d + 16 * g)

def cpSrcGuard (d : Vector Word 8) : Bool := cpGm d == 2 || cpGm d == 3
def cpDstGuard (d : Vector Word 8) : Bool := cpGm d == 1 || cpGm d == 3

/-- The guard places of a guarded command's block g, or the stop. -/
def cpGuards (s : State) (m : CpCmd) (g : Nat) : (Option CpLoc × Option CpLoc ⊕ CpStop) × State :=
  let side (t : State) (on : Bool) (acc : Access) (y : Nat) : (Option CpLoc ⊕ CpStop) × State :=
    if on then
      match cpLoc t m acc 16 (guardAddr m.dw y g) with
      | (.inl l, u) => (.inl (some l), u)
      | (.inr r, u) => (.inr r, u)
    else (.inl none, t)
  match side s (cpDstGuard m.dw) .write (cpDw m.dw 2) with
  | (.inr r, t) => (.inr r, t)
  | (.inl d, t) =>
    match side t (cpSrcGuard m.dw) .read (cpDw m.dw 1) with
    | (.inr r, u) => (.inr r, u)
    | (.inl c, u) => (.inl (c, d), u)

/-! ### The end of a command -/

def modRun (s : State) (f : CpRun → CpRun) : State := s.modCore fun k => { k with cprun := k.cprun.map f }

/-- A block of which replay holds an access back is not performed; at another core's port the access holds its route
behind it (R342, R350). s: the state in which that access is due, base: the one that stands. -/
def cpHold (base s : State) (r : CpRun) (kind : Nat) (ps : List (PortKey × Nat)) : Option State :=
  match cpHeldAt s kind ps with
  | some c => if r.heldAt = some c then none else some (modRun base fun q => { q with heldAt := some c })
  | none => none

/-- A bank that one engine head leaves to the other (R270). -/
def renameHolder (a b : Holder) (k : Bank) : Bank :=
  { k with holder := if k.holder = some a then some b else k.holder
           claims := k.claims.map fun p => (if p.1 = a then b else p.1, p.2) }

/-- An engine head leaves its bank (R270). -/
def freeEng (cyc : Nat) (k : Core) (h : Bool) : Core :=
  let y := engHead k h
  if y.bnd then setEng (leaveBank cyc k (.engine h) y.bank) h Head.unbound else k

/-- An engine fault strikes a context (R275): at its next instruction boundary, at once if it stalls. -/
def strike (s : State) (c : CtxNo) : State :=
  let x := s.ctxAt c
  match x.trapDue with
  | none => s
  | some (cause, k, adds) =>
    if x.phase = .running ∧ (x.asleep = true ∨ x.stall.isSome = true ∨ x.pending.isSome = true) then
      (abortWith s c cause k adds).clockUpdate
    else s

/-- A command ends at its block with a cause (R275): its issuing task, if it still runs, takes the trap. The fault
record adds KIND and block number, and what adds lists. DESIGN CHOICE (log entry 99): where that task has ended
before, the command ends with no trap and no record; the block of a guarded command is the first of the four taken at
once, none of which is performed; of two commands that fault before the task's next boundary, the later one's cause is
taken. Unsafe. -/
def cpFaulted (s : State) (r : CpRun) (c : Cause) (contained : Bool) (adds : List Nat) : State :=
  let t := s.modCore fun k => { freeEng s.cyc k false with cprun := none }
  let x := t.ctxAt r.own
  if x.task.isSome && decide (x.actSeq = r.cmd.seq) then
    strike (t.modCtxAt r.own fun y => { y with trapDue := some (c, contained, [cpKind r.cmd.dw, r.block] ++ adds) }) r.own
  else t

/-- A block is not performed (R275): a page fault suspends the command; another cause ends it; none while replay
holds it. -/
def cpStopped (s : State) (r : CpRun) (w : CpStop) : Option State :=
  match w with
  | .held => none
  | .page va =>
    let a : Word := BitVec.ofNat 64 va
    some ((modRun s fun q => { q with fault := some a, heldAt := none }).report (.copyFault s.coreId a))
  | .cause c k => some (cpFaulted s r c k [])

/-- Blocks are done: the command goes on by n. -/
def cpAdvance (s : State) (n : Nat) : State :=
  modRun s fun q => { q with block := q.block + n, got := [], wrote := false, checked := false, heldAt := none }

/-! ### One block -/

/-- Blocks of R266 a command has. -/
def cpPerBlock (d : Vector Word 8) : Nat := if cpIsTrack d then 1 else max 1 (64 / cpDstSize d)
def cpBlocks (d : Vector Word 8) : Nat := (cpTotal d + cpPerBlock d - 1) / cpPerBlock d

/-- Blocks the engine performs at once: a guarded command its four of one guard (R276). -/
def cpStride (d : Vector Word 8) : Nat := if cpGuarded d then 4 else 1

/-- The elements of the blocks from n on that are performed at once. -/
def cpElems (d : Vector Word 8) (n : Nat) : List Nat :=
  ((List.range (cpStride d * cpPerBlock d)).map fun i => n * cpPerBlock d + i).filter fun x => decide (x < cpTotal d)

/-- A request of the engine to another package, which the block awaits (R395). -/
def cpAsk (r : CpRun) (s : State) (p : BitVec 9) (va : Nat) (op : Op) : State :=
  modRun { s with eids := s.eids + 1, podOut := s.podOut ++
      [podAccess s r.own s.eids va r.cmd.tag p op false] } fun q => { q with waits := q.waits ++ [s.eids] }

/-- The bytes of other packages a block reads that it does not have. -/
def cpMissing (r : CpRun) (rs : List (CpLoc × Nat)) : List CpLoc :=
  ((rs.flatMap fun p => (List.range p.2).map p.1.at_).filter fun l =>
    match l with
    | .away _ va => !(r.got.any fun g => g.1 == va)
    | .own _ | .core _ _ | .chan _ _ | .weight _ => false).eraseDups

/-- Requests to other packages by line, one for each (R266). -/
def cpAskLines {α : Type} (r : CpRun) (f : List α → Op) (s : State) (ls : List (CpLoc × List α)) : State :=
  ls.foldl (fun t p => match p.1 with
    | .away g va => cpAsk r t g va (f p.2)
    | .own _ | .core _ _ | .chan _ _ | .weight _ => t) s

/-- The cells of values written at places, in order. -/
def cpCells (ws : List (CpLoc × List Byte)) : List (CpLoc × Byte) :=
  ws.flatMap fun w => w.2.mapIdx fun i b => (w.1.at_ i, b)

/-- Lines written one after the other, until a core is lost; those of other packages are sent. -/
def cpWriteLines (s : State) : List (CpLoc × List (CpLoc × Byte)) → State × CpMade
  | [] => (s, .done)
  | w :: ws =>
    match cpWriteLine s w.1 (w.2.map fun c => (c.1.addr, c.2)) with
    | (t, .done) => cpWriteLines t ws
    | r => r

def CpLoc.isAway : CpLoc → Bool
  | .away _ _ => true
  | .own _ | .core _ _ | .chan _ _ | .weight _ => false

/-- What becomes of a state in which reads or writes ended. -/
def cpThen (p : State × CpMade) (k : State → Option State) : Option State :=
  match p with
  | (t, .done) => k t
  | (t, .lost) => some (killCore t)
  | (t, .other) => some t

/-- The values of a block written (R266): each line of its destination one access, a line of another package
one request; the block is done at once, or with the answers of those packages (R272, R275). base: the state before its
reads. -/
def cpStore (base s : State) (r : CpRun) (ws : List (CpLoc × List Byte)) : Option State :=
  let ls := byLine Prod.fst (cpCells ws)
  let ps := cpLines s (ls.map Prod.fst)
  match cpNotes s 1 ps with
  | none => cpHold base s r 1 ps
  | some t =>
    cpThen (cpWriteLines t ls) fun u =>
      if ls.any fun l => l.1.isAway then
        let sent := cpAskLines r (fun cs => .store (cs.map fun c => (c.1.addr, c.2))) u ls
        some (modRun sent fun q => { q with wrote := true })
      else some (cpAdvance u (cpStride r.cmd.dw))

/-- A planned block performed: its reads, its check, its writes (R266, R276); none while its accesses must wait.
What it reads of other packages is asked for first. DESIGN CHOICE (log entry 74): where it writes several lines,
some of other packages, those are asked first whether they may be written, so that a block that stops writes nothing
(R275). Unsafe. -/
def cpPerform (s0 : State) (r : CpRun) (ps : List CpStep) (gs : Option CpLoc × Option CpLoc) : Option State :=
  let d := r.cmd.dw
  let g := r.block / 4
  let lists := ps.filterMap fun p => cpList d p.x
  let reads := lists ++ (ps.filterMap fun p => p.src.map fun l => (l, cpSrcSize d)) ++ gs.1.toList.map fun l => (l, 16)
  let dsts := (ps.map CpStep.dst) ++ gs.2.toList
  let dls := byLine id dsts
  let missing := cpMissing r reads
  if ((reads.map Prod.fst) ++ dsts).any (cpBehind s0 r) then none else
  let s := ((reads.map Prod.fst) ++ dsts).foldl cpAdmit s0
  if !missing.isEmpty then
    some (cpAskLines r (fun ls => .load (ls.map CpLoc.addr)) s (byLine id missing))
  else if !r.checked && decide (1 < dls.length) && dls.any fun l => l.1.isAway then
    some (cpAskLines r (fun _ => .store []) s dls)
  else
    let rl := cpLines s (reads.map Prod.fst)
    match cpNotes s 0 rl with
    | none => cpHold s s r 0 rl
    | some t =>
      cpThen (cpTakes t reads) fun u =>
        let vs := ps.map fun p => p.src.map (cpBytes u r.got (cpSrcSize d))
        let guard := gs.1.map (cpBytes u r.got 16)
        let data := vs.flatMap fun v => v.getD []
        if (match guard with | some b => !(guardFits d g data b) | none => false) then
          cpStopped u r (.cause .guard false)
        else
          let ws := (ps.zip vs).map fun p => (p.1.dst, cpValue r.cmd p.2)
          let gw := gs.2.toList.map fun l => (l, guard.getD (guardOf d g data))
          cpStore s u r (ws ++ gw)

/-- The list entries of elements read at their port, consumed and logged (R191, R349), by a block that is performed no
further; then k. -/
def cpListed (s : State) (r : CpRun) (xs : List Nat) (k : State → Option State) : Option State :=
  let ls := (xs.filterMap (cpList r.cmd.dw)).filter fun l => decide (l.1.addr + l.2 ≤ spTop)
  (cpNotes s 0 (cpLines s (ls.map Prod.fst))).bind fun t => cpThen (cpTakes t ls) k

/-- The next block of a command that is no track command (R266, R275). -/
def cpBlock (s : State) (r : CpRun) : Option State :=
  match cpPlan s r.cmd (cpElems r.cmd.dw r.block) [] with
  | (.inr (.held, _), _) => none
  | (.inr (w, xs), t) => cpListed t r xs fun u => cpStopped u r w
  | (.inl ps, t) =>
    match (if cpGuarded r.cmd.dw then cpGuards t r.cmd (r.block / 4) else (.inl (none, none), t)) with
    | (.inr w, u) => cpStopped u r w
    | (.inl gs, u) => cpPerform u r ps gs

/-- An answer another package gave the engine's block: bytes, or a write or its check acknowledged (R275,
R395). -/
def cpAnswered (s : State) (eid : Nat) (bytes : List (Nat × Byte)) : State :=
  match s.core.cprun with
  | none => s
  | some r =>
    let ws := r.waits.erase eid
    let t := modRun s fun q => { q with waits := ws, got := q.got ++ bytes
                                        checked := q.checked || (bytes.isEmpty && ws.isEmpty) }
    if r.wrote && ws.isEmpty then cpAdvance t (cpStride r.cmd.dw) else t

/-! ### Track commands (R270) -/

/-- The bank state a track command names. -/
def cpBankWord (d : Vector Word 8) : Nat := if cpKind d = 7 then cpDw d 1 else cpDw d 2

/-- The head a track command sets up. -/
def cpHead (d : Vector Word 8) : Head :=
  let w := cpBankWord d
  { Head.unbound with bank := BitVec.ofNat 8 (nfld w 0 8), pos := BitVec.ofNat 8 (nfld w 8 8)
                      step := BitVec.ofNat 5 (nfld w 16 5), bnd := true }

/-- Line x of a track command: the offset of its memory side, or none where that side is not local (R265). DESIGN
CHOICE (log entry 121): a remote address of the own core is not local here. Unsafe. -/
def trackSide (k : Core) (d : Vector Word 8) (x : Nat) : Option Nat :=
  let a : Option Word :=
    if cpKind d = 7 then (match dstAddr k d x with | .addr a => some a | .weight _ | .bad => none)
    else srcAddr k d x
  match a.map classify with
  | some (.own 0 off) => some off
  | _ => none

/-- The words of a 64-byte line at an offset. -/
def lineAt (off : Nat) : List Nat := (List.range 64).map fun i => off + i

/-- The move of one line, from the bank to the scratchpad or back. -/
def trackMove (load : Bool) (off : Nat) (v : State) (b : BitVec 8) : State × Bool :=
  if load then
    let l := readLine v b
    let put (k : Core) : Core := freshWords .scratch (wordsOf 8 (lineAt off)) { k with mem := wrBytes k.mem off (vbytes l.1) }
    (l.2.1.modCore put, l.2.2)
  else
    match v.consume .scratch (wordsOf 8 (lineAt off)) with
    | (u, true) => (u, true)
    | (u, false) => (u.modCore fun k => writeLine k b (BitVec.ofNat 512 (rdNat k.mem off 64)), false)

/-- The next line of a running track command (R205, R221, R270); none while its bank is not aligned. DESIGN CHOICE
(log entry 85): a memory side that is not local is ACCESS even where the bank is marked failed; R265 and R222 give no
order. Unsafe. -/
def trackBlock (s0 : State) (r : CpRun) : Option State :=
  let d := r.cmd.dw
  let w := Holder.engine false
  let y := headOf s0 w
  let track (t : State) : State := cpFaulted t r .track false [y.bank.toNat, y.pos.toNat]
  match trackSide s0.core d r.block with
  | none => cpStopped s0 r (.cause .access false)
  | some off =>
    if (bankAt s0.core y.bank).failed then some (track s0)
    else
      let s := dueGrant s0 w
      if holds s w || (bankAt s.core y.bank).claims.any (fun p => decide (p.1 = w)) then
        if !(alignedAt s w && channelFree s) then none
        else
          let load := cpKind d == 7
          let bank := (PortKey.bank s.coreId y.bank, y.pos.toNat)
          let mem := (PortKey.scratch s.coreId, off)
          (cpNotes s 0 [if load then bank else mem]).bind fun t =>
            (cpNotes t 1 [if load then mem else bank]).map fun u =>
              match transfer u w (trackMove load off) with
              | (v, .done) => cpAdvance v 1
              | (v, .track) => track v
              | (v, .lost) => killCore v
      else some (claim s w)

/-! ### Commands start -/

def cpqAt (k : Core) (c : CtxNo) : List CpCmd := k.cpq[c.toNat]'(by have := c.isLt; omega)

/-- The oldest queue head, ties to the lower context (R260). -/
def cpPick (k : Core) : Option (CtxNo × CpCmd) :=
  leastBy (fun p => p.2.age)
    (([0, 1, 2, 3] : List CtxNo).filterMap fun c => ((cpqAt k c).head?).map fun x => (c, x))

/-- The next queued track command: the oldest (R270). -/
def nextTrack (k : Core) : Option CpCmd :=
  leastBy CpCmd.age ((k.cpq.toList.flatMap id).filter fun m => cpIsTrack m.dw)

/-- What engine head 1 seeks: the next queued track command's first position, if its bank is not the
running command's (R270). -/
def wantAhead (k : Core) : Option Head :=
  match k.cprun, nextTrack k with
  | some _, some m => if (engHead k false).bnd && (engHead k false).bank == (cpHead m.dw).bank then none else some (cpHead m.dw)
  | _, _ => none

/-- Whether engine head 1 is not at what it should seek (R270). -/
def aheadDue (k : Core) : Bool :=
  let y := engHead k true
  match wantAhead k with
  | none => y.bnd
  | some h => !(y.bnd && y.bank == h.bank && y.pos == h.pos && y.step == h.step)

/-- Engine head 1 brought to what it should seek (R270). -/
def seekAhead (s : State) : State :=
  let y := engHead s.core true
  match wantAhead s.core with
  | none => s.modCore fun k => freeEng s.cyc k true
  | some h =>
    if y.bnd && y.bank == h.bank then
      if y.pos = h.pos ∧ y.step = h.step then s
      else seekHead s (.engine true) h.bank fun z => { z with pos := h.pos, step := h.step }
    else claim (s.modCore fun k => setEng (freeEng s.cyc k true) true h) (.engine true)

/-- A track command that starts: engine head 0 takes its bank over from head 1, or claims it. -/
def startTrack (s : State) (d : Vector Word 8) : State :=
  let h := cpHead d
  let y := engHead s.core true
  if y.bnd && y.bank == h.bank then
    let t := s.modCore fun k =>
      setEng (setEng (setBank k h.bank (renameHolder (.engine true) (.engine false))) true Head.unbound) false y
    seekHead t (.engine false) h.bank fun _ => h
  else seekHead s (.engine false) h.bank fun _ => h

/-- A command leaves its queue and starts (R260). -/
def cpStart (s : State) (c : CtxNo) (m : CpCmd) : State :=
  let t := s.modCore fun k =>
    { k with cpq := k.cpq.set c.toNat ((cpqAt k c).drop 1) (by have := c.isLt; omega)
             cprun := some { own := c, cmd := m, block := 0, fault := none, got := [], waits := [], wrote := false, checked := false } }
  if cpIsTrack m.dw then startTrack t m.dw else t

/-- The next block of the running command, if it may be performed now (R266, R275). -/
def runBlock (s : State) (r : CpRun) : Option State :=
  if r.fault.isSome || !(r.waits.isEmpty) || decide (cpBlocks r.cmd.dw ≤ r.block) then none
  else if cpIsTrack r.cmd.dw then trackBlock s r else cpBlock s r

/-- The engine's next step: a command starts, or the running one performs its next block; and head 1 is
sent ahead, also while the running one waits (R260, R266, R270). -/
def tryCopyStart (s : State) : Option State :=
  if !(enginesRun s.core) then none
  else
    match s.core.cprun with
    | none => (cpPick s.core).map fun p => seekAhead (cpStart s p.1 p.2)
    | some r =>
      match runBlock s r with
      | some t => some (if t.core.killed then t else seekAhead t)
      | none => if aheadDue s.core then some (seekAhead s) else none

/-- COPY_FAULT_RESUME (R275): the supervisor has serviced the page fault. -/
def tryCopyResume (s : State) : Option State :=
  match s.core.cprun with
  | none => none
  | some r => if r.fault.isSome && r.waits.isEmpty then some (modRun s fun q => { q with fault := none, got := [], checked := false })
    else none

/-- COPY_COMMAND_COMPLETE (R270, R272). DESIGN CHOICE (log entry 120): head 1 gives its bank up as the running command
ends, and the next command's head 0 claims it anew; R270 says no hand-over. Unsafe. -/
def tryCopyComplete (s : State) : Option State :=
  match s.core.cprun with
  | none => none
  | some r =>
    if enginesRun s.core && r.fault.isNone && r.waits.isEmpty && decide (cpBlocks r.cmd.dw ≤ r.block) then
      let t := s.modCore fun k =>
        { freeEng s.cyc k false with
          cprun := none, cpdone := k.cpdone.set r.own.toNat (cpBlocks r.cmd.dw) (by have := r.own.isLt; omega) }
      let u := seekAhead t
      some (if cpCd r.cmd.dw then engineCdec u .engine (r.cmd.dw[7]) 0 else u)
    else none

/-! ### The instructions -/

/-- The cores in reach of a task apart from its own (R296). -/
def reachList (me : CoreId) (x : Ctx) : List CoreId :=
  match x.task with
  | none => []
  | some t =>
    let quad := ((List.range 3072).map fun i => (BitVec.ofNat 12 i : CoreId)).filter (sameQuad me)
    match t.launch with
    | some l => if l.remote then quad ++ l.gang else if t.quad then quad else []
    | none => if t.quad then quad else []

/-- Whether a command writes to a remote or fabric address (R30): the destination of one of its corner
elements does, or it deals. -/
def cpOutside (d : Vector Word 8) : Bool :=
  let far (a : Word) : Bool := match classify a with | .remote _ _ | .fabric _ => true | _ => false
  match cpKind d with
  | 5 => true
  | 7 => far (d[2])
  | 8 | 9 => false
  | _ =>
    (List.range 8).any fun i =>
      far (BitVec.ofInt 64 (strideAt (cpDs d) (cpDw d 2)
        (if nbit i 0 then (cpN0 d - 1 : Nat) else (0 : Nat)) (if nbit i 1 then (cpN1 d - 1 : Nat) else (0 : Nat))
        (if nbit i 2 then (cpN2 d - 1 : Nat) else (0 : Nat))))

/-- CPC (R261, R264). DESIGN CHOICE (log entry 106): the cycle of a CPC that stalled on a full queue, which is its
command's age (R260), is that in which it enters the queue. Unsafe. -/
def execCpc (a : Reg) (s : State) : Out :=
  let d := dwords (s.vr a)
  let x := s.ctx
  match cpFault s.coreId d with
  | some c => trapOut s c
  | none =>
    let q := cpqAt s.core s.core.cur
    if 2 ≤ q.length then stallOut s
    else
      let m : CpCmd :=
        { dw := d, tag := ctxTag x, frm := x.frm, sbase := x.stackbase, slimit := x.stacklimit
          reach := reachList s.coreId x, wide := ctxPriv x, age := s.now, seq := x.actSeq }
      let t := s.modCore fun k => { k with cpq := k.cpq.set k.cur.toNat (q ++ [m]) (by have := k.cur.isLt; omega) }
      done (if cpCd d || cpOutside d then t.modCtx fun y => { y with committed := true } else t)

def cpMine (k : Core) (c : CtxNo) : Bool :=
  !(cpqAt k c).isEmpty || (match k.cprun with | none => false | some r => decide (r.own = c))

/-- CPW (R272). -/
def execCpw (s : State) : Out := if cpMine s.core s.core.cur then stallOut s else done s

/-- The running command of the current context. -/
def cpRunning (k : Core) : Option CpRun := k.cprun.filter fun r => decide (r.own = k.cur)

/-- The status word of CPS (R273): DONE counts the blocks of the running command, else of the last completed one. -/
def cpsWord (k : Core) : Nat :=
  let n := match cpRunning k with
    | some r => min r.block (cpBlocks r.cmd.dw)
    | none => k.cpdone[k.cur.toNat]'(by have := k.cur.isLt; omega)
  (cpqAt k k.cur).length + b2n (cpRunning k).isSome * 4 + n % 2 ^ 32 * 2 ^ 16

/-- CPS (R273). -/
def execCps (d : Reg) (s : State) : Out := done (s.setG d (BitVec.ofNat 64 (cpsWord s.core)))

/-- COPY_COMMAND_START (R260, R266). -/
def execCopyCommandStart (s : State) : Out := orSame tryCopyStart s

/-- COPY_FAULT_RESUME (R275). -/
def execCopyFaultResume (s : State) : Out := orSame tryCopyResume s

/-- COPY_COMMAND_COMPLETE (R272). -/
def execCopyCommandComplete (s : State) : Out := orSame tryCopyComplete s

end Sys2Proof.Machine
end

