-- ==== Sys2Proof/Machine/Prick.lean ====
section
/-! DEFINITION. The pricking (20): appends and their checks (R331, R332), eligibility (R333, R334),
selection and ageing (R335, R336), reservation (R337), placement (R338), refused starts (R339), start
messages (R340), endings (R333, R341). -/
namespace Sys2Proof.Machine

/-! ### Fields of a launch record (R330) -/

def lDw (l : Launch) (i : Nat) : Nat := (l.dw.toArray.getD i 0).toNat
def lEntry (l : Launch) : Nat := nfld (lDw l 0) 0 8
def lPri (l : Launch) : BitVec 3 := BitVec.ofNat 3 (nfld (lDw l 0) 8 3)
def lRemote (l : Launch) : Bool := nbit (lDw l 0) 14
def lPersist (l : Launch) : Bool := nbit (lDw l 0) 15
def lXbv (l : Launch) : Bool := nbit (lDw l 0) 16
def lXbar (l : Launch) : BitVec 6 := BitVec.ofNat 6 (nfld (lDw l 0) 17 6)
def lGw (l : Launch) : Nat := nfld (lDw l 0) 32 5
def lGh (l : Launch) : Nat := nfld (lDw l 0) 40 5
def lGang (l : Launch) : Bool := lGw l != 0
def lBind (l : Launch) (i : Nat) : Word := l.dw.toArray.getD (2 + i) 0
def lBinds (l : Launch) : List Word := [lBind l 0, lBind l 1, lBind l 2]

def queueAt (y : Die) (q : Nat) : Queue := tget Queue.reset y.queues q
def setQueue (y : Die) (q : Nat) (x : Queue) : Die := { y with queues := tput Queue.reset y.queues q x }

/-! ### Appends (R332) -/

/-- A binding the pricking refuses: kind 11, or reserved bits that are not 0. -/
def badBind (d : Word) : Bool := dKind d != 0 && !(dFormed d)

/-- The third row of R332. -/
def recordBad (me : CoreId) (host : Bool) (l : Launch) : Bool :=
  nfld (lDw l 0) 23 9 != 0 || nfld (lDw l 0) 37 3 != 0 || nfld (lDw l 0) 45 19 != 0 || nfld (lDw l 1) 32 32 != 0 ||
    lDw l 7 != 0 || lEntry l == 252 || lEntry l == 253 || launchCount l == 0 ||
    (lGw l == 0) != (lGh l == 0) || decide (16 < lGw l) || decide (16 < lGh l) || (lGang l && !(lXbv l)) ||
    (lBinds l).any badBind ||
    (lDw l 6 != 0 &&
      ((match cdAim me (l.dw[6]) with | .bad _ => true | .record _ _ => false) ||
        (host && lDw l 6 / 2 ^ 56 == 0xFF)))

/-- The cause an append is refused with, if it is (R332). -/
def appendFault (y : Die) (q : Nat) (priv host : Bool) (me : CoreId) (l : Launch) : Option (BitVec 8) :=
  let x := queueAt y q
  if !x.en || (x.priv && !priv) || (lPri l == 7 && !x.sys) then some 6
  else if recordBad me host l then some 6
  else if 16 ≤ x.recs.length then some 7
  else none

/-- An accepted record at the tail of its queue; a record that becomes the head sets LEVEL (R332, R336). -/
def appendRecord (s : State) (d : BitVec 2) (q : Nat) (l : Launch) : State :=
  s.modDie d fun y =>
    let x := queueAt y q
    let l1 := { l with id := y.launchCnt, placed := 0, tasks := 0 }
    let x1 := { x with recs := x.recs ++ [l1], level := if x.recs.isEmpty then lPri l else x.level }
    setQueue { y with launchCnt := y.launchCnt + 1 } q x1

/-! ### Eligibility (R333, R334) -/

/-- The visible compute cores of a rectangle of quads with a given origin. -/
def rectCores (s : State) (d : BitVec 2) (o w h : Nat) : List CoreId :=
  ((List.range (2 * h)).flatMap fun j => (List.range (2 * w)).map fun i =>
    (BitVec.ofNat 12 (1024 * d.toNat + 32 * (2 * (o / 16) + j) + 2 * (o % 16) + i) : CoreId)).filter fun c =>
      visible c && !((s.coreAt c).killed)

/-- A core is open to a launch; f: the rule on tasks in flight is ignored; mine: cores reserved for the
asking gang count as open (R333, R337). -/
def openFor (s : State) (f : Bool) (mine : List CoreId) (c : CoreId) : Bool :=
  let y := s.die (dieOf c)
  visible c && !((s.coreAt c).killed) && (f || decide (inFlight s c < 4)) &&
    !(y.withheld.getLsbD (regionOf c)) &&
    (mine.contains c || (match y.reserve with | none => true | some (_, _, cs) => !(cs.contains c)))

/-- A rectangle fits: it holds a core, each is open and none is in a gang already placed (R334). -/
def rectFits (s : State) (d : BitVec 2) (isOpen : CoreId → Bool) (cs : List CoreId) : Bool :=
  !cs.isEmpty && cs.all fun c => isOpen c && !((s.die d).gangs.any fun g => g.2.1.contains c)

/-- The first rectangle of a gang that fits, taking origins in ascending quad number (R334). -/
def candidateBy (s : State) (d : BitVec 2) (isOpen : CoreId → Bool) (l : Launch) : Option (List CoreId) :=
  let w := lGw l
  let h := lGh l
  let os := (List.range 256).filter fun o => decide (o % 16 + w ≤ 16 ∧ o / 16 + h ≤ 16)
  ((os.map fun o => rectCores s d o w h).find? fun cs => rectFits s d isOpen cs)

/-- The candidate rectangle of a gang (R334); f: the rule on tasks in flight is ignored. -/
def candidate (s : State) (d : BitVec 2) (f : Bool) (l : Launch) : Option (List CoreId) := candidateBy s d (openFor s f []) l

/-- x put before the first element that is not less. -/
def insertBy {α : Type} (le : α → α → Bool) (x : α) : List α → List α
  | [] => [x]
  | y :: ys => if le x y then x :: y :: ys else y :: insertBy le x ys

/-- A list in ascending order; equal elements stay in theirs. -/
def sortBy {α : Type} (le : α → α → Bool) (l : List α) : List α := l.foldr (insertBy le) []

/-- The open cores of a die in the order of R338. -/
def orderedOpen (s : State) (d : BitVec 2) : List CoreId :=
  let cs := ((List.range 1024).map fun i => (BitVec.ofNat 12 (1024 * d.toNat + i) : CoreId)).filter (openFor s false [])
  sortBy (fun a b =>
    decide (inFlight s a < inFlight s b ∨ (inFlight s a = inFlight s b ∧ (s.logicalOf a).toNat ≤ (s.logicalOf b).toNat))) cs

/-- Whether the exit barrier a gang names is free (R334). -/
def xbarFree (s : State) (d : BitVec 2) (l : Launch) : Bool :=
  !(s.bar (barNo ⟨.die, d.setWidth 10, lXbar l⟩)).en

/-- The cores the head of a queue would be placed on; none if it is not eligible (R334, R337). -/
def eligibleCores (s : State) (d : BitVec 2) (q : Nat) : Option (List CoreId) :=
  let x := queueAt (s.die d) q
  match x.recs with
  | [] => none
  | l :: _ =>
    if !x.en || classHeld s (launchClass l) then none
    else if lGang l then
      if !(xbarFree s d l) then none
      else
        match (s.die d).reserve with
        | some (_, i, cs) =>
          let live := cs.filter fun c => !((s.coreAt c).killed)
          if i = l.id then (if rectFits s d (openFor s false live) live then some live else none) else candidate s d false l
        | none => candidate s d false l
    else
      let cs := orderedOpen s d
      if cs.isEmpty then none else some (cs.take (min 64 (launchCount l - l.placed)))

/-! ### Selection (R336, R337) -/

/-- The queues that take part, by ascending index. -/
def liveQueues (y : Die) : List (Nat × Queue) := y.queues.filter fun p => p.2.en && !p.2.recs.isEmpty

/-- The queue a selection serves: of those at the greatest level, the first after the last served. -/
def choose (last : Nat) (qs : List Nat) : Option Nat :=
  match qs.find? fun q => decide (last < q) with
  | some q => some q
  | none => qs.head?

/-- The queue that is selected and the cores of its placement. -/
def pickQueue (s : State) (d : BitVec 2) : Option (Nat × List CoreId) :=
  let y := s.die d
  let es := (liveQueues y).filterMap fun p => (eligibleCores s d p.1).map fun cs => (p.1, p.2.level.toNat, cs)
  let lam := es.foldl (fun a e => max a e.2.1) 0
  let top := es.filter fun e => e.2.1 == lam
  match choose (y.last.toArray.getD lam 0).toNat (top.map Prod.fst) with
  | none => none
  | some q => (top.find? fun e => e.1 == q).map fun e => (q, e.2.2)

/-- Ageing of a queue that a selection did not serve (R336). -/
def ageQueue (s : State) (x : Queue) : Queue :=
  match x.recs with
  | [] => x
  | l :: _ =>
    if !x.en || classHeld s (launchClass l) then x
    else if x.age = 0xFFFF then { x with age := 0, level := if x.level < 6 then x.level + 1 else x.level }
    else { x with age := x.age + 1 }

/-- Whether a gang head is ineligible only for want of open cores (R333, R334, R337): some rectangle would fit if
each of its cores were open. -/
def starves (s : State) (d : BitVec 2) (x : Queue) : Bool :=
  match x.recs with
  | [] => false
  | l :: _ =>
    lGang l && x.en && !(classHeld s (launchClass l)) && xbarFree s d l && (candidate s d false l).isNone &&
      (candidateBy s d (fun _ => true) l).isSome

/-- Where such a head would reserve, at level 6 or 7: its candidate rectangle, the in-flight rule ignored (R337). -/
def starvedAt (s : State) (d : BitVec 2) (x : Queue) : Option (Nat × List CoreId) :=
  match x.recs with
  | [] => none
  | l :: _ => if starves s d x && decide (6 ≤ x.level.toNat) then (candidate s d true l).map fun cs => (l.id, cs) else none

/-- A selection's count toward the reservation of a queue's head, and since it qualifies for one (R337). -/
def starveQueue (s : State) (d : BitVec 2) (x : Queue) : Queue :=
  let n := if starves s d x then x.starve + 1 else 0
  { x with starve := n, quals := if 65536 ≤ n ∧ 6 ≤ x.level.toNat then x.quals + 1 else 0 }

/-- The reservation after a selection: kept while its record is a head; else that of the first head to qualify, of
several in one selection that of the lowest queue (R337). -/
def newReserve (s : State) (d : BitVec 2) : Option (BitVec 16 × Nat × List CoreId) :=
  let y := s.die d
  let kept := match y.reserve with
    | none => none
    | some (q, i, cs) => if ((queueAt y q.toNat).recs.head?.map Launch.id) = some i then some (q, i, cs) else none
  match kept with
  | some r => some r
  | none =>
    let qs := sortBy (fun a b => decide (b.2.quals ≤ a.2.quals)) ((liveQueues y).filter fun p => p.2.quals != 0)
    qs.findSome? fun p => (starvedAt s d p.2).map fun r => (BitVec.ofNat 16 p.1, r.1, r.2)

/-! ### Placement (R338, R340) -/

/-- The counted bindings of a launch. -/
def countedBinds (l : Launch) : List Word := (lBinds l).filter dCounted

/-- A counter operation of who at core c on the frame a descriptor names (R23, R24, R27, R338): to its home core,
to the channel that the walk from the roots of die d finds, under a tag, or to its home package (R395). DESIGN
CHOICE (log entry 73): where no page, right or route is found it is lost with an error record; no context waits
for it. Unsafe. It is made only where replay lets the walk's reads through (counterWalks). -/
def counterOp (s : State) (d : BitVec 2) (c : CoreId) (who : Origin) (t : Tag) (b : Word) (op : Nat → Op) : State :=
  if dKind b = 1 then sendFrom s c who (dCore b) (op (dOffset b))
  else
    let va := dVa b
    let home := homeOf va
    let lost (u : State) : State := u.report (.error c 338 va)
    if home ≠ s.pkgNo then
      if s.podEn then
        { s with eids := s.eids + 1, podOut := s.podOut ++ [PodOut.access (podHdr s.eids va (op va)) c 0 s.eids va t home (op va) false] }
      else lost s
    else
      let u := (walkNotes s d t va).getD s
      match walkRoot s d t va with
      | .leaf f =>
        if rightsOk f .write t.priv then
          let pa := f.pa + va % 2 ^ f.bits
          { u.sendPkt { route := ⟨.core c, .chan (BitVec.ofNat 5 (chanOf pa))⟩, who := who, eid := u.eids
                        more := false, spray := false, tag := t, va := va, body := .op (op pa) } with eids := u.eids + 1 }
        else lost u
      | .absent => lost u
      | .bad k => badTable (lost u) c k va

/-- The reads of the walks that such operations need, held by replay (none) or made (R350). -/
def counterWalks (s : State) (d : BitVec 2) (t : Tag) (bs : List Word) : Option State :=
  bs.foldl (fun u b => u.bind fun v => if dKind b = 1 ∨ homeOf (dVa b) ≠ s.pkgNo then some v else walkNotes v d t (dVa b)) (some s)

/-- A counter operation of the pricking on a binding (R27, R338): n raises LIVE, none releases. -/
def bindOp (s : State) (d : BitVec 2) (l : Launch) (b : Word) (n : Option Nat) : State :=
  counterOp s d (supOf d) .pricking l.tag b fun a => match n with | some k => .frameInc a k | none => .frameRel a

/-- The increments of a placement sent, their ids kept until each is acknowledged. -/
def sendIncs (s : State) (d : BitVec 2) (l : Launch) (n : Nat) : State :=
  let t := (countedBinds l).foldl (fun u b => bindOp u d l b (some n)) s
  t.modDie d fun y => { y with incs := y.incs ++ (List.range (t.eids - s.eids)).map fun i => s.eids + i }

/-- The next start message id (R340). -/
def startPayload (l : Launch) (task origin member members gang : Nat) : List Byte :=
  leBytes 32 (lDw l 5 + task % 2 ^ 32 * 2 ^ 64 + launchCount l * 2 ^ 96 + origin * 2 ^ 128 + member * 2 ^ 140 +
    members * 2 ^ 150 + gang % 2 ^ 32 * 2 ^ 160)

/-- The capture block of a start message (R340). -/
def startCapture (l : Launch) : Option Capture :=
  if (lBinds l).all fun b => b == 0 then none
  else
    let bit (i : Nat) : Nat := b2n (dCounted (lBind l i)) * 2 ^ i
    some { dsc := #v[lBind l 0, lBind l 1, lBind l 2], cntd := BitVec.ofNat 3 (bit 0 + bit 1 + bit 2) }

/-- The start message for one core, but for its id (R340). -/
def startMsg (d : BitVec 2) (l : Launch) (gang : List CoreId) (c : CoreId) (payload : List Byte) : Msg :=
  { h0 := BitVec.ofNat 64 (lEntry l + (lPri l).toNat * 2 ^ 16 + 2 ^ 24 + c.toNat * 2 ^ 32 + (supOf d).toNat * 2 ^ 44)
    h1 := 0, cap := startCapture l, payload := payload, coded := none, cls := 2, priv := true, quad := false
    launch := some { die := d, id := l.id, pclass := launchClass l, exitB := if lGang l then some (lXbar l) else none
                     remote := lRemote l, persist := lPersist l, gang := gang }
    kept := none, arg := 0, tries := 1 }

/-- The starts of a placement, in the order of the cores chosen. -/
def startsOf (d : BitVec 2) (l : Launch) (cs : List CoreId) : List Start :=
  let sorted := sortBy (fun a b => decide (a.toNat ≤ b.toNat)) cs
  if lGang l then
    let low := (sorted.headD 0).toNat
    sorted.mapIdx fun i c =>
      ⟨c, startMsg d l sorted c (startPayload l (l.tasks + i) low i (sorted.length - 1) l.placed), l.id⟩
  else cs.mapIdx fun i c => ⟨c, startMsg d l [] c (startPayload l (l.tasks + i) 0 0 0 0), l.id⟩

/-- The membership of a gang's exit barrier (R298, R338). -/
def gangBarrier (b : Barrier) (cs : List CoreId) : Barrier :=
  let put (m : BitVec 3072) (c : CoreId) : BitVec 3072 :=
    m ||| (1#3072 <<< (1024 * (dieOf c).toNat + 4 * quadOf c + memberOf c))
  let putQ (m : BitVec 768) (c : CoreId) : BitVec 768 := m ||| (1#768 <<< (256 * (dieOf c).toNat + quadOf c))
  { b with en := true, shed := false, pclass := 0, exitb := true, held := false, cmask := cs.foldl put 0
           qmask := cs.foldl putQ 0, dmask := 0, pmask := 0, came := [], told := false, podCame := [], emptied := false }

/-- A queue served by a selection (R336): n more of its head's tasks or gangs are being placed. -/
def servedQueue (x : Queue) (n tasks : Nat) : Queue :=
  match x.recs with
  | [] => x
  | l :: rest =>
    { x with recs := { l with placed := l.placed + n, tasks := l.tasks + tasks } :: rest, age := 0, starve := 0, quals := 0, level := lPri l }

/-- A queue after a placement of its record id has run to its end: the record leaves once all is placed (R335), and
one that becomes the head sets LEVEL (R336). -/
def placedQueue (id : Nat) (x : Queue) : Queue :=
  let rest := x.recs.filter fun l => !(l.id == id && decide (launchCount l ≤ l.placed))
  if rest.head?.map Launch.id = x.recs.head?.map Launch.id then { x with recs := rest }
  else { x with recs := rest, level := match rest with | [] => x.level | h :: _ => lPri h }

/-- The placement in progress has ended (R335, R338). -/
def endPlacing (y : Die) : Die :=
  match y.placing with
  | none => y
  | some (q, id) => retryAgain (setQueue { y with placing := none } q.toNat (placedQueue id (queueAt y q.toNat)))

/-- One placement of the head of queue q on cores (R338). -/
def placeHead (s : State) (d : BitVec 2) (q : Nat) (cs : List CoreId) : State :=
  match (queueAt (s.die d) q).recs with
  | [] => s
  | l :: _ =>
    let again := (s.die d).flights.any fun f => f.launch.id == l.id
    let n := if lGang l then cs.length else if again then 0 else launchCount l
    let s1 :=
      if lGang l then
        let b := barNo ⟨.die, d.setWidth 10, lXbar l⟩
        (s.setBar b (gangBarrier (s.bar b) cs)).modDie d fun y => { y with gangs := y.gangs ++ [(lXbar l, cs, l.id)] }
      else s
    let s2 := if n = 0 then s1 else sendIncs s1 d l n
    s2.modDie d fun y =>
      let y1 := setQueue y q (servedQueue (queueAt y q) (if lGang l then 1 else cs.length) cs.length)
      let fl : Flight := { launch := l, queue := BitVec.ofNat 16 q, ended := 0, cores := [] }
      { y1 with
        flights := if again then y1.flights else y1.flights ++ [fl]
        starts := y1.starts ++ startsOf d l cs
        placing := some (BitVec.ofNat 16 q, l.id)
        reserve := match y1.reserve with
          | some (k, i, ds) => if i = l.id then none else some (k, i, ds)
          | none => none }

/-- Whether replay holds back a walk that the increments of a placement of the head of queue q need (R350). -/
def placeHeld (s : State) (d : BitVec 2) (q : Nat) : Bool :=
  match (queueAt (s.die d) q).recs with
  | [] => false
  | l :: _ => (lGang l || !((s.die d).flights.any fun f => f.launch.id == l.id)) &&
      (counterWalks s d l.tag (countedBinds l)).isNone

/-- PRICKING_SELECTION (R335-R338): none while a placement is in progress, no head is eligible, or replay holds it. -/
def trySelect (d : BitVec 2) (s : State) : Option State :=
  let y := s.die d
  if s.stopped || y.placing.isSome then none
  else
    match pickQueue s d with
    | none => none
    | some (q, cs) =>
      if placeHeld s d q then none else
      let lam := (queueAt y q).level.toNat
      let s1 := s.modDie d fun z =>
        { z with
          last := z.last.setIfInBounds lam (BitVec.ofNat 16 q)
          queues := (z.queues.map fun p => if p.1 = q then p else (p.1, starveQueue s d (ageQueue s p.2))).filter fun p =>
            !(decide (p.2 = Queue.reset)) }
      let s2 := placeHead s1 d q cs
      some (s2.modDie d fun z => { z with reserve := newReserve s2 d })

/-- START_MESSAGE_SEND (R338, R340): once the increments are acknowledged, the next start message; the last one
ends the placement. -/
def tryStart (d : BitVec 2) (s : State) : Option State :=
  let y := s.die d
  if !y.incs.isEmpty then none
  else
    match y.starts with
    | [] => none
    | t :: rest =>
      let id := nextId y.msgCnt
      let s1 := s.modDie d fun z =>
        let z1 : Die := { z with
          starts := rest, msgCnt := id
          flights := z.flights.map fun f => if f.launch.id = t.flight then { f with cores := f.cores ++ [t.dst] } else f }
        if rest.isEmpty then endPlacing z1 else z1
      some (sendFrom (slowUpdate s1 t.dst) (supOf d) .pricking t.dst (.msg { t.msg with h1 := id.setWidth 64 }))

/-! ### Starts that fail, tasks that end (R333, R339) -/

/-- The launch a reference names, if it is in flight. -/
def flightOf (s : State) (r : LaunchRef) : Option Flight := (s.die r.die).flights.find? fun f => f.launch.id == r.id

/-- A start message refused for good (R339): the bindings released, a gang member's arrival signalled, an
error record; the task has ended, a gang member's with its barrier, or with the loss of its core (R333). -/
def startRefused (s : State) (r : LaunchRef) (c : CoreId) (cause : BitVec 8) : State :=
  let s1 := match flightOf s r with
    | none => s
    | some f => (countedBinds f.launch).foldl (fun u b => bindOp u r.die f.launch b none) s
  let s2 := s1.report (.error (supOf r.die) 339 cause.toNat)
  match r.exitB with
  | some x => if (s2.coreAt c).killed then endTask s2 r.die r.id c else signalArrival s2 (barNo ⟨.die, r.die.setWidth 10, x⟩) c
  | none => endTask s2 r.die r.id c

/-- Whether replay holds back a walk that the releases of a start message refused for good need (R350). -/
def startHeld (s : State) (r : LaunchRef) : Bool :=
  match flightOf s r with
  | none => false
  | some f => (counterWalks s r.die f.launch.tag (countedBinds f.launch)).isNone

/-- A start message answered by an error packet (R339): its task is placed again; a gang goes on without
its member (R354). -/
def startLost (s : State) (r : LaunchRef) (c : CoreId) : State :=
  match r.exitB with
  | some _ => endTask s r.die r.id c
  | none => placeAgain s r.die r.id c

/-- TASK_END_REPORT (R333), of the core in focus; without one, a launch of its die whose last gang's exit barrier has
completed without a member to report is done (R341). -/
def tryEndReport (s : State) : Option State :=
  match s.core.ends with
  | [] =>
    let d := dieOf s.coreId
    if (s.die d).flights.any (flightOver (s.die d)) then some (closeFlights s d) else none
  | r :: rest => some (endTask (s.modCore fun k => { k with ends := rest }) r.die r.id s.coreId)

/-- QUEUE_CONTROL_WRITE (R329). -/
def writeQueue (d : BitVec 2) (q : Nat) (x : Word) (s : State) : State :=
  s.modDie d fun y =>
    setQueue y q { queueAt y q with en := x.getLsbD 0, sys := x.getLsbD 1, priv := x.getLsbD 2 }

/-- The control word of a queue as hosts read it (R329). -/
def queueWord (x : Queue) : Nat :=
  b2n x.en + b2n x.sys * 2 + b2n x.priv * 4 + x.recs.length * 2 ^ 8 + x.level.toNat * 2 ^ 13 + x.age.toNat * 2 ^ 16

/-- QUEUE_CONTROL_WRITE (R329). -/
def execQueueControlWrite (d : BitVec 2) (q : BitVec 16) (x : Word) (s : State) : Out :=
  .next (writeQueue d q.toNat x s)

/-- PRICKING_SELECTION (R336). -/
def execPrickingSelection (d : BitVec 2) (s : State) : Out := .next ((trySelect d s).getD s)

/-- START_MESSAGE_SEND (R340). -/
def execStartMessageSend (d : BitVec 2) (s : State) : Out := .next ((tryStart d s).getD s)

/-- TASK_END_REPORT (R333). -/
def execTaskEndReport (s : State) : Out := .next ((tryEndReport s).getD s)

end Sys2Proof.Machine
end

