-- ==== Sys2Proof/Machine/Net.lean ====
section
/-! DEFINITION. What travels (19, 21): chunks leave the hoop (R283, R318), sprays (R327), sampler coding
(R325, R326), requests performed at their ports in groups (R342, R343, R352), landings (R322), boot loads
(R358), replies, refusals and failures at the sender (R201, R320, R324). -/
namespace Sys2Proof.Machine

/-! ### Samplers (R325, R326) -/

/-- A request after the receiver's sampler for its source (R325): as it was before it was coded, or refused. -/
inductive Uncoded where
  | plain (o : Op) (k : Core)
  | refused (k : Core)
  deriving DecidableEq, Repr

/-- A request from a core decoded at the core in focus (R325, R326); sprays are never coded, and a channel sends
nothing coded. Until a packet with DR comes from a source whose sampler is gone, everything from it is refused, spray
copies as well. -/
def uncode (k : Core) (src : CoreId) (spray dr : Bool) (o : Op) : Uncoded :=
  let others := k.rxSamp.filter fun y => !(y.peer == src)
  let dec (m : Msg) (bits : List Bool) (t : Table Word) (refuse : List CoreId) : Uncoded :=
    let q := decodeWords (4 * natOf (bits.take 6)) (bits.drop 6) t
    .plain (.msg { m with coded := none, payload := q.1.flatMap (leBytes 8) })
      { k with rxSamp := ⟨src, q.2, false, false⟩ :: others.take 7, refuse := refuse }
  let still := k.refuse.filter fun c => !(c == src)
  if spray then (if k.refuse.contains src then .refused k else .plain o k)
  else
    match o with
    | .retire _ _ => .plain o k
    | .msg m =>
      if hDr m then
        match m.coded with
        | some bits => dec m bits [] still
        | none => .plain o { k with refuse := still }
      else if k.refuse.contains src then .refused k
      else
        match m.coded with
        | none => .plain o k
        | some bits =>
          match k.rxSamp.find? fun y => y.peer == src && !y.bad with
          | some y => dec m bits y.entries k.refuse
          | none => .refused { k with refuse := src :: k.refuse, rxSamp := others }
    | _ =>
      if dr then .plain o { k with refuse := still }
      else if k.refuse.contains src then .refused k
      else .plain o k

/-- The sampler of a receiver once the requests of a group have come, where one of them is refused (R325). -/
def groupRefused (src : CoreId) : Core → List Packet → Option Core
  | _, [] => none
  | k, p :: ps =>
    match p.body with
    | .op o =>
      match uncode k src p.spray p.dr o with
      | .refused k1 => some k1
      | .plain _ k1 => groupRefused src k1 ps
    | _ => groupRefused src k ps

/-- A sender whose sampler was refused starts a new one (R325). -/
def resetSampler (k : Core) (dst : CoreId) : Core :=
  { k with txSamp := k.txSamp.map fun x => if x.peer = dst then { x with entries := [], reset := true, bad := false } else x }

/-! ### Landings (R322) -/

/-- The bytes a landing writes, in order, from what rd reads before it; none is LANDING_BAD. -/
def landCells (rd : Nat → Byte) (top lt o p : Nat) (bs : List Byte) : Option (List Host.Cell) :=
  let n := bs.length
  let old (a k : Nat) : Nat := leNat ((List.range k).map fun i => rd (a + i))
  let el (k j : Nat) : Nat := leNat ((bs.drop (k * j)).take k)
  let cells : Option (List Host.Cell) :=
    match lt with
    | 1 | 6 => if o % 4 ≠ 0 then none else
      some ((List.range (n / 4)).flatMap fun j => cellsAt (o + 4 * j) (leBytes 4 (land32 lt (old (o + 4 * j) 4) (el 4 j))))
    | 2 => if o % 4 ≠ 0 then none else
      some ((List.range (n / 2)).flatMap fun j =>
        cellsAt (o + 4 * j) (leBytes 4 (land32 1 (old (o + 4 * j) 4) (el 2 j * 65536))))
    | 3 => if o % 2 ≠ 0 then none else
      some ((List.range n).flatMap fun j => cellsAt (o + 2 * j) (leBytes 2 (encodeF bf16F (decodeF e4m3F (el 1 j)))))
    | 4 => if o % 8 ≠ 0 then none else
      some ((List.range (n / 8)).flatMap fun j => cellsAt (o + 8 * p * j) (leBytes 8 (el 8 j)))
    | 5 => if o % 8 ≠ 0 ∨ n ≠ 512 then none else
      some ((List.range 64).flatMap fun j => cellsAt (o + 8 * p * (j % 8) + 8 * (j / 8)) (leBytes 8 (el 8 j)))
    | 7 => if o % 8 ≠ 0 then none else
      some ((List.range (n / 8)).flatMap fun j => cellsAt (o + 8 * j) (leBytes 8 (old (o + 8 * j) 8 ^^^ el 8 j)))
    | _ => none
  cells.filter fun cs => cs.all fun c => decide (c.1 < top)

/-! ### Boot loads (R358) -/

/-- A boot load: its target, the offset there and the bytes; none is LANDING_BAD. DESIGN CHOICE (log entry 76): the
32·LEN - 8 bytes after T are never a multiple of 16, so a load of the entry table writes the whole entries they hold.
Unsafe. -/
def bootLoad (m : Msg) : Option (Nat × Nat × List Byte) :=
  let t := leNat (m.payload.take 8)
  let bs := m.payload.drop 8
  let o := nfld t 0 17
  if !(isSupervisor (hSrc m) && m.priv) || hLen m == 0 || t / 2 ^ 19 != 0 then none
  else
    match nfld t 17 2 with
    | 0 => if o % 4 = 0 ∧ o + bs.length ≤ 0x10000 then some (0, o, bs) else none
    | 1 =>
      let whole := bs.take (bs.length / 16 * 16)
      if o % 16 = 0 ∧ o + whole.length ≤ 0x1000 then some (1, o, whole) else none
    | 2 => if o + bs.length ≤ spTop then some (2, o, bs) else none
    | _ => none

/-- Whole entries from an offset of the entry table. -/
def entriesIn16 (o : Nat) (bs : List Byte) : List (Nat × Entry) :=
  (chunksOf 16 100 bs).mapIdx fun i e =>
    (o / 16 + i, ⟨BitVec.ofNat 64 (leNat (e.take 8)), BitVec.ofNat 64 (leNat (e.drop 8))⟩)

def putEntries (k : Core) (es : List (Nat × Entry)) : Core :=
  { k with entries := es.foldl (fun t e => tput ⟨0, 0⟩ t e.1 e.2) k.entries }

/-! ### Requests performed at a core -/

/-- What a request comes to at its port: held back by replay (R350); held, since local posts wait there (R200) or the
core is not booted (R357); or performed with a reply, if one leaves now. -/
inductive Del where
  | held
  | waits
  | performed (s : State) (reply : Option Body)
  deriving DecidableEq, Repr

/-- The kind of an operation in a ring (R349). -/
def opKind : Op → Nat
  | .load _ => 0
  | .store _ | .slot0 _ _ | .istore _ | .entries _ | .sev _ => 1
  | .atomic _ _ _ _ _ => 2
  | .msg m => if hLt m = 0 then 3 else 4
  | .retire _ _ => 3
  | .cdec _ _ _ | .frameInc _ _ | .frameOwn _ | .frameRel _ => 5

/-- The address of an operation at its port (R349); a record's is that of its place (acceptValid). -/
def opAddr : Op → Nat
  | .load as => as.headD 0
  | .store cs | .istore cs => (cs.map Prod.fst).headD 0
  | .slot0 a _ | .atomic _ _ a _ _ | .cdec a _ _ | .frameInc a _ | .frameOwn a | .frameRel a => a
  | .entries es => 16 * (es.map Prod.fst).headD 0
  | .msg m => nfld (hArg m) 0 17
  | .sev _ | .retire _ _ => 0

/-- The port of a core an operation is performed at: a boot load's is its target's (R358); an append is made at no
port of the core, a latch is at none (R277), and a retirement task is a local post (R25, R200). -/
def opPort (c : CoreId) : Op → Option PortKey
  | .istore _ => some (.istore c)
  | .entries _ => some (.entries c)
  | .sev _ | .retire _ _ => none
  | .msg m =>
    if hLt m = 0 && hEntry m == 253 then none
    else if hLt m = 0 && hEntry m == 252 then
      (bootLoad m).map fun l => if l.1 = 0 then .istore c else if l.1 = 1 then .entries c else .scratch c
    else some (.scratch c)
  | _ => some (.scratch c)

/-- Whether an access is logged where it is made: messages with LT = 0 look up an entry, become a record or load a
store, and a landing may be refused. -/
def logsItself : Op → Bool
  | .msg _ => true
  | _ => false

/-- The message of an operation, if it is one: an error packet names it. -/
def opMsg : Op → Option Msg
  | .msg m => some m
  | _ => none

/-- The USER of an engine's decrement, which an error packet names (R237). -/
def opUser : Op → Option Word
  | .cdec _ _ u => u
  | _ => none

/-- The reply to a packet, which names its place in its group. -/
def replyTo (s : State) (p : Packet) (b : Body) : State :=
  s.sendPkt { p with route := ⟨p.route.dst, p.route.src⟩, spray := false, body := b }

/-- The lookup of the parked message repeated (R202): it becomes a record, is refused, or stays. none: replay holds
the lookup or the record back (R350). -/
def tryRetryPark (s : State) : Option State :=
  match s.core.park with
  | none => none
  | some (m, p, _) =>
    (lookEntry s (hEntry m)).bind fun s1 =>
      let e := entryAt s1.core (hEntry m)
      if eValid e then
        let t := s1.modCore fun k => { k with park := none }
        match acceptValid t false m p e with
        | .taken u => some (replyTo u p .ack)
        | .parked u => some u
        | .refused u c => some (replyTo u p (.nack c (.msg m)))
        | .held => none
      else some s1

/-- After a rewrite of entries: the parked message's lookup, if its entry is among them (R202). -/
def afterRewrite (s : State) (es : List (Nat × Entry)) : State :=
  match s.core.park with
  | some (m, _, _) => if es.any fun e => e.1 == (hEntry m).toNat then (tryRetryPark s).getD s else s
  | none => s

/-- The parked message's lookup once replay lets it through: its entry has become valid (R202, R350). -/
def tryParkValid (s : State) : Option State :=
  match s.core.park with
  | some (m, _, _) => if eValid (entryAt s.core (hEntry m)) then tryRetryPark s else none
  | none => none

/-- Scratchpad words that an operation reads and writes again (R191). -/
def rewords (s : State) (reads writes : List Nat) : State × Bool :=
  let r := s.consume .scratch (wordsOf 8 reads)
  (r.1.modCore (freshWords .scratch (wordsOf 8 writes)), r.2)

/-- The doublewords that a decrement of n at a record reads and writes. DESIGN CHOICE (log entry 105): one that posts
no task does not read the second, and one that changes nothing writes none; R191 does not say. Unsafe. -/
def cdecWords (m : Memory) (a n : Nat) : List Nat × List Nat :=
  let x := rdNat m a 8
  let cnt := nfld x 0 32
  (if cnt ≠ 0 ∧ n ≠ 0 ∧ cnt ≤ n ∧ nbit x 40 = true then [a, a + 8] else [a], if cnt = 0 ∨ n = 0 then [] else [a])

/-- The same of a release at a frame: a retirement reads slot 1, whatever REN says (R25); a frame error writes nothing
(log entry 105). -/
def releaseWords (m : Memory) (a : Nat) : List Nat × List Nat :=
  let x := rdNat m a 8
  (if sLv x = true ∧ sLive x ≤ 1 then [a, a + 8] else [a], if sLv x then [a] else [])

/-- A store, an atomic or a counter operation that met an uncorrectable error: its home core is lost, and an error
packet answers (R191, R352; log entry 69). -/
def homeLost (s : State) (o : Op) : Del := .performed (killCore s) (some (.err 1 (opMsg o) (opUser o)))

/-- k once the check bits that an operation meets are right. -/
def intact (r : State × Bool) (o : Op) (k : State → Del) : Del := if r.2 then homeLost r.1 o else k r.1

/-- A supervisor core that has taken a boot load runs (R357). -/
def State.starts (s : State) : State :=
  if isSupervisor s.coreId && !(s.started.contains s.coreId) then { s with started := s.coreId :: s.started } else s

/-- A boot load performed, as one access at its port; it starts a supervisor (R357). -/
def takeBoot (s : State) (grp : Bool) (m : Msg) (p : Packet) : Del :=
  let at_ (k : PortKey) (o : Nat) (f : State → Del) : Del :=
    match seenAt s k (pktSeen s p 1 grp o) with | none => .held | some t => f t
  match bootLoad m with
  | none => .performed s (some (.nack 4 (.msg m)))
  | some (0, o, bs) => at_ (.istore s.coreId) o fun t =>
      .performed (t.modCore fun k => freshWords .istore (wordsOf 4 ((List.range bs.length).map fun i => o + i))
        { k with istore := wrBytes k.istore o bs }).starts (some .ack)
  | some (1, o, bs) => at_ (.entries s.coreId) o fun t =>
      .performed (afterRewrite (t.modCore fun k => putEntries k (entriesIn16 o bs)) (entriesIn16 o bs)).starts (some .ack)
  | some (_, o, bs) => at_ (.scratch s.coreId) o fun t =>
      intact (t.rewrite .scratch 8 (cellsAt o bs)) (.msg m) fun u =>
        .performed (u.modCore fun k => { k with mem := wrBytes k.mem o bs }).starts (some .ack)

/-- A message with LT = 0 (R199-R202), to entry 253 (R331) or 252 (R358). -/
def takeMsg (s : State) (grp : Bool) (m : Msg) (p : Packet) : Del :=
  if hEntry m == 252 then takeBoot s grp m p
  else if hEntry m == 253 then
    let d := dieOf s.coreId
    let l : Launch := { dw := recWords m.payload, src := some (hSrc m), tag := p.tag, placed := 0, tasks := 0, id := 0 }
    let q := hArg m % 65536
    let f := if hLen m ≠ 2 ∨ hArg m / 65536 ≠ 0 then some 6 else appendFault (s.die d) q m.priv false (hSrc m) l
    match f with
    | some c => .performed s (some (.nack c (.msg m)))
    | none => .performed (appendRecord s d q l) (some .ack)
  else
    match acceptMsg s grp m p with
    | .taken t => .performed t (some .ack)
    | .parked t => .performed t none
    | .refused t c => .performed t (some (.nack c (.msg m)))
    | .held => .held
where
  /-- The eight doublewords of a record. -/
  recWords (p : List Byte) : Vector Word 8 :=
    let w (i : Nat) : Word := BitVec.ofNat 64 (leNat ((p.drop (8 * i)).take 8))
    #v[w 0, w 1, w 2, w 3, w 4, w 5, w 6, w 7]

/-- Whether a landing combines its elements with the stored ones (R322). -/
def landReads (lt : Nat) : Bool := lt == 1 || lt == 2 || lt == 6 || lt == 7

/-- A landing at the core in focus (R321, R322), one access at the port. -/
def landMsg (s : State) (grp : Bool) (m : Msg) (p : Packet) : Del :=
  match landCells (rd8 s.core.mem) spTop (hLt m) (nfld (hArg m) 0 17) (nfld (hArg m) 17 15) m.payload with
  | none => .performed s (some (.nack 4 (.msg m)))
  | some cs =>
    match seenAt s (.scratch s.coreId) (pktSeen s p 4 grp (opAddr (.msg m))) with
    | none => .held
    | some t =>
      let as := cs.map Prod.fst
      intact (if landReads (hLt m) then rewords t as as else t.rewrite .scratch 8 cs) (.msg m) fun u =>
        .performed (u.modCore fun k => { k with mem := wrCells k.mem cs }) (some .ack)

/-- Whether a core event of a core waits for room here, which holds back what follows it on its route (R200). -/
def eventWaits (k : Core) (src : CoreId) : Bool := k.posts.any fun p => p.cls == 6 && p.src == src

/-- Whether a request must wait at the core in focus: behind a core event or, a decrement, behind a local post (R200);
a message other than a boot load, counter messages among them, until boot is done (R317, R357; log entry 59). -/
def mustWait (s : State) (p : Packet) (o : Op) : Bool :=
  (match p.route.src with | .core c => eventWaits s.core c | .chan _ => false) ||
    (match o with
     | .msg m => !s.booted && !(hLt m == 0 && hEntry m == 252)
     | .frameInc _ _ | .frameOwn _ => !s.booted
     | .cdec _ _ _ | .frameRel _ => !s.booted || !s.core.posts.isEmpty
     | .load _ | .store _ | .slot0 _ _ | .istore _ | .entries _ | .atomic _ _ _ _ _ | .sev _ | .retire _ _ => false)

/-- One request performed at the core in focus. -/
def performAt (s : State) (p : Packet) (grp : Bool) (o : Op) : Del :=
  if mustWait s p o then .waits
  else
    match o with
    | .load as =>
      match s.consume .scratch (wordsOf 8 as) with
      | (t, true) => .performed t (some .poisoned)
      | (t, false) => .performed t (some (.loadReply (as.map (rd8 t.core.mem))))
    | .store cs => intact (s.rewrite .scratch 8 cs) o fun t =>
        .performed (t.modCore fun k => { k with mem := wrCells k.mem cs }) (some .ack)
    | .slot0 a x => intact (rewords s [a] [a]) o fun t =>
        .performed (t.modCore fun k => { k with mem := wrBytes k.mem a (leBytes 8 (mergeSlot0 (rdNat k.mem a 8) x.toNat)) })
          (some .ack)
    | .istore cs => intact (s.rewrite .istore 4 cs) o fun t =>
        .performed (t.modCore fun k => { k with istore := wrCells k.istore cs }) (some .ack)
    | .entries es => .performed (afterRewrite (s.modCore fun k => putEntries k es) es) (some .ack)
    | .atomic fn z a b e => intact (rewords s [a] (amoWritten s.core.mem fn z a e)) o fun t =>
        let r := amoAt t.core.mem fn z a b e
        .performed (t.modCore fun k => { k with mem := r.1 }) (some (.atomicReply (BitVec.ofNat 64 r.2)))
    | .msg m => if hLt m = 0 then takeMsg s grp m p else landMsg s grp m p
    | .cdec a n user =>
      let w := cdecWords s.core.mem a n
      intact (rewords s w.1 w.2) o fun t => .performed (countdown t a n user) (some .ack)
    | .frameInc a n =>
      intact (rewords s [a] (if sLv (rdNat s.core.mem a 8) then [a] else [])) o fun t =>
        .performed (incrementAt t a n (srcCore p)) (some .ack)
    | .frameOwn a => intact (rewords s [a] [a]) o fun t => .performed (ownIncrement t a) (some .ack)
    | .frameRel a =>
      let w := releaseWords s.core.mem a
      intact (rewords s w.1 w.2) o fun t => .performed (releaseAt t a (srcCore p)) (some .ack)
    | .sev m => .performed (s.modCore fun k => setLatches k m) (some .ack)
    | .retire e x => .performed (postTask s (retirePost s.coreId e x)) none

/-- A request at the core in focus: refused for want of its sampler (R325), held by replay, or performed and logged
(R349, R350). -/
def atCore (s : State) (grp : Bool) (p : Packet) (o : Op) : Del :=
  match uncode s.core (srcCore p) p.spray p.dr o with
  | .refused k => .performed (s.modCore fun _ => k) (some (.nack 5 o))
  | .plain o1 k =>
    let t := s.modCore fun _ => k
    match (if logsItself o1 then none else opPort t.coreId o1) with
    | none => performAt t p grp o1
    | some q =>
      match performAt t p grp o1 with
      | .performed _ _ =>
        match seenAt t q (pktSeen t p (opKind o1) grp (opAddr o1)) with
        | none => .held
        | some u => performAt u p grp o1
      | r => r

/-! ### Requests performed at a channel (R348, R372, R373) -/

/-- One request at a memory channel. -/
def performChan (s : State) (p : Packet) (o : Op) : Del :=
  let a := opAddr o
  if !(frameOk s p.tag a) then
    match o with
    | .atomic _ _ _ _ _ => .performed s (some .stale)
    | _ => .performed (s.report (.error (srcCore p) 373 a)) (some .ack)
  else
    match o with
    | .atomic fn z a b e =>
      let as := (List.range (sizeBytes z)).map fun i => a + i
      match chanRead s as with
      | none => .performed s (some .poisoned)
      | some bs =>
        let v := leNat bs
        let n := sizeBytes z
        let eb := e.toNat % 2 ^ (8 * n)
        let cs := if amoWrites fn v eb then cellsAt a (leBytes n (amoNew fn (8 * n) v (b.toNat % 2 ^ (8 * n)) eb)) else []
        .performed (chanUpdate s as cs) (some (.atomicReply (BitVec.ofNat 64 v)))
    | .store cs => .performed (chanWrite s cs) (some .ack)
    | .slot0 a x =>
      let old := (chanRead s ((List.range 8).map fun i => a + i)).map leNat
      .performed (chanWrite s (cellsAt a (leBytes 8 (mergeSlot0 (old.getD 0) x.toNat)))) (some .ack)
    | .frameInc a n => .performed (incrementFabric s a n (some (s.pkgNo, srcCore p))) (some .ack)
    | .frameOwn a => .performed (incrementFabric s a 1 (some (s.pkgNo, srcCore p))) (some .ack)
    | .frameRel a => .performed (releaseFabric s a (some (s.pkgNo, srcCore p))) (some .ack)
    | .istore _ | .entries _ | .msg _ | .cdec _ _ _ | .load _ | .sev _ | .retire _ _ => .performed s (some .ack)

/-- A request at a channel, held by replay, or performed and logged; a channel has no contexts of its own (R349). -/
def atChan (s : State) (n : BitVec 5) (grp : Bool) (p : Packet) (o : Op) : Del :=
  match seenAt s (.chan n) { pktSeen s p (opKind o) grp p.va with own := false } with
  | none => .held
  | some t => performChan t p o

/-! ### Sprays along their trees (R313, R327) -/

/-- The tree entry of a router (R327): valid, and the five outputs. -/
def treeMask (s : State) (x y tree : Nat) : Option (BitVec 5) :=
  let d : BitVec 2 := BitVec.ofNat 2 (x / 32)
  let e := tget 0 (s.die d).trees ((32 * y + x % 32) * 64 + tree)
  if e.getLsbD 5 then some (e.setWidth 5) else none

/-- The leaves of a spray with the links that lead to each, from routers still to be visited: outputs north, east,
south, west, local in bits 0-4 (log entry 23); a router is entered once. DESIGN CHOICE (log entry 23): a branch ends
without a copy and without an error record at a router further down that has no valid entry, and at an output that
leads off the mesh; R327 gives an outcome for the source's router alone. Unsafe. -/
def growTree (s : State) (tree : Nat) : Nat → List (Nat × Nat × List Nat) → List Nat → List (CoreId × List Nat) →
    List (CoreId × List Nat)
  | 0, _, _, acc => acc.reverse
  | _, [], _, acc => acc.reverse
  | fuel + 1, (x, y, ls) :: work, seen, acc =>
    let r := 96 * y + x
    match (if seen.contains r then none else treeMask s x y tree) with
    | none => growTree s tree fuel work seen acc
    | some m =>
      let here : CoreId := BitVec.ofNat 12 (x / 32 * 1024 + 32 * y + x % 32)
      let out (on : Bool) (x' y' dir : Nat) : List (Nat × Nat × List Nat) := if on then [(x', y', linkNo x y dir :: ls)] else []
      let next := out (m.getLsbD 0 && decide (0 < y)) x (y - 1) 0 ++ out (m.getLsbD 1 && decide (x < 95)) (x + 1) y 1 ++
        out (m.getLsbD 2 && decide (y < 31)) x (y + 1) 2 ++ out (m.getLsbD 3 && decide (0 < x)) (x - 1) y 3
      growTree s tree fuel (next ++ work) (r :: seen) (if m.getLsbD 4 && visible here then (here, ls) :: acc else acc)

/-- The leaves of a spray message, at most 1,024 (R327; log entry 23); none where its tree has no entry at the
source's router. DESIGN CHOICE (log entry 23): one whose DEST[11:6] is not 0, as R327 asks of software, is discarded
like one without a tree. Unsafe. -/
def sprayPaths (s : State) (c : CoreId) (m : Msg) : Option (List (CoreId × List Nat)) :=
  let p := siteOf (.core c)
  let tree := nfld m.h0.toNat 32 6
  if nfld m.h0.toNat 38 6 ≠ 0 then none
  else (treeMask s p.1 p.2 tree).map fun _ => (growTree s tree 15361 [(p.1, p.2, [])] [] []).take 1024

/-- The links a packet crosses: those of its tree, or of its route (R294, R313). -/
def linksOf (s : State) (p : Packet) : List Nat :=
  match p.spray, p.route.src, p.route.dst, p.body with
  | true, .core c, .core l, .op (.msg m) =>
    (((sprayPaths s c m).getD []).find? fun x => x.1 == l).map Prod.snd |>.getD []
  | _, _, _, _ => routeLinks p.route

/-- Whether no route remains for a packet (R315, R353). -/
def pktDown (s : State) (p : Packet) : Bool :=
  !s.downLinks.isEmpty && (linksOf s p).any fun l => s.downLinks.contains l

/-- The flits of a packet have crossed its links: no failure of theirs counts any more (R315). -/
def crossed (s : State) (p : Packet) : State :=
  if s.retries.isEmpty then s else { s with retries := (linksOf s p).foldl (fun t l => tput 0 t l 0) s.retries }

/-! ### Delivery -/

/-- One request delivered: answered with an error packet where its target is sealed or no route remains
(R352, R353), else performed or held. A channel that sent a retirement task takes no answer (log entry 50). -/
def deliverOne (s0 : State) (grp : Bool) (p : Packet) (o : Op) : Del :=
  let err (s : State) (c : BitVec 8) : Del :=
    match o, p.route.dst with
    | .retire _ _, .core rc => .performed (s.report (.error rc 202 p.va)) none
    | _, _ => .performed (replyTo s p (.err c (opMsg o) (opUser o))) none
  let fin (t : State) (r : Option Body) : Del := .performed (match r with | none => t | some b => replyTo t p b) none
  if pktDown s0 p then err s0 2
  else
    let s := crossed s0 p
    match p.route.dst with
    | .chan n => match atChan s n grp p o with | .performed t r => fin t r | d => d
    | .core c =>
      if (s.coreAt c).killed then err s 1
      else
        match atCore (s.focus c) grp p o with
        | .performed t r => fin (t.clockUpdate.focus s.coreId) r
        | d => d

/-- The first packet of a list that a test picks out, and the list without it. -/
def takeFirst (f : Packet → Bool) : List Packet → Option (Packet × List Packet)
  | [] => none
  | p :: ps => if f p then some (p, ps) else (takeFirst f ps).map fun q => (q.1, p :: q.2)

/-- The head of the requests on a route, of its spray copies, of its replies: the three classes (R313). -/
def requestHead (s : State) (r : Route) : Option (Packet × List Packet) :=
  takeFirst (fun p => decide (p.route = r) && isRequest p && !p.spray) s.net

def sprayHead (s : State) (r : Route) : Option (Packet × List Packet) :=
  takeFirst (fun p => decide (p.route = r) && isRequest p && p.spray) s.net

def replyHead (s : State) (r : Route) : Option (Packet × List Packet) :=
  takeFirst (fun p => decide (p.route = r) && !(isRequest p)) s.net

/-- The port at which an operation is performed, as groups count ports (R343). -/
def groupPort (dst : Port) (o : Op) : List PortKey :=
  match dst with
  | .chan n => [.chan n]
  | .core c => (opPort c o).toList

/-- The packets of the group at the head of a route, in order (R343). -/
def groupAhead (s : State) (r : Route) : List Packet :=
  let q := s.net.filter fun p => decide (p.route = r) && isRequest p && !p.spray
  q.take ((q.findIdx fun p => !p.more) + 1)

/-- Whether what is left of the group at the head of a route accesses none of the ports given: the groups there are
whole (R343). -/
def doneAt (s : State) (r : Route) (ports : List PortKey) : Bool :=
  (groupAhead s r).all fun p => match p.body with | .op o => !((groupPort r.dst o).any ports.contains) | _ => true

/-- The effects of a group performed one after the other; moved: one has been; ports: those it has accessed; kept: the
state at the last point where the groups of those ports were whole, which is all that stands where the next effect may
not be performed: a port begins a group only once it can perform it without a gap (R343). DESIGN CHOICE (log entry
75): so a group that replay would hold back in its midst (R350), or an operation of it behind a local post of its own
(R200), does not begin. Unsafe. -/
def deliverRest (r : Route) : Nat → Bool → List PortKey → Option State → State → Option State
  | 0, _, _, kept, _ => kept
  | fuel + 1, moved, ports, kept, s =>
    match requestHead s r with
    | none => kept
    | some (p, rest) =>
      match p.body with
      | .op o =>
        let here := groupPort p.route.dst o
        let safe := if moved && doneAt s r ports then some s else kept
        match deliverOne { s with net := rest } (here.any ports.contains) p o with
        | .held | .waits => safe
        | .performed t _ => if p.more then deliverRest r fuel true (here ++ ports) safe t else some t
      | _ => kept

/-- A group refused as a whole for want of its sampler (R325, R343). -/
def refuseGroup (s : State) (ps : List Packet) : State :=
  ps.foldl (fun t p => match p.body with | .op o => replyTo t p (.nack 5 o) | _ => t)
    { s with net := s.net.filter fun p => !(decide (p ∈ ps)) }

/-- The group at the head of a route performed without a gap, once each of its effects may be (R343). none: it cannot
start. DESIGN CHOICE (log entry 75): where the receiver's sampler refuses one of them, the whole group is refused.
Unsafe. -/
def deliverGroup (r : Route) (s : State) : Option State :=
  let go := deliverRest r (s.net.length + 1) false [] none s
  let ps := groupAhead s r
  match r.dst, ps with
  | .core c, p :: _ =>
    let k := s.coreAt c
    if k.killed || ps.any (pktDown s) then go
    else
      match groupRefused (srcCore p) k ps with
      | some k1 => some (refuseGroup (s.onCore c fun t => t.modCore fun _ => k1) ps)
      | none =>
        let waits (q : Packet) : Bool := match q.body with | .op o => mustWait (s.focus c) q o | _ => false
        if ps.any waits then none else go
  | _, _ => go

/-- A spray copy delivered. -/
def deliverSpray (s : State) (p : Packet) (rest : List Packet) : Option State :=
  match p.body with
  | .op o => match deliverOne { s with net := rest } false p o with | .performed t _ => some t | _ => none
  | _ => none

/-- Whether replay holds back an access of the engine of a route's source, which holds its route behind it (R342,
R350). -/
def engineHeld (s : State) (r : Route) : Bool :=
  match r.src, r.dst with
  | .core a, .core b => (s.coreAt a).cprun.any fun x => x.heldAt == some b
  | _, _ => false

/-- The group at the head of a route or its oldest spray copy, whichever stands first in the mesh, if it is of a kind
and not held; else the other (R313, R328). -/
def tryRequest (kind : Op → Bool) (r : Route) (s : State) : Option State :=
  let is (q : Option (Packet × List Packet)) : Option (Packet × List Packet) :=
    q.filter fun x => match x.1.body with | .op o => kind o | _ => false
  let one := if engineHeld s r then none else (is (requestHead s r)).bind fun _ => deliverGroup r s
  let two := (is (sprayHead s r)).bind fun x => deliverSpray s x.1 x.2
  let sprayFirst := match s.net.find? fun p => decide (p.route = r) && isRequest p with | some p => p.spray | none => false
  if sprayFirst then (match two with | some t => some t | none => one)
  else (match one with | some t => some t | none => two)

def onRequest (kind : Op → Bool) (r : Route) (s : State) : Out := .next ((tryRequest kind r s).getD s)

/-! ### Chunks leave the hoop (R283, R318, R327) -/

/-- A copy of an effect still awaited has been answered (R283, R328): with its last copy the effect leaves
the hoop; a gang member that waited for it arrives (R298). -/
def ackEffect (s : State) (c : CtxNo) (eid : Nat) : State :=
  let one (e : Effect) : Option Effect :=
    if e.eid = eid then (if e.copies ≤ 1 then none else some { e with copies := e.copies - 1 }) else some e
  let t := s.modCtxAt c fun x =>
    { x with chunks := (x.chunks.map fun k => { k with effs := k.effs.filterMap one }).filter fun k => !k.effs.isEmpty }
  settle t c

/-- The number of copies an effect awaits. -/
def setCopies (s : State) (c : CtxNo) (eid n : Nat) : State :=
  s.modCtxAt c fun x => { x with chunks := x.chunks.map fun k =>
    { k with effs := k.effs.map fun e => if e.eid = eid then { e with copies := n } else e } }

def effPacket (s : State) (c : CtxNo) (e : Effect) (dst : Port) (o : Op) (more : Bool) : Packet :=
  { route := ⟨.core s.coreId, dst⟩, who := .ctx c, eid := e.eid, more := more, spray := false, tag := e.tag, va := e.va
    body := .op o }

/-- Whether a context of the core in focus awaits the answer to an effect or request. -/
def awaits (s : State) (c : CtxNo) (eid : Nat) : Bool :=
  match (s.ctxAt c).pending with | none => false | some p => p.eid == eid

/-- One effect of a context of the core in focus sent on its way: to another package (R395), along a spray
tree, or on its route. more: a later effect of its group follows. Without a domain it is lost; an atomic then ends in
an ACCESS trap (R121, R353). -/
def sendEffect (c : CtxNo) (more : Bool) (s : State) (e : Effect) : State :=
  match e.pkg with
  | some p =>
    if s.podEn then { s with podOut := s.podOut ++ [podAccess s c e.eid e.va e.tag p e.op more] }
    else if awaits s c e.eid then abortWith (ackEffect s c e.eid) c .access true []
    else ackEffect s c e.eid
  | none =>
    match e.op with
    | .msg m =>
      if hSpray m then
        match sprayPaths s s.coreId m with
        | none => (ackEffect s c e.eid).report (.error s.coreId 327 (hId m).toNat)
        | some [] => ackEffect s c e.eid
        | some ls =>
          ls.foldl (fun t l => t.sendPkt { effPacket t c e (.core l.1) (.msg m) false with spray := true })
            (setCopies s c e.eid ls.length)
      else
        let r := codeMsg s.core (hDest m) m
        (s.modCore fun _ => r.2).sendPkt (effPacket s c e e.dst (.msg r.1) more)
    | o => s.sendPkt (effPacket s c e e.dst o more)

/-- Whether an effect is a spray message, which takes no route but its tree (R327). -/
def sprays (e : Effect) : Bool := match e.op with | .msg m => hSpray m | _ => false

/-- Whether two effects take one route (R342). -/
def oneRoute (a b : Effect) : Bool := decide (a.dst = b.dst) && decide (a.pkg = b.pkg) && !(sprays a) && !(sprays b)

/-- A group sent in order (R343). -/
def sendGroup (c : CtxNo) : List Effect → State → State
  | [], s => s
  | e :: es, s => sendGroup c es (sendEffect c (!es.isEmpty) s e)

/-- Whether an effect writes a fabric frame that another one releases, on another route: the release follows its
acknowledgement (R346). A fabric frame spans 16 KiB (R20). -/
def writesFrame (rel f : Effect) : Bool :=
  !(oneRoute rel f) && decide (rel.tag.space = f.tag.space) && decide (rel.va ≤ f.va ∧ f.va < rel.va + 0x4000) &&
    (match rel.dst, rel.pkg with | .core _, none => false | _, _ => true) &&
    (match f.op with | .store _ | .slot0 _ _ => true | _ => false)

/-- Whether an effect leaves only when an earlier one has been acknowledged: a SPAWN's message after its increments
(R23), a release after the writes of its frame (R346). -/
def follows (e f : Effect) : Bool :=
  match e.op with
  | .msg m => m.cap.isSome && f.ahead
  | .frameRel _ => writesFrame e f
  | _ => false

/-- Where a fabric atomic's location lies. -/
def atomicPlace (e : Effect) : Option LinePlace :=
  match e.op, e.pkg, e.dst with
  | .atomic _ _ a _ _, none, .chan _ => some ⟨none, e.tag, e.va, a⟩
  | .atomic _ _ _ _ _, some p, _ => some ⟨some p, e.tag, e.va, 0⟩
  | _, _, _ => none

/-- Whether an effect is a fabric atomic of whose location a line of the gather buffer still holds bytes: that drains
before it is sent (R119). -/
def drainsFirst (k : Core) (e : Effect) : Bool :=
  match atomicPlace e with
  | none => false
  | some p => k.gather.any (lineHolds p)

/-- Whether an effect may not leave yet (R23, R119, R325, R346), those before it that are not acknowledged given. -/
def effectWaits (k : Core) (before : List Effect) (e : Effect) : Bool :=
  before.any (follows e) || drainsFirst k e || (match e.dst, e.pkg with | .core d, none => samplerWaits k d | _, _ => false)

/-- The groups of a chunk (R343), each of one route and in order. DEDUCED (log entry 89): an effect that waits for an
acknowledgement begins a new group where an effect of the group before it is itself waited for, as R23 and R346 force;
else its group leaves with it. Unsafe. -/
def groupsOf (all : List Effect) : List (List Effect) → List Effect → List (List Effect)
  | acc, [] => acc
  | acc, e :: es =>
    let before := all.takeWhile fun f => !(f.eid == e.eid)
    let mates (g : List Effect) : Bool := match g with | [] => false | f :: _ => oneRoute f e
    match acc.reverse.findIdx? mates with
    | none => groupsOf all (acc ++ [[e]]) es
    | some i =>
      let n := acc.length - 1 - i
      let g := acc.getD n []
      if before.any (follows e) && g.any (fun f => all.any fun x => follows x f) then groupsOf all (acc ++ [[e]]) es
      else groupsOf all (acc.set n (g ++ [e])) es

/-- The groups that leave now: those of which no effect must wait, in order on each route (R318, R342). Effects on
other routes carry no order with those that wait. -/
def leaving (k : Core) (earlier chunk : List Effect) : List (List Effect) :=
  let unsent := chunk.filter fun e => !e.sent
  let held (e : Effect) : Bool := effectWaits k (earlier ++ chunk.takeWhile fun f => !(f.eid == e.eid)) e
  let pick (acc : List (List Effect) × List (List Effect)) (g : List Effect) : List (List Effect) × List (List Effect) :=
    let behind := acc.2.any fun h => match h, g with | a :: _, b :: _ => oneRoute a b | _, _ => false
    if behind || g.any held then (acc.1, acc.2 ++ [g]) else (acc.1 ++ [g], acc.2)
  ((groupsOf chunk [] unsent).foldl pick ([], [])).1

def markSent (s : State) (c : CtxNo) (es : List Effect) : State :=
  s.modCtxAt c fun x => { x with chunks := x.chunks.map fun k =>
    { k with effs := k.effs.map fun e => if es.any fun f => f.eid == e.eid then { e with sent := true } else e } }

/-- CHUNK_SEND (R23, R283, R318): of the oldest chunk that has not left whole, the groups that may leave; the lines
that a fabric atomic in it waits for begin their drains before (R119). -/
def tryChunkSend (c : CtxNo) (s : State) : Option State :=
  let x := s.ctxAt c
  let gone (k : Chunk) : Bool := k.effs.all Effect.sent
  match x.chunks.find? fun k => !(gone k) with
  | none => none
  | some k =>
    let ps := (k.effs.filter fun e => !e.sent).filterMap atomicPlace
    let first (l : GLine) : Bool := l.drain.isNone && ps.any fun p => lineHolds p l
    if s.core.gather.any first then some (settleAll (drainWhere s first)) else
    let gs := leaving s.core ((x.chunks.takeWhile gone).flatMap Chunk.effs) k.effs
    if gs.isEmpty then none else some (gs.foldl (fun t g => sendGroup c g t) (markSent s c gs.flatten))

/-! ### Replies (R107, R119, R161, R320) -/

/-- The 512th instruction since the last commit commits the open chunk (R283). -/
def implicitCommit (s : State) (c : CtxNo) : State :=
  if 512 ≤ (s.ctxAt c).sinceCommit then s.modCtxAt c commitCtx else s

/-- An instruction that ended with the answer it waited for counts like any other (R283). -/
def countDone (s : State) (c : CtxNo) : State :=
  implicitCommit (s.modCtxAt c fun x => { x with sinceCommit := x.sinceCommit + 1 }) c

/-- A load of a context goes on with the bytes of an answer (R107, R144): it is done, or asks the next
package for what it still misses. -/
def loadAnswer (s : State) (c : CtxNo) (bs : List Byte) : State :=
  let x := s.ctxAt c
  match x.pending with
  | none => s
  | some p =>
    let fwd := (p.pos.zip bs).foldl (fun (l : List (Option Byte)) q => l.set q.1 (some q.2)) p.fwd
    match p.more with
    | (pkg, ps) :: more =>
      if s.podEn then
        let t := { s with eids := s.eids + 1, podOut := s.podOut ++
          [podAccess s c s.eids ((ps.map Prod.snd).headD 0) (ctxTag x) pkg (.load (ps.map Prod.snd)) false] }
        t.modCtxAt c fun y => { y with pending := some ⟨s.eids, fwd, ps.map Prod.fst, more, p.dest⟩ }
      else abortWith s c .access true []
    | [] =>
      match p.dest with
      | .code va =>
        (s.modCtxAt c fun y => { y with pending := none, stall := none, asleep := false }).modCore fun k =>
          cacheLine k va x.gen (fwd.map fun b => b.getD 0)
      | d => countDone (s.modCtxAt c fun y => nextPc { putDest y d (fwd.map fun b => b.getD 0) with pending := none }) c

/-- f at the core a reply comes to. What the pricking waits for reaches it though its core is lost (R339, R351); what
a killed die supervisor sent, the package supervisor, which serves its die (R351). -/
def atSender (s : State) (p : Packet) (f : State → State) : State :=
  match p.route.dst with
  | .core c =>
    if !(s.coreAt c).killed || decide (p.who = .pricking) then s.onCore c f
    else if decide (p.who = .ni) && isSupervisor c && !(s.coreAt (supOf 0)).killed then s.onCore (supOf 0) f
    else s
  | .chan _ => s

/-- LOAD_REPLY (R107). -/
def takeLoadReply (p : Packet) (bs : List Byte) (s : State) : State :=
  match p.who with
  | .ctx c => if awaits s c p.eid then loadAnswer s c bs else s
  | _ => s

/-- ATOMIC_REPLY (R119, R367, R373): the old value; a stale frame; poison, which kills the core that waits for it, a
load's as well (R109). -/
def takeAtomicReply (p : Packet) (s : State) : State :=
  match p.who with
  | .ctx c =>
    let t := ackEffect s c p.eid
    if awaits s c p.eid then
      match p.body with
      | .atomicReply v =>
        t.modCtxAt c fun x =>
          match x.pending with
          | some q => nextPc { putDest x q.dest (leBytes 8 v.toNat) with pending := none }
          | none => x
      | .stale => abortCtx t c .staleGen
      | .poisoned => killCore t
      | _ => t
    else t
  | _ => s

/-- An increment of the pricking has been answered (R338). -/
def incDone (s : State) (eid : Nat) : State :=
  s.modDie (dieOf s.coreId) fun y => { y with incs := y.incs.filter fun e => !(e == eid) }

/-- ACKNOWLEDGEMENT (R161, R283, R338). -/
def takeAck (p : Packet) (s : State) : State :=
  match p.who with
  | .ctx c => ackEffect s c p.eid
  | .pricking => incDone s p.eid
  | .engine | .matrix | .ni => s

/-- A message of a supervisor that reaches no core: a record it restarted is discarded, with the cause and committed
flag of its earlier run (R351, R354); a core event or a boot load is lost. -/
def niLost (s : State) (leaf : CoreId) (m : Option Msg) : State :=
  match m with
  | none => s
  | some m =>
    match m.past with
    | some p => reportDiscard s leaf p.cause (hId m) p.committed
    | none => s.report (.discarded leaf none (hId m) false)

/-- ERROR_PACKET (R109, R121, R237, R272, R308, R320, R339). done: what it answers has been performed, which the fault
record says (R121). -/
def takeErr (p : Packet) (cause : BitVec 8) (m : Option Msg) (user : Option Word) (done : Bool) (s : State) : State :=
  match p.who with
  | .ctx c =>
    let w := awaits s c p.eid
    let t := ackEffect s c p.eid
    if w then abortAs t c .access true [] (some done) else t
  | .engine => s.report (.error s.coreId 272 cause.toNat)
  | .matrix => s.report (.error s.coreId 237 (user.getD 0).toNat)
  | .ni => niLost (s.report (.error s.coreId 320 cause.toNat)) (match p.route.src with | .core c => c | .chan _ => 0) m
  | .pricking =>
    match m.bind fun x => x.launch.map fun l => (l, hDest x) with
    | some (l, c) => startLost s l c
    | none => incDone s p.eid

/-- The failure block and the task it posts (R324). -/
def failurePost (s : State) (m : Msg) (cause : BitVec 8) (leaf : CoreId) (f : Option (CtxNo × Nat)) : Post :=
  { cls := 5, pri := none, entryIx := 254, arg := 0, src := s.coreId, msgid := hId m
    payload := leBytes 8 m.h0.toNat ++ leBytes 8 m.h1.toNat ++
      leBytes 16 (cause.toNat + m.tries * 2 ^ 8 + leaf.toNat * 2 ^ 16) ++ m.payload
    cap := m.cap, frees := f }

/-- The effect whose final outcome a post is, freed (R201). -/
def freeOutcome (s : State) (f : Option (CtxNo × Nat)) : State :=
  match f with
  | none => s
  | some (c, e) => ackEffect s c e

/-- A send failure at its core: posted, discarded, or waiting (R200, R202). -/
def postFailure (s : State) (p : Post) : State :=
  if s.core.posts.isEmpty then
    match tryPost s p with
    | some t => freeOutcome t p.frees
    | none => s.modCore fun k => { k with posts := [p] }
  else s.modCore fun k => { k with posts := k.posts ++ [p] }

/-- A request put among those to be sent again: the core's, what its sampler held back of its die's pricking among
them, in order (R325); or the pricking's (R201, R339), which goes on without the core. -/
def putResend (s : State) (x : Resend) : State :=
  if x.who = .pricking ∧ (x.samp = false ∨ s.core.killed = true) then s.modDie (dieOf s.coreId) fun y => { y with resend := y.resend ++ [x] }
  else s.modCore fun k => { k with resend := k.resend ++ [x] }

def rawOp : Op → Op
  | .msg m => .msg (rawMsg m)
  | o => o

/-- A message refused for good (R201, R323, R339). -/
def refusedMsg (p : Packet) (cause : BitVec 8) (leaf : CoreId) (m : Msg) (s : State) : State :=
  match p.who, m.launch with
  | .ctx c, _ => postFailure s (failurePost s m cause leaf (some (c, p.eid)))
  | .pricking, some l => startRefused s l leaf cause
  | .ni, _ => niLost s leaf (some m)
  | .engine, _ | .matrix, _ | .pricking, none => s.report (.discarded leaf none (hId m) true)

/-- NACK_RECEIPT (R201, R323, R325, R339). -/
def takeNack (p : Packet) (cause : BitVec 8) (o : Op) (s : State) : State :=
  let leaf : CoreId := match p.route.src with | .core c => c | .chan _ => 0
  if cause = 5 then
    (putResend s ⟨rawOp o, true, p.who, p.eid, leaf, p.more, p.tag, p.va, s.now⟩).modCore fun k => resetSampler k leaf
  else
    match o with
    | .msg m =>
      if cause = 2 && decide (m.tries < 17) then
        putResend s ⟨.msg { rawMsg m with tries := m.tries + 1 }, false, p.who, p.eid, leaf, false, p.tag, p.va, s.now + 512⟩
      else refusedMsg p cause leaf m s
    | _ => s

/-- What a reply names of the request it answers. -/
def bodyMsg : Body → Option Msg
  | .nack _ o => opMsg o
  | .err _ m _ => m
  | .op _ | .loadReply _ | .atomicReply _ | .stale | .poisoned | .ack => none

def bodyUser : Body → Option Word
  | .nack _ o => opUser o
  | .err _ _ u => u
  | .op _ | .loadReply _ | .atomicReply _ | .stale | .poisoned | .ack => none

/-- Whether a reply says that the access it answers has been performed: it brings what that read. -/
def bodyDone : Body → Bool
  | .loadReply _ | .atomicReply _ => true
  | .op _ | .nack _ _ | .err _ _ _ | .stale | .poisoned | .ack => false

/-- Whether replay holds back what a reply leads to: the walks of the releases of a start message refused for good
(R339, R350). -/
def replyHeld (s : State) (p : Packet) : Bool :=
  match p.who, p.body with
  | .pricking, .nack c (.msg m) =>
    decide (c ≠ 5 ∧ (c ≠ 2 ∨ 17 ≤ m.tries)) && (match m.launch with | some l => startHeld s l | none => false)
  | _, _ => false

/-- The reply at the head of a route taken by the core it comes to, if it is of a kind. DESIGN CHOICE (log entry 102):
where its own route has a link down, what the sender gets is an error packet with LINK_DOWN (R315, R353); the spec
names that outcome for a request. Unsafe. -/
def tryReply (kind : Body → Bool) (f : Packet → State → State) (r : Route) (s : State) : Option State :=
  match replyHead s r with
  | none => none
  | some (p, rest) =>
    let t : State := { s with net := rest }
    if !(kind p.body) || replyHeld t p then none
    else if pktDown s p then some (atSender t p (takeErr p 2 (bodyMsg p.body) (bodyUser p.body) (bodyDone p.body)))
    else some (atSender (crossed t p) p (f p))

def onReply (kind : Body → Bool) (f : Packet → State → State) (r : Route) (s : State) : Out :=
  .next ((tryReply kind f r s).getD s)

/-- A waiting request sent again by the core in focus: a message coded afresh; dr marks it DR, whatever it is (R201,
R325). It keeps its place in its group (R343). -/
def resendOne (dr : Bool) (s : State) (x : Resend) : State :=
  let r : Op × Core := match x.op with
    | .msg m =>
      let c := codeMsg s.core x.dst m
      (.msg (if dr then { c.1 with h0 := c.1.h0 ||| 0x4000 } else c.1), c.2)
    | o => (o, s.core)
  (s.modCore fun _ => r.2).sendPkt
    { route := ⟨.core s.coreId, .core x.dst⟩, who := x.who, eid := x.eid, more := x.more, spray := false
      tag := x.tag, va := x.va, body := .op r.1, dr := dr }

/-- What a sampler held back, sent again in its order, the first with DR (R325). -/
def resendAll (s : State) : List Resend → State
  | [] => s
  | x :: xs => xs.foldl (resendOne false) (resendOne true s x)

/-- Whether a sampler held a request back for a core. -/
def heldFor (dst : CoreId) (x : Resend) : Bool := x.samp && x.dst == dst

/-- What the sampler of the core in focus for another held back, sent again. -/
def resendHeld (s : State) (dst : CoreId) : State :=
  resendAll (s.modCore fun k => { k with resend := k.resend.filter fun x => !(heldFor dst x) }) (s.core.resend.filter (heldFor dst))

/-- The same of what the pricking of a die sends without its supervisor core, by that core's interface (R339, R351).
-/
def resendPricks (s : State) (d : BitVec 2) (dst : CoreId) : State :=
  resendAll (s.modDie d fun y => { y with resend := y.resend.filter fun x => !(heldFor dst x) }) ((s.die d).resend.filter (heldFor dst))

/-- NACK_RESEND (R201, R325, R339): entry n of the core in focus, or of its die's pricking after those, once its time
has come; each message coded afresh. -/
def tryResend (n : Nat) (s : State) : Option State :=
  match s.core.resend[n]? with
  | some x =>
    if x.samp then if samplerBusy s x.dst then none else some (resendHeld s x.dst)
    else if s.now < x.due || samplerWaits s.core x.dst then none
    else some (resendOne false (s.modCore fun k => { k with resend := k.resend.eraseIdx n }) x)
  | none =>
    let d := dieOf s.coreId
    let i := n - s.core.resend.length
    if s.coreId ≠ supOf d then none
    else
      match (s.die d).resend[i]? with
      | none => none
      | some x =>
        if x.samp then if samplerBusy s x.dst then none else some (resendPricks s d x.dst)
        else if s.now < x.due || samplerWaits s.core x.dst || (s.die d).resend.any (heldFor x.dst) then none
        else some (resendOne false (s.modDie d fun y => { y with resend := y.resend.eraseIdx i }) x)

/-! ### The events -/

def isMsgLt (n : Nat) : Op → Bool
  | .msg m => hLt m == n
  | _ => false

/-- A message for an entry: neither a landing, nor an append, nor a boot load. LT 8-15 is refused here. -/
def isTaskMsg : Op → Bool
  | .msg m => (hLt m == 0 && hEntry m != 252 && hEntry m != 253) || decide (8 ≤ hLt m)
  | _ => false

def isEntryMsg (e : BitVec 8) : Op → Bool
  | .msg m => hLt m == 0 && hEntry m == e
  | _ => false

/-- MESSAGE_ACCEPT (R200). -/
def execMessageAccept (r : Route) (s : State) : Out := onRequest isTaskMsg r s

/-- NACK_RECEIPT (R201). -/
def execNackReceipt (r : Route) (s : State) : Out :=
  onReply (fun b => match b with | .nack _ _ => true | _ => false)
    (fun p t => match p.body with | .nack c o => takeNack p c o t | _ => t) r s

/-- NACK_RESEND (R201). -/
def execNackResend (k : Nat) (s : State) : Out := .next ((tryResend k s).getD s)

/-- CHUNK_SEND (R318). -/
def execChunkSend (c : CtxNo) (s : State) : Out := .next ((tryChunkSend c s).getD s)

/-- REMOTE_LOAD (R344). -/
def execRemoteLoad (r : Route) (s : State) : Out :=
  onRequest (fun o => match o with | .load _ => true | _ => false) r s

/-- LOAD_REPLY (R107): the bytes, or an uncorrectable error, which kills the core (R109). -/
def execLoadReply (r : Route) (s : State) : Out :=
  onReply (fun b => match b with | .loadReply _ | .poisoned => true | _ => false)
    (fun p t => match p.body with | .loadReply bs => takeLoadReply p bs t | _ => takeAtomicReply p t) r s

/-- REMOTE_STORE (R343). -/
def execRemoteStore (r : Route) (s : State) : Out :=
  onRequest (fun o => match o with | .store _ | .slot0 _ _ => true | _ => false) r s

/-- REMOTE_ATOMIC (R117). -/
def execRemoteAtomic (r : Route) (s : State) : Out :=
  onRequest (fun o => match o with | .atomic _ _ _ _ _ => true | _ => false) r s

/-- ATOMIC_REPLY (R119). -/
def execAtomicReply (r : Route) (s : State) : Out :=
  onReply (fun b => match b with | .atomicReply _ | .stale | .poisoned => true | _ => false) takeAtomicReply r s

/-- ACKNOWLEDGEMENT (R283). -/
def execAcknowledgement (r : Route) (s : State) : Out :=
  onReply (fun b => match b with | .ack => true | _ => false) takeAck r s

/-- ERROR_PACKET (R320). -/
def execErrorPacket (r : Route) (s : State) : Out :=
  onReply (fun b => match b with | .err _ _ _ => true | _ => false)
    (fun p t => match p.body with | .err c m u => takeErr p c m u false t | _ => t) r s

/-- A receiver that discards a coded message drops its sampler for the source: it must not differ from the sender's,
which the message has changed (R319, R325; log entry 103). -/
def dropSampler (s : State) (p : Packet) : State :=
  match p.body, p.route.dst with
  | .op (.msg m), .core c =>
    if m.coded.isSome then
      s.onCore c fun t => t.modCore fun k => { k with rxSamp := k.rxSamp.filter fun y => !(y.peer == srcCore p) }
    else s
  | _, _ => s

/-- The number of the port a packet comes from: its core's id, or its channel's. -/
def sourceNo (p : Packet) : Nat := match p.route.src with | .core c => c.toNat | .chan n => portNo (.chan n)

/-- POISONED_PACKET (R319): the oldest packet on a route, of any class, is discarded whole, with an error record
naming its source, core or channel. -/
def execPoisonedPacket (r : Route) (s : State) : Out :=
  .next (match takeFirst (fun p => decide (p.route = r)) s.net with
    | none => s
    | some (p, rest) =>
      (dropSampler { s with net := rest } p).report
        (.error (match r.dst with | .core c => c | .chan _ => 0) 319 (sourceNo p)))

/-- The other direction of a link (R294, R313; log entry 23). -/
def linkBack (n : Nat) : Nat :=
  let q := n - 4 * 96 * 32
  let x := n / 4 % 96
  let y := n / 4 / 96
  if 4 * 96 * 32 ≤ n then 4 * 96 * 32 + 16 * (q / 16) + 4 * (q % 4) + q % 16 / 4
  else
    match n % 4 with
    | 0 => linkNo x (y - 1) 2
    | 1 => linkNo (x + 1) y 3
    | 2 => linkNo x (y + 1) 0
    | _ => linkNo (x - 1) y 1

/-- LINK_RETRY (R315): a flit fails once more; at 16 the link, which carries both directions (R313), is taken down. -/
def execLinkRetry (link : Nat) (s : State) : Out :=
  let n := tget 0 s.retries link + 1
  .next (if s.downLinks.contains link then s
    else if n < 16 then { s with retries := tput 0 s.retries link n }
    else
      let back := linkBack link
      ({ s with retries := tput 0 (tput 0 s.retries link 0) back 0, downLinks := link :: back :: s.downLinks } : State).report
        (.error 0 315 link))

/-- SEV_LATCH_WRITE (R162). -/
def execSevLatchWrite (r : Route) (s : State) : Out :=
  onRequest (fun o => match o with | .sev _ => true | _ => false) r s

/-- COUNTDOWN_DECREMENT (R159). -/
def execCountdownDecrement (r : Route) (s : State) : Out :=
  onRequest (fun o => match o with | .cdec _ _ _ => true | _ => false) r s

/-- FRAME_INCREMENT (R23). -/
def execFrameIncrement (r : Route) (s : State) : Out :=
  onRequest (fun o => match o with | .frameInc _ _ | .frameOwn _ => true | _ => false) r s

/-- FRAME_RELEASE (R24), and the retirement task a channel posts for one (R25). -/
def execFrameRelease (r : Route) (s : State) : Out :=
  onRequest (fun o => match o with | .frameRel _ | .retire _ _ => true | _ => false) r s

/-- LANDING_F32_ADD (R322). -/
def execLandingF32Add (r : Route) (s : State) : Out := onRequest (isMsgLt 1) r s

/-- LANDING_BF16_ACCUMULATE (R322). -/
def execLandingBf16Accumulate (r : Route) (s : State) : Out := onRequest (isMsgLt 2) r s

/-- LANDING_E4M3_WIDEN (R322). -/
def execLandingE4m3Widen (r : Route) (s : State) : Out := onRequest (isMsgLt 3) r s

/-- LANDING_STRIDED_SCATTER (R322). -/
def execLandingStridedScatter (r : Route) (s : State) : Out := onRequest (isMsgLt 4) r s

/-- LANDING_TRANSPOSE (R322). -/
def execLandingTranspose (r : Route) (s : State) : Out := onRequest (isMsgLt 5) r s

/-- LANDING_F32_MAX (R322). -/
def execLandingF32Max (r : Route) (s : State) : Out := onRequest (isMsgLt 6) r s

/-- LANDING_XOR (R322). -/
def execLandingXor (r : Route) (s : State) : Out := onRequest (isMsgLt 7) r s

/-- ENTRY_TABLE_WRITE (R199). -/
def execEntryTableWrite (r : Route) (s : State) : Out :=
  onRequest (fun o => match o with | .entries _ => true | _ => false) r s

/-- INSTRUCTION_STORE_WRITE (R195). -/
def execInstructionStoreWrite (r : Route) (s : State) : Out :=
  onRequest (fun o => match o with | .istore _ => true | _ => false) r s

/-- BOOT_LOAD (R358). -/
def execBootLoad (r : Route) (s : State) : Out := onRequest (isEntryMsg 252) r s

/-- PRICKING_APPEND (R332). -/
def execPrickingAppend (r : Route) (s : State) : Out := onRequest (isEntryMsg 253) r s

/-- SPRAY_TREE_WRITE (R327). -/
def execSprayTreeWrite (router : CoreId) (tree : BitVec 6) (mask : Option (BitVec 5)) (s : State) : Out :=
  let e : BitVec 6 := match mask with | none => 0 | some m => m.setWidth 6 ||| 0x20
  .next (s.modDie (dieOf router) fun y =>
    { y with trees := tput 0 y.trees ((router.toNat % 1024) * 64 + tree.toNat) e })

end Sys2Proof.Machine
end

