-- ==== Sys2Proof/Machine/Agents.lean ====
section
/-! DEFINITION. What happens at a core beside its instructions: dispatch and promotion (R12, R13, R189), the
watchdog (R18), the ends of contexts (R160), the supervisor's services (R28, R31, R168, R289, R351), layouts
(R193), the park slot and local posts (R200, R202), the gather buffer's timer (R285), banks (R204, R208,
R217, R222), barriers (R303, R305), loss and reset (R352, R357), trace rings (R349, R350). -/
namespace Sys2Proof.Machine

/-! ### Contexts -/

/-- A context that may issue (R187): one that waits for an answer, or at a queue whose cycles end that (R166), does
not. -/
def ready (x : Ctx) : Bool :=
  decide (x.phase = .running) && !x.asleep && x.pending.isNone && (match x.stall with | some (.queue _ _) => false | _ => true)

/-- The next ready context after the current one, in the order of R187. -/
def nextReady (k : Core) : Option CtxNo :=
  ([k.cur + 1, k.cur + 2, k.cur + 3] : List CtxNo).find? fun c => ready (k.ctxs[c.toNat]'(by have := c.isLt; omega))

/-- The next ready context has a try (R187): it becomes current if it issues. Where none is ready the current one
stays so, and its count starts again. -/
def rotate (s : State) : State :=
  match nextReady s.core with
  | some c => s.modCore fun k => { k with cur := c }
  | none => s.modCore fun k => { k with cur := k.turn, issued := 0 }

/-- Every context of the core in focus looks again at what it stalls on. -/
def wakeAll (s : State) : State :=
  s.modCore fun k => { k with ctxs := k.ctxs.map fun x => { x with asleep := false } }

/-- IMPLICIT_COMMIT (R283). -/
def execImplicitCommit (c : CtxNo) (s : State) : Out :=
  .next (if 512 ≤ (s.ctxAt c).sinceCommit then s.modCtxAt c commitCtx else s)

/-- ISSUE_QUANTUM_EXPIRY (R187). -/
def execIssueQuantumExpiry (s : State) : Out := .next (if 256 ≤ s.core.issued then rotate s else s)

/-- TASK_DISPATCH (R12, R14, R189). Without the package supervisor nothing is dispatched (R351). -/
def tryDispatch (s : State) : Option State :=
  if s.stopped || s.core.killed then none
  else
    match freeCtx s.core, nextRecord s.core with
    | some c, some (r, g) =>
      if replayHolds s (.scratch s.coreId) (activateSeen s c g) then none
      else some ((activate (s.modCore fun k => { k with inbox := k.inbox.erase r }) c r g).clockUpdate)
    | _, _ => none

/-- TASK_DISPATCH (R12). -/
def execTaskDispatch (s : State) : Out := .next ((tryDispatch s).getD s)

/-- RECORD_PROMOTION (R13) of record n, after 2^20 cycles of its core (R4). -/
def tryPromote (n : Nat) (s : State) : Option State :=
  match s.core.inbox[n]? with
  | none => none
  | some r =>
    if r.since + 2 ^ 20 ≤ s.cyc ∧ r.band ≠ 3 ∧ bandHeld s.core r.band = false then
      some (s.modCore fun k =>
        { k with inbox := k.inbox.set n { r with band := r.band + 1, since := s.cyc, front := 0 } }).clockUpdate
    else none

/-- RECORD_PROMOTION (R13). -/
def execRecordPromotion (k : Nat) (s : State) : Out := .next ((tryPromote k s).getD s)

/-- WATCHDOG_EXPIRY (R18). -/
def tryWatchdog (c : CtxNo) (s : State) : Option State :=
  let x := s.ctxAt c
  match x.task with
  | none => none
  | some t =>
    if x.phase = .running ∧ x.trapDue = none ∧ 2 ^ wdExp s.core t ≤ wdCount s.cyc x then
      some (strike (s.modCtxAt c fun y => { y with trapDue := some (.watchdog, false, []) }) c)
    else none

/-- WATCHDOG_EXPIRY (R18). -/
def execWatchdogExpiry (c : CtxNo) (s : State) : Out := .next ((tryWatchdog c s).getD s)

/-- CONTEXT_RELEASE (R160, R333): the hoop has drained; the ending of a launch task is reported. What an ending owes
its d0 frame comes first, once replay lets its read through (R350). -/
def tryRelease (c : CtxNo) (s : State) : Option State :=
  let x := s.ctxAt c
  if x.phase = .ending ∧ x.lvDue = true then
    if lvHeld s c then none else some (dropD0 (s.modCtxAt c fun y => { y with lvDue := false }) c).clockUpdate
  else if x.phase = .ending ∧ hoopQuiet x = true then
    let l := (x.task.bind fun t => t.launch).toList
    let t := s.modCtxAt c fun y => { wdStop s.cyc y with phase := .free, task := none, stall := none, asleep := false }
    some ((t.modCore fun k => { k with ends := k.ends ++ l }).clockUpdate)
  else none

/-- CONTEXT_RELEASE (R160). -/
def execContextRelease (c : CtxNo) (s : State) : Out := .next ((tryRelease c s).getD s)

/-! ### The supervisor's services -/

/-- The registers g10-g17 a service changes (R168). -/
def updG (upd : List (BitVec 3 × Word)) (x : Ctx) : Ctx :=
  upd.foldl (fun y u => Machine.setGC y (10 + u.1.setWidth 5) u.2 63) x

/-- A context resumes after the service of what it was suspended for (R28, R168): after a TRAP at PC + 4,
else with the instruction that faulted, its line of far code brought in (R197) or asked of its home package
(R395); it stays suspended while replay holds that read back (R350). The core's clock runs on (R385). -/
def resumeFrom (s : State) (c : CtxNo) (w : Suspend) (upd : List (BitVec 3 × Word)) : State :=
  let run (t : State) (f : Ctx → Ctx) : State :=
    (t.modCtxAt c fun y => wdStart t.cyc (f { y with phase := .running, stall := none, asleep := false })).clockUpdate
  match w with
  | .trap _ => run s fun y => nextPc (updG upd y)
  | .pageFault _ => run s id
  | .fetchMiss va =>
    let a := va.toNat / 64 * 64
    let pkg := homeOf a
    if pkg = s.pkgNo then
      match fillLine s c a with
      | none => s
      | some (.again t) => run t id
      | some (.trap t k n) => abortWith (run t id) c k n []
      | some (.lost t) => t
    else if s.podEn then
      let t := { s with eids := s.eids + 1, podOut := s.podOut ++
        [podAccess s c s.eids a (ctxTag (s.ctxAt c)) pkg (.load ((List.range 64).map fun i => a + i)) false] }
      run t fun y => { y with pending := some ⟨s.eids, List.replicate 64 none, List.range 64, [], .code a⟩ }
    else abortWith (run s id) c .access true []

/-- Whether a context is suspended for a fault on a page of a space. -/
def faultedOn (page : Nat) (space : BitVec 16) (x : Ctx) : Bool :=
  match x.phase with
  | .suspended (.pageFault w) => w.toNat / 65536 == page && decide (x.gen.extractLsb' 0 16 = space)
  | _ => false

/-- The contexts of the core in focus that are suspended for a fault on a page resume (R370). -/
def resumePage (page : Nat) (space : BitVec 16) (s : State) : State :=
  ([0, 1, 2, 3] : List CtxNo).foldl (fun t c =>
    if faultedOn page space (t.ctxAt c) then resumeFrom t c (.pageFault 0) [] else t) s

/-- The service of a suspended context: with a page fault, every context that faulted on the page resumes (R370;
log entry 77). -/
def serviced (s : State) (c : CtxNo) (w : Suspend) (upd : List (BitVec 3 × Word)) : State :=
  match w with
  | .pageFault va =>
    let f := resumePage (va.toNat / 65536) ((s.ctxAt c).gen.extractLsb' 0 16)
    s.others.foldl (fun t p => t.onCore (BitVec.ofNat 12 p.1) f) (f s)
  | .fetchMiss _ | .trap _ => resumeFrom s c w upd

/-- SUPERVISOR_RESUME (R28, R168). -/
def execSupervisorResume (c : CtxNo) (upd : List (BitVec 3 × Word)) (s : State) : Out :=
  .next (match (s.ctxAt c).phase with
    | .suspended w => serviced s c w upd
    | .free | .running | .ending | .leaving | .parked | .saved _ => s)

/-- The heads of a context leave their banks at a save (R219). -/
def releaseHolds (s : State) (c : CtxNo) : State :=
  ([0, 1, 2, 3] : List (BitVec 2)).foldl (fun t h =>
    let y := headAt (t.ctxAt c) h
    if y.bnd then t.modCore fun k => leaveBank s.cyc k (.head c h) y.bank else t) s

/-- What a save records of each context (R289). -/
def setSave (k : Core) (c : CtxNo) (y : Option Ctx) : Core :=
  { k with saves := k.saves.set c.toNat y (by have := c.isLt; omega) }

/-- CONTEXT_SAVE (R289): the open chunk commits; once every effect is acknowledged, and no line transfer or
realignment of the context is in progress at a bank, one that it has left included (R219), the context is recorded and
reported. -/
def trySave (c : CtxNo) (s : State) : Option State :=
  match (s.ctxAt c).phase with
  | .suspended w =>
    let t := s.modCtxAt c commitCtx
    let ports := s.core.banks.all fun e => decide (e.2.taken ≤ s.cyc) ||
      (match e.2.lastBy with | some (.head d _) => !(decide (d = c)) | _ => true)
    if hoopQuiet (t.ctxAt c) && (t.ctxAt c).pending.isNone && ports then
      let u := (releaseHolds t c).modCtxAt c fun y => { y with phase := .saved w }
      some ((u.modCore fun k => setSave k c (some (u.ctxAt c))).report (.saved s.coreId c))
    else some t
  | .free | .running | .ending | .leaving | .parked | .saved _ => none

/-- CONTEXT_SAVE (R289). -/
def execContextSave (c : CtxNo) (s : State) : Out := .next ((trySave c s).getD s)

/-- A head as a restore writes it (R219). -/
def restoredHead (y : Head) : Head := if y.bnd then { y with disp := true, busy := false } else y

/-- CONTEXT_RESTORE (R289): the recorded state is written again, whatever has reached the context since; an engine
fault that strikes its task stays due (R275). -/
def tryRestore (c : CtxNo) (s : State) : Option State :=
  match (s.ctxAt c).phase with
  | .saved w =>
    let r := (s.core.saves[c.toNat]'(by have := c.isLt; omega)).getD (s.ctxAt c)
    let t := (s.modCore fun k => setSave k c none).modCtxAt c fun y =>
      { r with h := r.h.map restoredHead, sinceCommit := 0, phase := .suspended w, trapDue := y.trapDue }
    some (resumeFrom t c w [])
  | .free | .running | .ending | .leaving | .parked | .suspended _ => none

/-- CONTEXT_RESTORE (R289). -/
def execContextRestore (c : CtxNo) (s : State) : Out := .next ((tryRestore c s).getD s)

/-- The record of a band that the supervisor decides on next: of those that a trap returned, the foremost (R31). -/
def trappedHead (k : Core) (b : BitVec 2) : Option Record :=
  bandHead { k with inbox := k.inbox.filter fun r => r.trapped.isSome } b

/-- A band is given free unless another record in it awaits its decision (R31). -/
def decideBand (k : Core) (b : BitVec 2) (now : Nat) : Core :=
  if k.inbox.any fun r => decide (r.band = b) && r.trapped.isSome then k else freeBand k b now

/-- BAND_RELEASE (R31, R351): once for a record whose committed flag is clear. -/
def tryBandRelease (b : BitVec 2) (s : State) : Option State :=
  match trappedHead s.core b with
  | none => none
  | some r =>
    match r.trapped with
    | some (_, false) =>
      if r.retried then none
      else
        let r1 := { r with trapped := none, retried := true }
        some ((s.modCore fun k => decideBand { k with inbox := k.inbox.map fun x => if x = r then r1 else x } b s.cyc).clockUpdate)
    | some (_, true) | none => none

/-- BAND_RELEASE (R31). -/
def execBandRelease (b : BitVec 2) (s : State) : Out := .next ((tryBandRelease b s).getD s)

/-- One reference kept with a discarded record released by its core's interface (R24, R31). -/
def releaseKept (s : State) (t : Tag) (d : Word) : State := counterOp s (dieOf s.coreId) s.coreId .ni t d .frameRel

/-- The references kept with a record. -/
def keptRefs (r : Record) : List Word :=
  match r.kept with
  | none => []
  | some (ds, h) => ([0, 1, 2] : List Nat).filterMap fun i => if h.getLsbD i then some (ds.toArray.getD i 0) else none

/-- The references kept with a record released. -/
def releaseAllKept (s : State) (r : Record) : State := (keptRefs r).foldl (fun t d => releaseKept t r.tag d) s

/-- RECORD_DISCARD (R31, R299, R333, R351): of a record whose committed flag is set, or that trapped again; none while
replay holds a walk that the release of its references needs (R350). -/
def tryDiscard (b : BitVec 2) (s : State) : Option State :=
  match trappedHead s.core b with
  | none => none
  | some r =>
    match r.trapped with
    | none => none
    | some (cause, com) =>
      if (com || r.retried) && (counterWalks s (dieOf s.coreId) r.tag (keptRefs r)).isSome then
        let s1 := s.modCore fun k => decideBand { k with inbox := k.inbox.erase r } b s.cyc
        let s2 := reportDiscard (releaseAllKept s1 r) s.coreId (some cause) r.msgid com
        let s3 := match r.launch with
          | none => s2
          | some l =>
            match l.exitB with
            | some x => signalArrival s2 (barNo ⟨.die, l.die.setWidth 10, x⟩) s.coreId
            | none => endTask s2 l.die l.id s.coreId
        some s3.clockUpdate
      else none

/-- RECORD_DISCARD (R31). -/
def execRecordDiscard (b : BitVec 2) (s : State) : Out := .next ((tryDiscard b s).getD s)

/-! ### Layouts, the park slot, local posts, the gather buffer -/

/-- A pending layout in force once its area is empty (R193). DESIGN CHOICE (log entry 112): a new frame area counts as
frame space freed (R12). Unsafe. -/
def applyArea (a : Area) (empty : Bool) : Option Area :=
  match a.pend with
  | none => none
  | some p => if empty then some { base := p.1, size := p.2, pend := none } else none

def tryFrameApply (s : State) : Option State :=
  (applyArea s.core.framecfg s.core.frames.isEmpty).map fun a => (s.modCore fun k => { k with framecfg := a, frameWait := false }).clockUpdate

def tryInboxApply (s : State) : Option State :=
  (applyArea s.core.inboxcfg (recPlaces s.core).isEmpty).map fun a => s.modCore fun k => { k with inboxcfg := a }

/-- FRAMECFG_APPLY (R193). -/
def execFramecfgApply (s : State) : Out := .next ((tryFrameApply s).getD s)

/-- INBOXCFG_APPLY (R193). -/
def execInboxcfgApply (s : State) : Out := .next ((tryInboxApply s).getD s)

/-- PARK_TIMEOUT (R202): 2,048 router cycles. -/
def tryParkTimeout (s : State) : Option State :=
  match s.core.park with
  | none => none
  | some (m, p, t) =>
    if t + 4096 ≤ s.now then some (replyTo (s.modCore fun k => { k with park := none }) p (.nack 1 (.msg m))) else none

/-- PARK_TIMEOUT (R202). -/
def execParkTimeout (s : State) : Out := .next ((tryParkTimeout s).getD s)

/-- LOCAL_POST_ACCEPT (R200). -/
def tryLocalPost (s : State) : Option State :=
  match s.core.posts with
  | [] => none
  | p :: rest =>
    match tryPost (s.modCore fun k => { k with posts := rest }) p with
    | none => none
    | some t => some (freeOutcome t p.frees).clockUpdate

/-- LOCAL_POST_ACCEPT (R200). -/
def execLocalPostAccept (s : State) : Out := .next ((tryLocalPost s).getD s)

/-- GATHER_DRAIN_TIMEOUT (R285): the open line n, 512 router cycles after its last write. -/
def tryGatherTimeout (n : Nat) (s : State) : Option State :=
  match s.core.gather[n]? with
  | none => none
  | some l => if l.drain.isNone && decide (l.last + 1024 ≤ s.now) then some (settleAll (drainLine s n)) else none

/-- A drain that replay held back is performed once it may be (R285, R350). -/
def tryHeldDrain (s : State) : Option State :=
  ((List.range s.core.gather.length).find? fun n =>
    match s.core.gather[n]? with
    | some l => decide (l.drain = some 0) && !(drainHeld s n l)
    | none => false).map fun n => settleAll (drainLine s n)

/-- GATHER_DRAIN_TIMEOUT (R285). -/
def execGatherDrainTimeout (k : Nat) (s : State) : Out := .next ((tryGatherTimeout k s).getD s)

/-! ### Banks -/

/-- HEAD_CLAIM_GRANT (R208). -/
def execHeadClaimGrant (bank : BitVec 8) (s : State) : Out := .next ((tryGrant bank s).getD s)

/-- The cycle in which a rewind is over: its steps, at most 264, and 4 more (R217). -/
def rewindOver (b : Bank) : Nat := b.began + (if 0 ≤ b.track then b.track.toNat else 264) + 4

/-- A rewind ends (R217): position 0 under the port, and the RWD that waits for it is done; without the mark it is a
track fault. It is over as core cycle n begins. DESIGN CHOICE (log entry 86): without the mark the counted position
and the tracks stand where the rewind began; R217 does not say. Unsafe. -/
def rewindEnds (n : Nat) (s : State) (bank : BitVec 8) (c : CtxNo) (h : BitVec 2) : State :=
  let b := bankAt s.core bank
  let waits := (s.ctxAt c).phase = .running ∧ (s.ctxAt c).stall = some (.head h)
  if 0 ≤ b.track then
    let t := s.modCore fun k => setBank k bank fun x =>
      { x with counted := 0, track := 0, moving := none, rewind := false, idle := n }
    let u := modHead t (.head c h) fun y => { y with pos := 0, busy := false }
    if waits then countDone (u.modCtxAt c nextPc) c else u
  else
    let t := s.modCore fun k => setBank k bank fun x => { x with moving := none, rewind := false, idle := n }
    if waits then (abortWith t c .track false [bank.toNat, (headAt (s.ctxAt c) h).pos.toNat]).clockUpdate
    else modHead t (.head c h) fun y => { y with busy := false }

/-- A bank reaches the position it moves to, or its rewind is over, as core cycle n begins (R204, R217). -/
def alignAt (n : Nat) (bank : BitVec 8) (s : State) : Option State :=
  let b := bankAt s.core bank
  match b.moving, b.holder with
  | some p, some w =>
    match b.rewind, w with
    | true, .head c h => if rewindOver b ≤ n then some (rewindEnds n s bank c h) else none
    | _, _ => if reached n b = p then some (arriveAt n s bank) else none
  | _, _ => none

/-- BANK_ALIGNED (R204, R217); the clock of its core runs (R375). -/
def tryAligned (bank : BitVec 8) (s : State) : Option State :=
  if !(enginesRun s.core) then none else alignAt s.cyc bank s

/-- BANK_ALIGNED (R204). -/
def execBankAligned (bank : BitVec 8) (s : State) : Out := .next ((tryAligned bank s).getD s)

/-- The first core cycle, from n on, as which begins something of a bank falls due: its motion or rewind ends (R204,
R217), or the best of the claims on it is granted (R208). -/
def bankNext (s : State) (bank : BitVec 8) (n : Nat) : Option Nat :=
  let b := bankAt s.core bank
  match b.moving, b.holder with
  | some p, some o =>
    let last := if b.rewind then rewindOver b
      else b.began + (if b.counted ≤ p then p.toNat - b.counted.toNat else b.counted.toNat - p.toNat)
    let endsAt := max n last
    match bestClaim s.core b.claims with
    | some (w, _) =>
      if !b.rewind && decide (levelOf s.core o < levelOf s.core w) then some (min endsAt (max n (max b.taken b.granted))) else some endsAt
    | none => some endsAt
  | _, h =>
    (bestClaim s.core b.claims).bind fun w =>
      let free := max n b.taken
      match h with
      | none => some free
      | some o =>
        let lo := levelOf s.core o
        let lw := levelOf s.core w.1
        let next := max free b.granted
        if lo ≤ lw then some next else if waitsFor s o then none else some (max next (b.idle + 16))

/-- What falls due at a bank of the core in focus from core cycle n to n1, each in its cycle: at most one claim is
granted at a boundary (R204, R208, R217). -/
def bankRun (bank : BitVec 8) (n1 : Nat) : Nat → Nat → State → State
  | 0, _, s => s
  | fuel + 1, n, s =>
    match bankNext s bank n with
    | none => s
    | some m =>
      if n1 < m then s
      else
        let t := (alignAt m bank s).getD s
        bankRun bank n1 fuel (m + 1) ((grantAt bank m t).getD t)

/-- Whether a bank of a core moves or is claimed. -/
def banksLive (k : Core) : Bool := !k.killed && k.banks.any fun e => e.2.moving.isSome || !e.2.claims.isEmpty

/-- What falls due at the banks of the core in focus in the cycles after its cycle c0 (R204, R208, R217). -/
def bankCycles (c0 : Nat) (s : State) : State :=
  if banksLive s.core then (s.core.banks.map Prod.fst).foldl (fun t b => bankRun (BitVec.ofNat 8 b) s.cyc (s.cyc - c0) (c0 + 1) t) s
  else s

/-- TRACK_REMAP (R222, R351): the lowest free spare stands in for the bank, copying no line; with none left the bank
is marked failed. The shifts the bank has made by then have fired an over-shift (R224). DESIGN CHOICE (log entry 42):
a head keeps its hold and the claims stand; the spare moves from position 0 to the holder's POS at once, and a rewind
that ran is made again by its RWD. R222 does not say. Unsafe. -/
def remapBank (bank : BitVec 8) (s : State) : State :=
  let k := s.core
  match ([0, 1, 2, 3, 4, 5, 6, 7] : List Nat).find? fun i => k.spares.getLsbD i with
  | none => s.modCore fun k => setBank k bank fun x => { x with failed := true }
  | some i =>
    let t := (arrive s bank).modCore fun k0 =>
      let k := moveBank s.cyc k0 bank
      { setBank k bank fun x => { x with counted := 0, track := 0, moving := none, rewind := false, spare := some (BitVec.ofNat 4 i) } with
        spares := k.spares &&& ~~~(1#8 <<< i) }
    match (bankAt t.core bank).holder with
    | none => t
    | some w => steer t w (t.cyc + 1)

/-- TRACK_REMAP (R222). -/
def execTrackRemap (bank : BitVec 8) (s : State) : Out := .next (remapBank bank s)

/-! ### Barriers -/

/-- BARRIER_COMPLETION (R305). -/
def execBarrierCompletion (b : BarKey) (s : State) : Out := .next ((tryCompletion s (barNo b)).getD s)

/-- The reduction registers of a pod barrier written (R400). -/
def writeRed (s : State) (n : BarNo) (red : Option (Word × Word × Word)) : State :=
  match red with
  | none => s
  | some (cfg, src, res) =>
    if barScope n = 3 then
      let r : PodRed := { lt := cfg.extractLsb' 0 4, tag := cfg.extractLsb' 16 24, src := src, res := res, acc := none }
      { s with reds := tput PodRed.reset s.reds (barId n) r }
    else s

/-- A write of a barrier's masks and control word, or its refusal (R303, R399). -/
def writeBarrier (s : State) (n : BarNo) (cfg : BarCfg) : State :=
  let b := s.bar n
  let shed := cfg.ctl.getLsbD 1
  let exitb := cfg.ctl.getLsbD 5
  if !b.came.isEmpty || !b.podCame.isEmpty || (shed && exitb) || (shed && barScope n == 3) then s
  else
    let b1 : Barrier := { b with
      en := cfg.ctl.getLsbD 0, shed := shed, pclass := cfg.ctl.extractLsb' 2 3, exitb := exitb, held := false
      cmask := cfg.cmask, qmask := cfg.qmask, dmask := cfg.dmask, pmask := cfg.pmask, told := false, podCame := [], emptied := false }
    writeRed (s.setBar n b1) n cfg.red

/-- BARRIER_CONFIG_WRITE (R303). -/
def execBarrierConfigWrite (b : BarKey) (cfg : BarCfg) (s : State) : Out := .next (writeBarrier s (barNo b) cfg)

/-! ### Loss and reset -/

/-- CORE_KILL (R352). -/
def execCoreKill (s : State) : Out := .next (killCore s)

/-- The outputs of a router in the spray tree of its die (R357): along the supervisor's row both ways, from there
along the columns, and to every visible core (bits as R327 in log entry 23). -/
def bootMask (d x y : Nat) : BitVec 6 :=
  let root := supOf (BitVec.ofNat 2 d)
  let sx := nfld root.toNat 0 5
  let sy := nfld root.toNat 5 5
  let c : CoreId := BitVec.ofNat 12 (1024 * d + 32 * y + x)
  BitVec.ofNat 6 (b2n (decide (0 < y ∧ y ≤ sy)) + b2n (decide (y = sy ∧ sx ≤ x ∧ x < 31)) * 2 +
    b2n (decide (sy ≤ y ∧ y < 31)) * 4 + b2n (decide (y = sy ∧ x ≤ sx ∧ 0 < x)) * 8 + b2n (visible c) * 16 + 32)

/-- Tree 0 of a die as its supervisor programs it at boot (R357; log entry 59). -/
def bootTree (d : Nat) : Table (BitVec 6) := (List.range 1024).map fun i => (64 * i, bootMask d (i % 32) (i / 32))

/-- That tree beside those already there. -/
def plantTree (d : Nat) (l : Table (BitVec 6)) : Table (BitVec 6) :=
  if l.isEmpty then bootTree d else (bootTree d).foldl (fun t e => tput 0 t e.1 e.2) l

/-- What the discovery packet finds of a die (R357). -/
def discover (s : State) (d : Nat) : DieMap :=
  let mine : List (CoreId × BitVec 8) :=
    ((s.coreId, s.core.spares) :: s.others.map fun p => (BitVec.ofNat 12 p.1, p.2.spares)).filter fun p =>
      decide (p.1.toNat / 1024 = d)
  { fuses := Config.fusedOff.filter fun c => decide (c.toNat / 1024 = d), spares := mine.filter fun p => !(p.2 == 0xFF) }

/-- The supervisors run, or are lost. -/
def supervised (s : State) : Bool :=
  ([0, 1, 2] : List (BitVec 2)).all fun d => s.started.contains (supOf d) || (s.coreAt (supOf d)).killed

/-- Boot moves on (R357). Step 2: core 0x000 starts from ROM as the package supervisor and collects the maps; step 3
goes on with a host's image and the boot loads that start the other supervisors, both from outside (log entry 59).
Steps 4 and 5: the cores' numbers stand, TOPOEV is 0, every die has its spray tree, and messages are accepted. -/
def tryBoot (s : State) : Option State :=
  if s.booted then none
  else
    match s.bootAt with
    | .routers => some { s with bootAt := .rom, maps := [0, 1, 2].map (discover s), started := [supOf 0] }
    | .rom => none
    | .image =>
      if supervised s then
        some { s with booted := true, topoev := 0, dies := s.dies.mapFinIdx fun i y _ => { y with trees := plantTree i y.trees } }
      else none

/-- PACKAGE_RESET (R357): everything as reset leaves it; the model's own counters and what it is to do next go
on. -/
def execPackageReset (s : State) : Out :=
  .next { State.reset with eids := s.eids, free := s.free, agenda := s.agenda }

/-! ### Trace rings (R349, R350) -/

/-- A ring written through the debug port: its control bits, and entries to replay where some are given. -/
def writeRing (now : Nat) (r : Ring) (x : Word) (es : List (BitVec 128)) : Ring :=
  let l := if es.isEmpty then r.log else es.take 256
  { en := x.getLsbD 0, stop := x.getLsbD 1, onlyrem := x.getLsbD 2, replay := x.getLsbD 3 && !l.isEmpty
    left := if r.replay && es.isEmpty then r.left else l.length
    lost := r.lost && !(x.getLsbD 4), head := if es.isEmpty then r.head else BitVec.ofNat 8 l.length, log := l
    since := now }

/-- TRACE_RING_CONTROL_WRITE (R349). -/
def execTraceRingControlWrite (p : PortKey) (x : Word) (entries : List (BitVec 128)) (s : State) : Out :=
  .next { s with rings := tmod Ring.reset s.rings (portNo p) fun r => writeRing s.now r x entries }

/-- TRACE_REPLAY_TIMEOUT (R350): 2^16 router cycles without a match. -/
def tryReplayTimeout (p : PortKey) (s : State) : Option State :=
  let r := tget Ring.reset s.rings (portNo p)
  if r.replay && decide (r.since + 2 ^ 17 ≤ s.now) then
    some (({ s with rings := tput Ring.reset s.rings (portNo p) { r with replay := false, lost := true, since := s.now } } : State).report
      (.error 0 350 (portNo p)))
  else none

/-- TRACE_REPLAY_TIMEOUT (R350). -/
def execTraceReplayTimeout (p : PortKey) (s : State) : Out := .next ((tryReplayTimeout p s).getD s)

end Sys2Proof.Machine
end

