-- ==== Sys2Proof/Machine/Branch.lean ====
section
/-! DEFINITION. Branches and jumps (R100-R104). A fault at a target is taken when the target is fetched
(R102). -/
namespace Sys2Proof.Machine

/-- Taken: PC + 4 * sext(disp); otherwise PC + 4 (R36, R100). -/
def branchIf (t : Bool) {n : Nat} (x : BitVec n) (s : State) : Out :=
  if t then .next (s.jump (branchTo s.ctx.pc x)) else done s

/-- BEQ (R100). -/
def execBeq (a b : Reg) (x : BitVec 16) (s : State) : Out := branchIf (s.gr a == s.gr b) x s

/-- BNE (R100). -/
def execBne (a b : Reg) (x : BitVec 16) (s : State) : Out := branchIf (s.gr a != s.gr b) x s

/-- BLT (R100). -/
def execBlt (a b : Reg) (x : BitVec 16) (s : State) : Out := branchIf ((s.gr a).slt (s.gr b)) x s

/-- BGE (R100). -/
def execBge (a b : Reg) (x : BitVec 16) (s : State) : Out := branchIf (!((s.gr a).slt (s.gr b))) x s

/-- BLTU (R100). -/
def execBltu (a b : Reg) (x : BitVec 16) (s : State) : Out := branchIf ((s.gr a).ult (s.gr b)) x s

/-- BGEU (R100). -/
def execBgeu (a b : Reg) (x : BitVec 16) (s : State) : Out := branchIf (!((s.gr a).ult (s.gr b))) x s

/-- JAL (R101): the link goes to g1. -/
def execJal (x : BitVec 26) (s : State) : Out :=
  .next ((s.setG 1 (s.ctx.pc + 4)).jump (branchTo s.ctx.pc x))

/-- JALR (R101): a target that is no multiple of 4 takes ALIGN with gd unwritten. -/
def execJalr (d a : Reg) (i : BitVec 16) (s : State) : Out :=
  let t := s.gr a + sext16 i
  if t.toNat % 4 ≠ 0 then trapOut s .align else .next ((s.setG d (s.ctx.pc + 4)).jump t)

/-- BSIG (R103): the count of ga as held. -/
def execBsig (a : Reg) (t : BitVec 6) (x : BitVec 15) (s : State) : Out :=
  branchIf (decide (s.grc a < t)) x s

/-- Bits [63:0] of a vector register (R104). -/
def maskWord (s : State) (v : Reg) : Word := (s.vr v).extractLsb' 0 64

/-- BMASK_NONE (R104). -/
def execBmaskNone (v : Reg) (x : BitVec 18) (s : State) : Out := branchIf (maskWord s v == 0) x s

/-- BMASK_ANY (R104). -/
def execBmaskAny (v : Reg) (x : BitVec 18) (s : State) : Out := branchIf (maskWord s v != 0) x s

/-- BMASK_ALL (R104). -/
def execBmaskAll (v : Reg) (x : BitVec 18) (s : State) : Out := branchIf (maskWord s v == BitVec.allOnes 64) x s

/-- BMASK_NONEC (R104). -/
def execBmaskNonec (v : Reg) (x : BitVec 18) (s : State) : Out := branchIf (maskWord s v == BitVec.allOnes 64) x s

/-- BMASK_ANYC (R104). -/
def execBmaskAnyc (v : Reg) (x : BitVec 18) (s : State) : Out := branchIf (maskWord s v != BitVec.allOnes 64) x s

/-- BMASK_ALLC (R104). -/
def execBmaskAllc (v : Reg) (x : BitVec 18) (s : State) : Out := branchIf (maskWord s v == 0) x s

end Sys2Proof.Machine
end

