-- ==== Sys2Proof/Machine/Mem.lean ====
section
/-! DEFINITION. Events at the memory channels: codewords read, scrubbed and written (R362-R368), the
registers of ranks, frames and roots (R365, R369, R372), a walk (R370). -/
namespace Sys2Proof.Machine

/-- The codeword an address of a channel's configuration names (log entry 48): a half of a line's slot; past the
memory, block by block, the metadata of the channels in turn, then the frame tags. -/
def codewordAt (pa : Nat) : Codeword :=
  let n := (pa - memTop) / 64
  if pa < memTop then .half (pa / 64)
  else if n < 24 * 2 ^ 22 then .codes (n % 24) (n / 24)
  else .tags (n - 24 * 2 ^ 22)

/-- A codeword written as poison (R364, R366): the bytes in it are lost. -/
def cwSpoil (s : State) (w : Codeword) : State :=
  let t := setErrs s w []
  match w with
  | .half h => (halvesIn s h).foldl (fun u d => u.setPoison d true) t
  | w => if t.badWords.contains w then t else { t with badWords := w :: t.badWords }

/-- A correction counted at the rank of a codeword (R364, R365). -/
def cwCount (s : State) (w : Codeword) (errs : List (BitVec 7)) : State :=
  setErasure s (cwRank w) (countCorrected (erasureOf s (cwRank w)) errs)

/-- The symbols of a codeword in error when it is read: those it holds already and those found now. -/
def allErrs (s : State) (w : Codeword) (errs : List (BitVec 7)) : List (BitVec 7) := symbolsOf (cwErrs s w ++ errs)

/-- MEMORY_LINE_READ (R364, R367): a codeword found with errors at the listed symbols, beside those it holds. Where it
decodes it is counted; else it reads as poison until it is written, or marks let it decode. -/
def readLineErrs (pa : Nat) (errs : List (BitVec 7)) (s : State) : State :=
  let w := codewordAt pa
  let all := allErrs s w errs
  let t := setErrs s w all
  if decodes (erasureOf s (cwRank w)) all && !(cwPoison s w) then cwCount t w all else t

/-- An access at the channel of a physical address that no packet brings, logged or held by replay (R349, R350).
DESIGN CHOICE (log entry 114): a ring sees it with agent 7, a frame tag's write as a store from the supervisor of the
channel's die, a scrub as a load and a write of a line as a store from source 0, under its physical address, for it
has no other. Unsafe. -/
def seenHere (s : State) (pa kind : Nat) (src : CoreId) : Option State :=
  seenAt s (.chan (BitVec.ofNat 5 (chanOf pa))) ⟨src, 7, kind, false, pa, false⟩

/-- The lines of a write, each one access at its channel (R366). -/
def seenLines (s : State) (cs : List Host.Cell) : Option State :=
  (linesOf cs).foldl (fun t l => t.bind fun u => seenHere u (128 * l) 1 0) (some s)

/-- The channel whose configuration an address of codewordAt names, by an address of that channel. -/
def scrubAddr (pa : Nat) : Nat :=
  match codewordAt pa with
  | .half h => 64 * h
  | .codes c _ => 256 * c
  | .tags n => 2 ^ 20 * n

/-- PATROL_SCRUB (R368): corrected data rewritten; an uncorrectable codeword rewritten as poison, with an
error record. -/
def scrub (pa : Nat) (errs : List (BitVec 7)) (s : State) : State :=
  let w := codewordAt pa
  let all := allErrs s w errs
  if decodes (erasureOf s (cwRank w)) all && !(cwPoison s w) then cwCount (setErrs s w []) w all
  else (cwSpoil s w).report (.error 0 368 pa)

/-- MEMORY_LINE_WRITE (R366): nothing while replay holds it (R350). -/
def execMemoryLineWrite (pa : Nat) (bytes : List Byte) (s : State) : Out :=
  let cs := (cellsAt pa bytes).filter fun c => decide (c.1 < memTop)
  .next (match seenLines s cs with | none => s | some t => chanWrite t cs)

/-- MEMORY_LINE_READ (R367). -/
def execMemoryLineRead (pa : Nat) (errs : List (BitVec 7)) (s : State) : Out := .next (readLineErrs pa errs s)

/-- PATROL_SCRUB (R368), one access at the channel: nothing while replay holds it (R350). -/
def execPatrolScrub (pa : Nat) (errs : List (BitVec 7)) (s : State) : Out :=
  .next (match seenHere s (scrubAddr pa) 0 0 with | none => s | some t => scrub pa errs t)

/-- ERASURE_REGISTER_WRITE (R365): CECNT is cleared bit by bit, LASTPOS is not written. -/
def execErasureRegisterWrite (rank : BitVec 6) (x : Word) (s : State) : Out :=
  let e := erasureOf s rank.toNat
  .next (setErasure s rank.toNat { e with marks := x.extractLsb' 0 32, cecnt := e.cecnt &&& ~~~(x.extractLsb' 32 16) })

/-- FRAME_TAG_WRITE (R372), one access at the frame's channel: nothing while replay holds it (R350). -/
def execFrameTagWrite (frame : BitVec 25) (x : Word) (s : State) : Out :=
  let pa := 65536 * frame.toNat
  .next (match seenHere s pa 1 (supOf (BitVec.ofNat 2 (chanOf pa / 8))) with
    | none => s
    | some t => { t with ftags := tput 0 t.ftags frame.toNat (x.extractLsb' 0 26) })

/-- ROOT_TABLE_WRITE (R369). -/
def execRootTableWrite (die : BitVec 2) (space : BitVec 16) (x : Word) (s : State) : Out :=
  .next (s.modDie die fun y => { y with roots := tput 0 y.roots space.toNat x })

/-- PAGE_WALK (R370): for an access of the current context. -/
def execPageWalk (va : Word) (acc : Access) (s : State) : Out :=
  .next (if homeOf va.toNat = s.pkgNo ∧ va.toNat < 2 ^ 56 then (translateHere s (ctxTag s.ctx) acc va.toNat).2 else s)

end Sys2Proof.Machine
end

