-- ==== Sys2Proof/Machine/Power.lean ====
section
/-! DEFINITION. The power controller (24): telemetry and the target (R378, R382), shedding, the comparator
and restoring (R384-R387), its registers (R379-R381), the thermal trip (R377), its firmware (R388). Times in
cycles of 4 GHz. -/
namespace Sys2Proof.Machine

def usTicks (n : Nat) : Nat := 4000 * n
def msTicks (n : Nat) : Nat := 4000000 * n

def State.modPower (s : State) (f : Power → Power) : State := { s with power := f s.power }

/-! ### Curves and the target (R382) -/

/-- frac(K, x). -/
def fracAt (k : Vector (BitVec 32 × BitVec 11) 16) (x : Int) : Int :=
  let dev (i : Nat) : Int := sgn 32 ((k.toArray.getD i (0, 0)).1.toNat)
  let fr (i : Nat) : Int := (k.toArray.getD i (0, 0)).2.toNat
  if x ≤ dev 0 then fr 0
  else if dev 15 ≤ x then fr 15
  else
    let i := ((List.range 15).filter fun j => decide (dev j ≤ x)).foldl max 0
    fr i + ((x - dev i) * (fr (i + 1) - fr i)).fdiv (dev (i + 1) - dev i)

/-- TARGET from the two fractions and the cap in force. -/
def targetOf (p : Power) (fv ff : Int) : BitVec 16 :=
  BitVec.ofInt 16 (((p.capForce.toNat : Int) * min fv ff) / 1024)

/-! ### The estimate (R383) -/

def shareOf (p : Power) (c : Nat) : Nat := match p.shares with | none => 0 | some (_, v) => v.toArray.getD c 0
def isShed (p : Power) (c : Nat) : Bool := p.shed.getLsbD c

def powerEstimate (p : Power) : Nat :=
  match p.shares with
  | none => 0
  | some (base, _) => base + ((List.range 8).map fun c => if isShed p c then 0 else shareOf p c).sum

/-! ### Shedding (R384) -/

/-- The regions marked withheld when a class is shed: those above 1/16 of TARGET in the last window. -/
def withholdRegions (s : State) : State :=
  let hot (d r : Nat) : Bool := decide (s.power.target.toNat < 16 * s.power.regions.toArray.getD (16 * d + r) 0)
  let mask (d : Nat) : BitVec 16 := (List.range 16).foldl (fun m r => if hot d r then m ||| (1#16 <<< r) else m) 0
  ([0, 1, 2] : List (BitVec 2)).foldl (fun t d => t.modDie d fun y => { y with withheld := y.withheld ||| mask d.toNat }) s

/-- A class shed: its mark, its share, the regions, the events (R383, R384). -/
def shedClass (s : State) (c : Nat) : State :=
  let t := s.modPower fun p =>
    { p with shed := p.shed ||| (1#8 <<< c), sl := p.sl.setIfInBounds c (shareOf p c)
             shedAt := p.shedAt.setIfInBounds c s.now, restoreAt := none }
  powerEvents (withholdRegions t) 2 (BitVec.ofNat 3 c) 0

/-- The rule of R384 from class n downward. -/
def shedDown : Nat → State → State
  | 0, s => s
  | n + 1, s =>
    if s.power.target.toNat < powerEstimate s.power then
      shedDown n (if isShed s.power (n + 1) then s else shedClass s (n + 1))
    else s

/-- R384: nothing is shed before the first window closes, nor while the firmware has failed (R383, R388). -/
def applyShed (s : State) : State :=
  if s.power.shares.isNone || s.power.fwfail then s else shedDown 7 s

/-! ### Frames (R378, R386, R387) -/

/-- Whether a frame is missing now: none valid within 40 us (R378). -/
def frameMissing (s : State) : Bool := decide (s.power.lastFrame + usTicks 40 < s.now)

/-- The counts of 20 ms start again at a missing frame (R378, R386, R387). -/
def restartCounts (s : State) : State := s.modPower fun p => { p with restoreAt := none, holdAt := none }

/-- The comparator at a valid frame (R387). -/
def comparator (s : State) (vbus : Nat) : State :=
  if vbus < s.power.vfloor.toNat then
    let t := s.modPower fun p => { p with hwhold := 0xFE, holdAt := none }
    (List.range 7).foldl (fun u i => if isShed u.power (7 - i) then u else shedClass u (7 - i)) t
  else s.modPower fun p => { p with holdAt := some (p.holdAt.getD s.now) }

/-- The lowest shed class. -/
def lowestShed (p : Power) : Option Nat := (List.range 8).find? fun c => isShed p c

/-- Whether a frame counts toward the restoring of the lowest shed class (R386). -/
def restoreOk (p : Power) : Bool :=
  match lowestShed p with
  | none => false
  | some k =>
    !(p.hwhold.getLsbD k) &&
      decide (powerEstimate p + p.sl.toArray.getD k 0 + p.capForce.toNat * 2 / 100 ≤ p.target.toNat)

/-- A valid frame (R378, R381, R382, R384, R386, R387): one that comes late was missing; while the firmware has
failed it counts toward no restore (R388). -/
def takeFrame (s0 : State) (f : BitVec 128) : State :=
  let s := if frameMissing s0 then restartCounts s0 else s0
  let freq := nfld f.toNat 0 32
  let vbus := nfld f.toNat 32 32
  let s1 := s.modPower fun p =>
    let q := { p with fseq := some (f.extractLsb' 80 16), lastFrame := s.now, missed := 0, failsafe := false
                      headroom := f.extractLsb' 64 16, capForce := p.capReg }
    { q with target := targetOf q (fracAt q.vcurve ((vbus : Int) - q.nomv.toNat)) (fracAt q.fcurve ((freq : Int) - q.nomf.toNat)) }
  let s2 := comparator s1 vbus
  let s3 := applyShed s2
  s3.modPower fun p =>
    if p.shed = s.power.shed && p.shares.isSome && !p.fwfail && restoreOk p then { p with restoreAt := some (p.restoreAt.getD s.now) }
    else { p with restoreAt := none }

/-- The 12 bytes a frame's CRC covers. -/
def frameCrcOk (f : BitVec 128) : Bool := crc32c (leBytes 12 f.toNat) == f.extractLsb' 96 32

/-- TELEMETRY_FRAME (R378): an invalid frame is discarded, and R386 counts from the start again; R387 counts valid
frames alone. -/
def telemetry (f : BitVec 128) (s : State) : State :=
  if !(frameCrcOk f) then s.modPower fun p => { p with badFrames := p.badFrames + 1, restoreAt := none }
  else if s.power.fseq = some (f.extractLsb' 80 16) then s.modPower fun p => { p with restoreAt := none }
  else takeFrame s f

/-- TELEMETRY_FRAME (R378). -/
def execTelemetryFrame (f : BitVec 128) (s : State) : Out := .next (telemetry f s)

/-- TELEMETRY_FRAME_MISSING (R378): past 40 us after the last valid frame, and each 20 us after that. -/
def tryMissing (s : State) : Option State :=
  if s.power.lastFrame + usTicks (40 + 20 * s.power.missed) < s.now then
    some ((restartCounts s).modPower fun p => { p with missed := p.missed + 1 })
  else none

/-- TELEMETRY_FRAME_MISSING (R378). -/
def execTelemetryFrameMissing (s : State) : Out := .next ((tryMissing s).getD s)

/-- A failsafe tick (R378): the target from the first point of each curve; R384; never a restore. -/
def failsafeTick (s : State) : State :=
  applyShed (s.modPower fun p =>
    let q := { p with tickAt := s.now, capForce := p.capReg }
    { q with target := targetOf q ((q.vcurve[0]).2.toNat) ((q.fcurve[0]).2.toNat), restoreAt := none })

/-- FAILSAFE_ENTRY (R378): 200 us without a valid frame; the first tick. -/
def tryFailsafe (s : State) : Option State :=
  if !s.power.failsafe && decide (s.power.lastFrame + usTicks 200 ≤ s.now) then
    some (failsafeTick (s.modPower fun p => { p with failsafe := true }))
  else none

/-- FAILSAFE_ENTRY (R378). -/
def execFailsafeEntry (s : State) : Out := .next ((tryFailsafe s).getD s)

/-- FAILSAFE_TICK (R378). -/
def tryTick (s : State) : Option State :=
  if s.power.failsafe && decide (s.power.tickAt + usTicks 20 ≤ s.now) then some (failsafeTick s) else none

/-- FAILSAFE_TICK (R378). -/
def execFailsafeTick (s : State) : Out := .next ((tryTick s).getD s)

/-- Cycles of the window at hand in which a core issued for a class (R383). -/
def issuedFor (p : Power) (c : CoreId) (cls : Nat) : Nat :=
  (tget (Vector.replicate 8 0) p.issued c.toNat).toArray.getD cls 0

/-- What of a core's power in mW goes to a class (R383), the core having had n cycles in the window. -/
def classPart (p : Power) (n : Nat) (e : CoreId × Nat) (cls : Nat) : Nat := e.2 * issuedFor p e.1 cls / n

/-- A window closed (R383): cores gives the mean power of each core in mW, base what lies off their rails in W, off
how much of that each region draws in mW, cycles how many cycles of its own a core had (R4). A core's energy goes to
the classes by the cycles it issued for each, the rest of it to BASE. Log entry 78: mW and W are rounded down. -/
def closeWindow (cycles : CoreId → Nat) (base : Nat) (cores : List (CoreId × Nat)) (off : Vector Nat 48) (p : Power) : Power :=
  let cls (c : Nat) : Nat := (cores.map fun e => classPart p (cycles e.1) e c).sum
  let still := (cores.map fun e => e.2 - ((List.range 8).map (classPart p (cycles e.1) e)).sum).sum
  let region (i : Nat) : Nat := (cores.map fun e => if (dieOf e.1).toNat * 16 + regionOf e.1 = i then e.2 else 0).sum
  { p with shares := some (base + still / 1000, Vector.ofFn fun c => cls c.val / 1000)
           regions := Vector.ofFn fun i => (off[i] + region i.val) / 1000, issued := [] }

/-- The cycles a core has had since the window at hand began. -/
def windowCycles (s : State) (c : CoreId) : Nat :=
  coreCycles s.now (s.coreAt c) - tget s.power.windowAt s.power.marks c.toNat

/-- The cycles that each core has counted now; an unlisted one has had one each tick. -/
def cycleMarks (s : State) : Table Nat :=
  s.others.foldl (fun t e => tput s.now t e.1 (coreCycles s.now e.2)) (tput s.now [] s.coreId.toNat s.cyc)

/-- MEASURING_WINDOW_CLOSE (R383): 100 us after the last one. -/
def tryWindow (base : Nat) (cores : List (CoreId × Nat)) (off : Vector Nat 48) (s : State) : Option State :=
  if s.power.windowAt + usTicks 100 ≤ s.now then
    some (s.modPower fun p => { closeWindow (windowCycles s) base cores off p with windowAt := s.now, marks := cycleMarks s })
  else none

/-- MEASURING_WINDOW_CLOSE (R383). -/
def execMeasuringWindowClose (base : Nat) (cores : List (CoreId × Nat)) (off : Vector Nat 48) (s : State) : Out :=
  .next ((tryWindow base cores off s).getD s)

/-! ### Slowing, holds and their release (R385-R387) -/

/-- Every core that has a launch task in flight looks at whether it runs slowed. -/
def slowAll (s : State) : State := (flightCores s fun _ => true).foldl slowUpdate s

/-- CLASS_SLOWDOWN (R385): one millisecond after a class was shed. -/
def trySlowdown (c : BitVec 3) (s : State) : Option State :=
  if isShed s.power c.toNat && !(s.power.slowing.getLsbD c.toNat) &&
      decide (s.power.shedAt.toArray.getD c.toNat 0 + msTicks 1 ≤ s.now) then
    some (slowAll (s.modPower fun p => { p with slowing := p.slowing ||| (1#8 <<< c.toNat) }))
  else none

/-- CLASS_SLOWDOWN (R385). -/
def execClassSlowdown (c : BitVec 3) (s : State) : Out := .next ((trySlowdown c s).getD s)

/-- Held phases of classes that are no longer held are free to complete (R306). -/
def freePhases (s : State) : State :=
  s.bars.foldl (fun t e =>
    let b := t.bar e.1
    if b.held && !(classHeld t b.pclass) then onWaiters (t.setBar e.1 { b with held := false }) e.1 wdStart else t) s

/-- A class restored (R386). -/
def restoreClass (s : State) (k : Nat) : State :=
  let off : BitVec 8 := ~~~(1#8 <<< k)
  let s1 := s.modPower fun p => { p with shed := p.shed &&& off, slowing := p.slowing &&& off, restoreAt := none }
  let s2 := slowAll (freePhases s1)
  let s3 := if s2.power.shed = 0 then
      ([0, 1, 2] : List (BitVec 2)).foldl (fun t d => t.modDie d fun y => { y with withheld := 0 }) s2
    else s2
  powerEvents s3 3 (BitVec.ofNat 3 k) 0

/-- CLASS_RESTORE (R386): after 20 ms. -/
def tryRestoreClass (s : State) : Option State :=
  match lowestShed s.power, s.power.restoreAt with
  | some k, some t =>
    if !s.power.fwfail && !s.power.failsafe && !(frameMissing s) && decide (t + msTicks 20 ≤ s.now) then some (restoreClass s k) else none
  | _, _ => none

/-- CLASS_RESTORE (R386). -/
def execClassRestore (s : State) : Out := .next ((tryRestoreClass s).getD s)

/-- HWHOLD_CLEAR (R387): after 20 ms. -/
def tryHwClear (s : State) : Option State :=
  match s.power.holdAt with
  | none => none
  | some t =>
    if s.power.hwhold != 0 && !(frameMissing s) && decide (t + msTicks 20 ≤ s.now) then
      some (freePhases (s.modPower fun p => { p with hwhold := 0 }))
    else none

/-- HWHOLD_CLEAR (R387). -/
def execHwholdClear (s : State) : Out := .next ((tryHwClear s).getD s)

/-! ### Registers (R379-R382) -/

def powerBusy (p : Power) : Bool := p.fwfail || p.updating

def floorSum (fs : Vector (BitVec 16) 8) : Nat := (fs.toList.map BitVec.toNat).sum

/-- A write of PCAP and its status (R379-R381). -/
def writePcap (s : State) (x : Word) : State × Nat :=
  let cap := min (nfld x.toNat 0 16) 2400
  let p := s.power
  let sum := floorSum p.floors
  let t := s.modPower fun q => { q with capReg := BitVec.ofNat 16 cap }
  if powerBusy p then (s, 4)
  else if cap < p.idleFloor.toNat then (s, 1)
  else if cap < sum then
    if x.getLsbD 16 then
      let fs := p.floors.map fun f => BitVec.ofNat 16 (f.toNat * cap / sum)
      let u := t.modPower fun q => { q with floors := fs }
      ((List.range 8).foldl (fun v c =>
        if (p.floors.toArray.getD c 0) == 0 then v
        else powerEvents v 4 (BitVec.ofNat 3 c) (fs.toArray.getD c 0).toNat) u, 0)
    else (s, 2)
  else (t, 0)

/-- A write of CLASSFLOOR and its status (R381). -/
def writeFloors (s : State) (x : BitVec 128) : State × Nat :=
  let fs : Vector (BitVec 16) 8 := Vector.ofFn fun i => x.extractLsb' (16 * i.val) 16
  if powerBusy s.power then (s, 4)
  else if s.power.capForce.toNat < floorSum fs then (s, 2)
  else (s.modPower fun p => { p with floors := fs }, 0)

/-- A curve as written: 16 points. -/
def curveOf (x : BitVec 1024) : Vector (BitVec 32 × BitVec 11) 16 :=
  Vector.ofFn fun i => (x.extractLsb' (64 * i.val) 32, x.extractLsb' (64 * i.val + 32) 11)

/-- Points in strictly ascending DEV, no FRAC above 1,024 (R379). -/
def curveOk (k : Vector (BitVec 32 × BitVec 11) 16) : Bool :=
  let dev (i : Nat) : Int := sgn 32 ((k.toArray.getD i (0, 0)).1.toNat)
  (List.range 15).all (fun i => decide (dev i < dev (i + 1))) && k.toList.all fun q => decide (q.2.toNat ≤ 1024)

/-- A write of a curve and its status (R382). -/
def writeCurve (s : State) (f : Bool) (x : BitVec 1024) : State × Nat :=
  let k := curveOf x
  if powerBusy s.power then (s, 4)
  else if !(curveOk k) then (s, 3)
  else (s.modPower fun p => if f then { p with fcurve := k } else { p with vcurve := k }, 0)

/-- A write at the package power port and its status, which the port shows (R379). -/
def atPort (r : State × Nat) : State := r.1.modPower fun p => { p with status := BitVec.ofNat 8 r.2 }

/-- PCAP_WRITE (R381). -/
def execPcapWrite (x : Word) (s : State) : Out := .next (atPort (writePcap s x))

/-- CLASSFLOOR_WRITE (R381). -/
def execClassfloorWrite (x : BitVec 128) (s : State) : Out := .next (atPort (writeFloors s x))

/-- VCURVE_WRITE (R382). -/
def execVcurveWrite (x : BitVec 1024) (s : State) : Out := .next (atPort (writeCurve s false x))

/-- FCURVE_WRITE (R382). -/
def execFcurveWrite (x : BitVec 1024) (s : State) : Out := .next (atPort (writeCurve s true x))

/-! ### Stretch, heat, firmware -/

/-- CYCLE_STRETCH (R376). -/
def execCycleStretch (s : State) : Out := .next (s.modCore (stretchCycle s.now))

/-- CURRENT_LIMIT (R377): a cycle stretched as under R376. -/
def execCurrentLimit (s : State) : Out := .next (s.modCore (stretchCycle s.now))

/-- Every core of a die looks at its clock again. -/
def clockDie (s : State) (d : BitVec 2) : State :=
  ((List.range 1024).map fun i => (BitVec.ofNat 12 (1024 * d.toNat + i) : CoreId)).foldl
    (fun t c => if c.toNat < 3072 then t.onCore c State.clockUpdate else t) s

/-- THERMAL_TRIP (R377). -/
def execThermalTrip (die : BitVec 2) (s : State) : Out :=
  .next ((clockDie (s.modDie die fun y => { y with hot := true }) die).report (.error (supOf die) 377 die.toNat))

/-- THERMAL_CLEAR (R377). -/
def execThermalClear (die : BitVec 2) (s : State) : Out :=
  .next (clockDie (s.modDie die fun y => { y with hot := false }) die)

/-- FIRMWARE_WATCHDOG_EXPIRY (R388): 10 ms without a kick. -/
def tryFwExpiry (s : State) : Option State :=
  if !s.power.fwfail && decide (s.power.kickAt + msTicks 10 ≤ s.now) then
    some (s.modPower fun p => { p with fwfail := true, restoreAt := none })
  else none

/-- FIRMWARE_WATCHDOG_EXPIRY (R388). -/
def execFirmwareWatchdogExpiry (s : State) : Out := .next ((tryFwExpiry s).getD s)

/-- FIRMWARE_KICK (R244, R388): no kick comes while the firmware is updated. -/
def execFirmwareKick (s : State) : Out :=
  .next (if s.power.updating then s
    else s.modPower fun p =>
      { p with kickAt := s.now, kicked := true, fwfail := false, restoreAt := if p.fwfail then none else p.restoreAt })

/-- FIRMWARE_UPDATE (R388): at its end the firmware resumes. -/
def execFirmwareUpdate (ongoing : Bool) (s : State) : Out :=
  .next (s.modPower fun p =>
    if ongoing then { p with updating := true, fwfail := true, restoreAt := none }
    else { p with updating := false, fwfail := p.fwfail && !p.updating, kickAt := s.now })

end Sys2Proof.Machine
end

