-- ==== Sys2Proof/Machine/Host.lean ====
section
/-! DEFINITION. Hosts (R396-R398), the answers of other packages and their requests (R395), pod barriers as
they arrive (R399, R400). -/
namespace Sys2Proof.Machine

/-! ### Requests of hosts (R397) -/

def qOp (q : HostReq) : Nat := nfld q.hdr.toNat 0 8
def qLen (q : HostReq) : Nat := nfld q.hdr.toNat 16 11
def qArg (q : HostReq) : Nat := nfld q.hdr.toNat 64 64

/-- A response (R397, R398): OP, TAG and ARG of the request, the status, its data. -/
def respond (s : State) (q : HostReq) (status : Nat) (data : List Byte) : State :=
  let h := q.hdr.toNat
  let r : Response :=
    { endpoint := q.endpoint
      hdr := BitVec.ofNat 128 (nfld h 0 8 + status * 2 ^ 8 + data.length * 2 ^ 16 + nfld h 32 96 * 2 ^ 32), data := data }
  { s with responses := s.responses ++ [r] }

/-- A packet dropped and counted (R393, R394, R396). -/
def dropPacket (s : State) : State :=
  { s with podDrop := if s.podDrop = 0xFFFFFFFF then s.podDrop else s.podDrop + 1 }

/-- The credential of an endpoint (R396). -/
def credOf (s : State) (e : BitVec 16) : Option Credential := (s.creds.filterMap Prod.snd).find? fun c => c.endpoint == e

/-- The tag of a host's accesses (R396; log entry 7). -/
def credTag (c : Credential) : Tag := { space := c.space, gen := c.gen, priv := false }

/-- Whether the transport carries an operation (R393): unordered delivery LOAD and STORE alone; writes are STORE,
reads LOAD. -/
def carried (q : HostReq) : Bool :=
  (match q.service with
    | .ordered => true
    | .unordered => qOp q == 1 || qOp q == 2
    | .unreliable => false) &&
  (match q.sem with
    | .send => true
    | .write => qOp q == 2
    | .read => qOp q == 1
    | .other => false)

/-- A request of an authenticated endpoint whose operation is op, done by f; one whose operation no host
may ask for answered BAD_OP; one of another kind is another event's (R393, R396-R398). -/
def hostOp (op : Nat) (f : State → HostReq → Credential → State) (q : HostReq) (s : State) : State :=
  match credOf s q.endpoint with
  | none => dropPacket s
  | some c =>
    if !(carried q) then dropPacket s
    else if nfld q.hdr.toNat 27 5 ≠ 0 ∨ nfld q.hdr.toNat 8 8 ≠ 0 ∨ 1024 < qLen q then respond s q 8 []
    else if qOp q = op then f s q c
    else if ([1, 2, 3, 4, 5, 7, 8] : List Nat).contains (qOp q) then s
    else respond s q 8 []

/-! ### Accesses from outside at the channels -/

/-- Translation of an access from outside with the root table of die 0 (R369-R373, R395). -/
def pageXlate (s : State) (t : Tag) (acc : Access) (va : Nat) : Xlate × State :=
  match walkNotes s 0 t va with
  | none => (.held, s)
  | some u =>
    match walkRoot s 0 t va with
    | .absent => (.pageFault, u)
    | .bad c => (.access c, badTable u (supOf 0) c va)
    | .leaf l =>
      let pa := l.pa + va % 2 ^ l.bits
      (if !(rightsOk l acc t.priv) then .access false else if frameOk u t pa then .ok pa else .stale, u)

/-- The physical addresses of n bytes, n at most 1,024, which lie in at most two pages. -/
def rangeXlate (s : State) (t : Tag) (acc : Access) (va n : Nat) : (List Nat ⊕ Xlate) × State :=
  let last := va + (n - 1)
  match pageXlate s t acc va with
  | (.ok a, u) =>
    if last / 65536 = va / 65536 then (.inl ((List.range n).map fun i => a + i), u)
    else
      match pageXlate u t acc (last / 65536 * 65536) with
      | (.ok b, v) =>
        (.inl ((List.range n).map fun i =>
          if (va + i) / 65536 = va / 65536 then a + i else b + (va + i) % 65536), v)
      | (r, v) => (.inr r, v)
  | (r, u) => (.inr r, u)

/-- The lines of an access from outside, each an access of the network interface at its channel, held by
replay (R350) or logged (R349); ports: those its group has accessed. -/
def outsideNotes (s : State) (kind : Nat) (ports : List PortKey) : List (Nat × Nat) → Option State
  | [] => some s
  | (pa, va) :: rest =>
    let p : PortKey := .chan (BitVec.ofNat 5 (chanOf pa))
    (seenAt s p ⟨0, 6, kind, ports.contains p, va, false⟩).bind fun t => outsideNotes t kind ports rest

/-- The first address of each line of an access. -/
def outsideLines (pas : List Nat) (va : Nat) : List (Nat × Nat) :=
  foldIdx (fun i pa acc => if i = 0 ∨ pa % 64 = 0 then acc ++ [(pa, va + i)] else acc) 0 pas []

/-- The same once for each channel: an ACCUMULATE is one access there (R397). -/
def outsideChans (ls : List (Nat × Nat)) : List (Nat × Nat) :=
  ls.foldl (fun acc l => if acc.any fun x => chanOf x.1 == chanOf l.1 then acc else acc ++ [l]) []

/-- What an access from outside of a kind makes at its channels: one access for each line; an ACCUMULATE, of kind 4,
one for each channel (R397). -/
def outsideAccesses (kind : Nat) (ls : List (Nat × Nat)) : List (Nat × Nat) := if kind = 4 then outsideChans ls else ls

/-- A host's access to n bytes at its address, of which k is what is done at the channels: none of its home,
page, rights or generation is missing (R396, R398). Held by replay, it has not been performed. -/
def hostAccess (s : State) (q : HostReq) (c : Credential) (acc : Access) (kind n : Nat)
    (k : State → List Nat → State) : State :=
  let va := qArg q
  if va / 2 ^ 56 ≠ 0 then respond s q 8 []
  else if homeOf va ≠ s.pkgNo then respond s q 9 []
  else
    match rangeXlate s (credTag c) acc va n with
    | (.inr .held, _) => s
    | (.inr _, u) => respond (u.report (.error (supOf 0) 398 va)) q 10 []
    | (.inl pas, u) => match outsideNotes u kind [] (outsideAccesses kind (outsideLines pas va)) with | none => s | some t => k t pas

/-- LOAD (R397). -/
def hostLoad (s : State) (q : HostReq) (c : Credential) : State :=
  if qArg q % 8 ≠ 0 ∨ qLen q % 8 ≠ 0 ∨ !q.data.isEmpty = true then respond s q 8 []
  else hostAccess s q c .read 0 (qLen q) fun t pas =>
    match chanRead t pas with
    | none => respond t q 11 []
    | some bs => respond (countReads t pas) q 0 bs

/-- STORE (R397). -/
def hostStore (s : State) (q : HostReq) (c : Credential) : State :=
  if qArg q % 8 ≠ 0 ∨ qLen q % 8 ≠ 0 ∨ q.data.length ≠ qLen q then respond s q 8 []
  else hostAccess s q c .write 1 (qLen q) fun t pas => respond (chanWrite t (pas.zip q.data)) q 0 []

/-- A read and a write of one location (R117), one access; none where it is poisoned. -/
def outsideAtomic (s : State) (pas : List Nat) (fn : BitVec 4) (z : Size) (b e : Word) : Option (State × Nat) :=
  (chanRead s pas).map fun bs =>
    let v := leNat bs
    let n := sizeBytes z
    let eb := e.toNat % 2 ^ (8 * n)
    let cs := if amoWrites fn v eb then pas.zip (leBytes n (amoNew fn (8 * n) v (b.toNat % 2 ^ (8 * n)) eb)) else []
    (chanUpdate s pas cs, v)

/-- ATOMIC (R117, R397). -/
def hostAtomic (s : State) (q : HostReq) (c : Credential) : State :=
  let dw (i : Nat) : Nat := leNat ((q.data.drop (8 * i)).take 8)
  let z : Size := if nbit (dw 2) 4 then .d else .w
  let fn : BitVec 4 := BitVec.ofNat 4 (dw 2)
  if q.data.length ≠ 24 ∨ qLen q ≠ 24 ∨ qArg q % sizeBytes z ≠ 0 ∨ 10 < fn.toNat ∨ dw 2 / 32 ≠ 0 then respond s q 8 []
  else hostAccess s q c .atomic 2 (sizeBytes z) fun t pas =>
    match outsideAtomic t pas fn z (BitVec.ofNat 64 (dw 0)) (BitVec.ofNat 64 (dw 1)) with
    | none => respond t q 11 []
    | some (u, v) => respond u q 0 (leBytes 8 v)

/-- The transforms LT may name in ACCUMULATE, and its bytes in whole elements (R397). -/
def accumulates (lt : Nat) (bs : List Byte) : Bool :=
  ([1, 6, 7] : List Nat).contains lt && bs.length % (if lt = 7 then 8 else 4) == 0

/-- Elements combined with the bytes at pas by a transform of R322, one access; none where they are poisoned. -/
def outsideAccumulate (s : State) (pas : List Nat) (lt : Nat) (bs : List Byte) : Option State :=
  (chanRead s pas).map fun old =>
    let cs := (landCells (fun i => old.getD i 0) old.length lt 0 0 bs).getD []
    chanUpdate s pas (cs.map fun x => (pas.getD x.1 0, x.2))

/-- ACCUMULATE (R397): the transforms of R322 at the home channel, one access. -/
def hostAccumulate (s : State) (q : HostReq) (c : Credential) : State :=
  let lt := nfld (leNat (q.data.take 8)) 0 4
  let bs := q.data.drop 8
  if qArg q % 8 ≠ 0 ∨ q.data.length ≠ 8 + qLen q ∨ accumulates lt bs = false then respond s q 8 []
  else hostAccess s q c .atomic 4 bs.length fun t pas =>
    match outsideAccumulate t pas lt bs with
    | none => respond t q 11 []
    | some u => respond u q 0 []

/-- LAUNCH_APPEND (R332, R397). -/
def hostAppend (s : State) (q : HostReq) (c : Credential) : State :=
  let d : BitVec 2 := BitVec.ofNat 2 (nfld (qArg q) 16 2)
  let n := nfld (qArg q) 0 16
  let l : Launch :=
    { dw := Vector.ofFn fun i => BitVec.ofNat 64 (leNat ((q.data.drop (8 * i.val)).take 8)), src := none
      tag := credTag c, placed := 0, tasks := 0, id := 0 }
  if d = 3 ∨ q.data.length ≠ 64 ∨ qLen q ≠ 64 then respond s q 8 []
  else
    match appendFault (s.die d) n true true (supOf d) l with
    | some x => respond s q x.toNat []
    | none => respond (appendRecord s d n l) q 0 []

/-! ### Registers (R380, R382, R394, R397) -/

def pstatWord (p : Power) : Nat :=
  p.shed.toNat + p.hwhold.toNat * 2 ^ 8 + p.target.toNat * 2 ^ 16 + p.idleFloor.toNat * 2 ^ 32 + b2n p.failsafe * 2 ^ 48 +
    b2n (powerBusy p) * 2 ^ 49

def curveBytes (k : Vector (BitVec 32 × BitVec 11) 16) : List Byte :=
  k.toList.flatMap fun p => leBytes 8 (p.1.toNat + p.2.toNat * 2 ^ 32)

/-- The value of a register as a host reads it; none is an unknown register. -/
def regValue (s : State) (r die queue : Nat) : Option (List Byte) :=
  let p := s.power
  match r with
  | 0 => some (leBytes 8 p.capReg.toNat)
  | 1 => some (leBytes 8 (pstatWord p))
  | 2 => some (p.floors.toList.flatMap fun f => leBytes 2 f.toNat)
  | 3 => some (leBytes 8 p.nomv.toNat)
  | 4 => some (leBytes 8 p.nomf.toNat)
  | 5 => some (leBytes 8 p.vfloor.toNat)
  | 6 => some (curveBytes p.vcurve)
  | 7 => some (curveBytes p.fcurve)
  | 8 => some (leBytes 8 (s.podcfg.toNat + s.podDrop.toNat * 2 ^ 32))
  | 9 => if die = 3 then none else some (leBytes 8 (queueWord (queueAt (s.die (BitVec.ofNat 2 die)) queue)))
  | _ => none

/-- A register written by a host, with the status; none is an unknown or read-only register. -/
def regWrite (s : State) (r : Nat) (bs : List Byte) : Option (State × Nat) :=
  let x := leNat bs
  let put (f : Power → Power) : State × Nat := if powerBusy s.power then (s, 4) else (s.modPower f, 0)
  let n := match r with | 2 => 16 | 6 | 7 => 128 | _ => 8
  if bs.length ≠ n then none
  else
    match r with
    | 0 => some (writePcap s (BitVec.ofNat 64 x))
    | 2 => some (writeFloors s (BitVec.ofNat 128 x))
    | 3 => some (put fun p => { p with nomv := BitVec.ofNat 32 x })
    | 4 => some (put fun p => { p with nomf := BitVec.ofNat 32 x })
    | 5 => some (put fun p => { p with vfloor := BitVec.ofNat 32 x })
    | 6 => some (writeCurve s false (BitVec.ofNat 1024 x))
    | 7 => some (writeCurve s true (BitVec.ofNat 1024 x))
    | 8 => some ({ s with podcfg := BitVec.ofNat 10 x }, 0)
    | _ => none

def hostRegRead (s : State) (q : HostReq) (_ : Credential) : State :=
  match (if q.data.isEmpty then regValue s (nfld (qArg q) 0 8) (nfld (qArg q) 24 2) (nfld (qArg q) 8 16) else none) with
  | none => respond s q 8 []
  | some bs => respond s q 0 bs

def hostRegWrite (s : State) (q : HostReq) (_ : Credential) : State :=
  match (if q.data.length = qLen q then regWrite s (nfld (qArg q) 0 8) q.data else none) with
  | none => respond s q 8 []
  | some (t, st) => respond t q st []

/-- LOAD (R397). -/
def execLoad (q : HostReq) (s : State) : Out := .next (hostOp 1 hostLoad q s)

/-- STORE (R397). -/
def execStore (q : HostReq) (s : State) : Out := .next (hostOp 2 hostStore q s)

/-- ATOMIC (R397). -/
def execAtomic (q : HostReq) (s : State) : Out := .next (hostOp 3 hostAtomic q s)

/-- LAUNCH_APPEND (R397). -/
def execLaunchAppend (q : HostReq) (s : State) : Out := .next (hostOp 4 hostAppend q s)

/-- ACCUMULATE (R397). -/
def execAccumulate (q : HostReq) (s : State) : Out := .next (hostOp 5 hostAccumulate q s)

/-- REG_READ (R397). -/
def execRegRead (q : HostReq) (s : State) : Out := .next (hostOp 7 hostRegRead q s)

/-- REG_WRITE (R397). -/
def execRegWrite (q : HostReq) (s : State) : Out := .next (hostOp 8 hostRegWrite q s)

/-- HOST_CREDENTIAL_INSTALL (R396). -/
def execHostCredentialInstall (slot : BitVec 3) (endpoint space : BitVec 16) (gen : BitVec 8) (s : State) : Out :=
  .next { s with creds := tput none s.creds slot.toNat (some ⟨endpoint, space, gen⟩) }

/-! ### Pod barriers (R399, R400) -/

def podBarNo (id : BitVec 4) : BarNo := barNo ⟨.pod, 0, id.setWidth 6⟩

/-- POD_BARRIER_ARRIVAL (R399): at the root, from a package of the barrier that has not arrived yet. -/
def execPodBarrierArrival (id : BitVec 4) (pkg : BitVec 9) (x : Word) (s : State) : Out :=
  let n := podBarNo id
  let b := s.bar n
  .next (if s.podEn && b.en && b.pmask.getLsbD pkg.toNat && !(b.podCame.contains pkg) && decide (pkg ≠ s.pkgNo) &&
      decide ((podPkgs b).head? = some s.pkgNo) then podArrive s n pkg x else s)

/-- POD_BARRIER_COMPLETION (R399, R400): at a package whose arrival has been sent. -/
def execPodBarrierCompletion (id : BitVec 4) (x : Word) (s : State) : Out :=
  let n := podBarNo id
  let b := s.bar n
  .next (if s.podEn && b.en && b.told && decide ((podPkgs b).head? ≠ some s.pkgNo) then
      (podComplete s n x).getD (podKeep s n x) else s)

/-! ### Answers of other packages (R395) -/

/-- The oldest access to a package on the account of a context that awaits an answer, and what is sent without it. -/
def takeAway (core : CoreId) (c : CtxNo) (pkg : BitVec 9) : List PodOut → Option (PodOut × List PodOut)
  | [] => none
  | o :: os =>
    let mine : Bool := match o with
      | .access _ k x _ _ _ p _ _ => k == core && x == c && p == pkg
      | .barrier _ _ _ _ _ | .reply _ _ _ => false
    if mine then some (o, os) else (takeAway core c pkg os).map fun p => (p.1, o :: p.2)

/-- The answer to an access of the copy engine (R275). -/
def engineAnswer (s : State) (r : CpRun) (eid va : Nat) (op : Op) (a : PodAnswer) : State :=
  match a with
  | .data bs => cpAnswered s eid (match op with | .load as => as.zip (podData as bs) | _ => [])
  | .pageFault =>
    let a : Word := BitVec.ofNat 64 va
    (modRun s fun q => { q with waits := q.waits.erase eid, wrote := false, fault := some a }).report (.copyFault s.coreId a)
  | .access k => cpFaulted s r .access k []
  | .linkDown => cpFaulted s r .access true []
  | .staleGen => cpFaulted s r .staleGen false []
  | .poisoned => killCore s

/-- The answer to an access its context waits for: a load, an atomic, a line of code (R109, R367, R373). Whether an
atomic was performed is not known where no route remains (R121). -/
def waitedAnswer (s : State) (c : CtxNo) (eid va : Nat) (op : Op) (a : PodAnswer) : State :=
  let t := ackEffect s c eid
  match a with
  | .data bs =>
    match op with
    | .load as => loadAnswer t c (podData as bs)
    | _ =>
      t.modCtxAt c fun x =>
        match x.pending with
        | some q => nextPc { putDest x q.dest (bs.take 8) with pending := none }
        | none => x
  | .pageFault => suspendCtx (t.modCtxAt c fun x => { x with pending := none }) c (.pageFault (BitVec.ofNat 64 va))
  | .access k => abortWith t c .access k []
  | .staleGen => abortCtx t c .staleGen
  | .poisoned => killCore t
  | .linkDown => abortAs t c .access true [] (match op with | .load _ => some false | _ => none)

/-- A rejection of what no context waits for: discarded with an error record (R373). -/
def awayLost (s : State) (va : Nat) : State := s.report (.error s.coreId 395 va)

/-- Whether a task of a context of the core in focus still goes on. -/
def goesOn (x : Ctx) : Bool := match x.phase with | .running | .suspended _ | .saved _ => true | _ => false

/-- Rights missing at the home package for what a task has written: its cause is ACCESS (R370, R395), taken at its
task's next instruction boundary; where the task has ended, an error record. -/
def rightsMissing (s : State) (c : CtxNo) (mine k : Bool) (va : Nat) : State :=
  if mine && goesOn (s.ctxAt c) && (s.ctxAt c).trapDue.isNone then
    strike (s.modCtxAt c fun x => { x with trapDue := some (.access, k, []) }) c
  else awayLost s va

/-- A page absent at the home package for what a task has written: its context suspends (R28, R395), if it runs; a
clock that paused for its wait runs (R385). -/
def pageAway (s : State) (c : CtxNo) (mine : Bool) (va : Nat) : State :=
  if mine && decide ((s.ctxAt c).phase = .running) then
    (suspendCtx s c (.pageFault (BitVec.ofNat 64 va))).clockUpdate
  else s

/-- The answer to an effect that no context waits for; before: the state with the effect still under way. A page that
is absent: the effect and what follows it stay on their route until the page is there (R348; log entry 90). A load
that its context has given up is dropped. -/
def effectAnswer (before s : State) (c : CtxNo) (eid va : Nat) (a : PodAnswer) : State :=
  if (s.ctxAt c).chunks.any fun k => k.effs.any fun e => e.eid == eid then
    match a with
    | .data _ => ackEffect s c eid
    | .pageFault => pageAway before c true va
    | .access k => rightsMissing (ackEffect s c eid) c true k va
    | .staleGen | .poisoned | .linkDown => awayLost (ackEffect s c eid) va
  else s

/-- The answer to the drain of a line (R285): the line is free; where the page is absent, once it is there. It is on
the account of the task that wrote the line last (R395). -/
def drainAnswer (before s : State) (l : GLine) (eid va : Nat) (a : PodAnswer) : State :=
  let gone : State := settleAll (s.modCore fun k => { k with gather := k.gather.filter fun l => !(decide (l.drain = some eid)) })
  let c := l.who.1
  let mine := decide ((s.ctxAt c).actSeq = l.who.2)
  match a with
  | .data _ => gone
  | .pageFault => pageAway before c mine va
  | .access k => rightsMissing gone c mine k va
  | .staleGen | .poisoned | .linkDown => awayLost gone va

/-- The answer to an increment of the pricking (R338). -/
def incAnswer (before s : State) (eid va : Nat) (a : PodAnswer) : State :=
  match a with
  | .data _ => incDone s eid
  | .pageFault => before
  | .access _ | .staleGen | .poisoned | .linkDown => awayLost (incDone s eid) va

/-- An answer at the core it comes to; rest: what is under way without the access it answers. -/
def awayAnswer (before : State) (c : CtxNo) (o : PodOut) (rest : List PodOut) (a : PodAnswer) : State :=
  let s : State := { before with podOut := rest }
  match o with
  | .access _ _ _ eid va _ _ op _ =>
    let engine := s.core.cprun.filter fun r => r.waits.contains eid
    if (s.die (dieOf s.coreId)).incs.contains eid then incAnswer before s eid va a
    else if s.core.killed then s
    else
      match engine with
      | some r => engineAnswer s r eid va op a
      | none =>
        if awaits s c eid then waitedAnswer s c eid va op a
        else
          match s.core.gather.find? fun l => decide (l.drain = some eid) with
          | some l => drainAnswer before s l eid va a
          | none => effectAnswer before s c eid va a
  | .barrier _ _ _ _ _ | .reply _ _ _ => s

/-! ### Requests of other packages (R395) -/

/-- The bytes a request spans, and what it does with them. -/
def podNeed : PodOp → Nat × Access × Nat
  | .masked cs => (cs.foldl (fun n c => max n (c.1.toNat + 1)) 0, .write, 1)
  | .read n => (n, .read, 0)
  | .fetch n => (n, .fetch, 0)
  | .write bs => (bs.length, .write, 1)
  | .atomic _ z _ _ => (sizeBytes z, .atomic, 2)
  | .frameStore _ _ => (8, .write, 1)
  | .increment _ => (8, .write, 5)
  | .release => (16, .write, 5)
  | .accumulate _ bs => (bs.length, .atomic, 4)

/-- Those of the bytes a request spans that it touches. -/
def podTouched (op : PodOp) (pas : List Nat) : List Nat :=
  match op with
  | .masked cs => cs.map fun c => pas.getD c.1.toNat 0
  | .read _ | .fetch _ | .write _ | .atomic _ _ _ _ | .frameStore _ _ | .increment _ | .release | .accumulate _ _ => pas

/-- A request of a core of another package performed on the bytes at pas. -/
def podPerform (s : State) (src : PodSource) (pas : List Nat) : PodOp → State × PodAnswer
  | .masked cs => (chanWrite s (cs.map fun c => (pas.getD c.1.toNat 0, c.2)), .data [])
  | .read _ | .fetch _ => match chanRead s pas with | none => (s, .poisoned) | some bs => (countReads s pas, .data bs)
  | .write bs => (chanWrite s (pas.zip bs), .data [])
  | .atomic fn z b e =>
    match outsideAtomic s pas fn z b e with | none => (s, .poisoned) | some (t, v) => (t, .data (leBytes 8 v))
  | .frameStore x slot0 =>
    let old := ((chanRead s pas).map leNat).getD 0
    (chanWrite s (pas.zip (leBytes 8 (if slot0 then mergeSlot0 old x.toNat else x.toNat))), .data [])
  | .increment n => (incrementFabric s (pas.headD 0) n (some (src.pkg, src.core)), .data [])
  | .release => (releaseFabric s (pas.headD 0) (some (src.pkg, src.core)), .data [])
  | .accumulate lt bs =>
    match outsideAccumulate s pas lt.toNat bs with | none => (s, .poisoned) | some t => (t, .data [])

/-- Whether a request at an address has a form (R106, R117, R397). -/
def podFormed (va : Nat) : PodOp → Bool
  | .accumulate lt bs => accumulates lt.toNat bs && decide (va % 8 = 0)
  | .atomic fn z _ _ => decide (fn.toNat ≤ 10 ∧ va % sizeBytes z = 0)
  | .read n | .fetch n => decide (va % 8 = 0 ∧ n % 8 = 0)
  | .write bs => decide (va % 8 = 0 ∧ bs.length % 8 = 0)
  | .masked _ | .frameStore _ _ | .increment _ | .release => true

/-- The OP under which a request came (R397; log entry 97). -/
def podOpOf : PodOp → BitVec 8
  | .read _ | .fetch _ => 1
  | .write _ => 2
  | .masked _ => Config.podOp 3
  | .atomic _ _ _ _ => 3
  | .frameStore _ slot0 => if slot0 then Config.podOp 0 else 2
  | .increment _ => Config.podOp 1
  | .release => Config.podOp 2
  | .accumulate _ _ => 5

/-- The bytes of an answer, and its status (R398). -/
def answerBytes : PodAnswer → List Byte
  | .data bs => bs
  | .pageFault | .access _ | .staleGen | .poisoned | .linkDown => []

def answerStatus : PodAnswer → Nat
  | .data _ => 0
  | .poisoned => 11
  | .pageFault | .access _ | .staleGen | .linkDown => 10

/-- A response to another package, with a status (R397, R398); without a route it is an error packet (R353, R395). -/
def podRespond (s : State) (src : PodSource) (tag : BitVec 32) (va : Nat) (op : PodOp) (status : Nat) (a : PodAnswer) : State :=
  let h := match a with
    | .linkDown => none
    | _ => some (opHdr (podOpOf op) status (answerBytes a).length tag.toNat va)
  { s with podOut := s.podOut ++ [.reply h src.pkg a] }

/-- A request of another package at an address homed here, with the ports its group has accessed; none: replay holds
it back. What is no request of R397 is BAD_OP, one for another package BAD_HOME; a rejection is a FAULT and leaves a
record (R398). -/
def podRequest (s : State) (src : PodSource) (tag : BitVec 32) (ports : List PortKey) (va : Nat) (op : PodOp) :
    Option (State × List PortKey) :=
  let reply (u : State) (st : Nat) (a : PodAnswer) : Option (State × List PortKey) := some (podRespond u src tag va op st a, ports)
  let fault (u : State) (code : Nat) (a : PodAnswer) : Option (State × List PortKey) :=
    reply (u.report (.error (supOf 0) code va)) (answerStatus a) a
  let w := podNeed op
  if !s.podEn then reply s 0 .linkDown
  else if podFormed va op = false ∨ 1024 < w.1 ∨ va / 2 ^ 56 ≠ 0 then reply s 8 (.access false)
  else if homeOf va ≠ s.pkgNo then reply s 9 (.access false)
  else
    match rangeXlate s ⟨src.space, src.gen, src.priv⟩ w.2.1 va w.1 with
    | (.inl pas, u) =>
      let ls := (outsideLines pas va).filter fun l => (podTouched op pas).any fun a => a / 64 == l.1 / 64
      (outsideNotes u w.2.2 ports (outsideAccesses w.2.2 ls)).bind fun v =>
        let r := podPerform v src pas op
        (reply r.1 (answerStatus r.2) r.2).map fun x => (x.1, ports ++ ls.map fun l => .chan (BitVec.ofNat 5 (chanOf l.1)))
    | (.inr .held, _) => none
    | (.inr .pageFault, u) => fault u 395 .pageFault
    | (.inr .stale, u) => fault u 398 .staleGen
    | (.inr (.access k), u) => fault u 398 (.access k)
    | (.inr _, u) => fault u 398 (.access false)

/-- Whether the last answer to another package is that of a page which is absent. -/
def lastAbsent (s : State) : Bool := match s.podOut.getLast? with | some (.reply _ _ .pageFault) => true | _ => false

/-- Whether a request finds a page absent. -/
def podMissing (s : State) (src : PodSource) (x : BitVec 32 × Word × PodOp) : Bool :=
  match podRequest s src x.1 [] x.2.1.toNat x.2.2 with
  | some r => lastAbsent r.1
  | none => false

/-- Requests one after the other without a gap; none: replay holds one back. -/
def podRun (src : PodSource) : List (BitVec 32 × Word × PodOp) → List PortKey → State → Option State
  | [], _, s => some s
  | x :: xs, ports, s => (podRequest s src x.1 ports x.2.1.toNat x.2.2).bind fun r =>
      if lastAbsent r.1 then some r.1 else podRun src xs r.2 r.1

/-- The requests of one chunk (R343, R348). Where the page of one of them is absent, that is answered and none of them
is performed: the group is made again once the page is there (log entry 90). -/
def podGroup (src : PodSource) (xs : List (BitVec 32 × Word × PodOp)) (s : State) : Option State :=
  match xs.find? (podMissing s src) with
  | some x => podRun src [x] [] s
  | none => podRun src xs [] s

/-- The accesses to a package on the account of a context that await an answer, in order. -/
def awayOf (core : CoreId) (c : CtxNo) (pkg : BitVec 9) (os : List PodOut) : List PodOut :=
  os.filter fun o => match o with
    | .access _ k x _ _ _ p _ _ => k == core && x == c && p == pkg
    | .barrier _ _ _ _ _ | .reply _ _ _ => false

/-- The other package has found the page of access n of the group that stands first on its route absent, n from 0: the
group waits, whole, and its task suspends (R28, R343, R348, R395). -/
def groupAbsent (s : State) (core : CoreId) (c : CtxNo) (pkg : BitVec 9) (n : Nat) : State :=
  let goesOn (o : PodOut) : Bool := match o with | .access _ _ _ _ _ _ _ _ more => more | _ => false
  let os := awayOf core c pkg s.podOut
  match os[n]? with
  | some (.access _ _ _ eid va _ _ _ _) =>
    if (os.take n).all goesOn then
      s.onCore core fun u => effectAnswer u u c eid va .pageFault
    else s
  | _ => s

/-- POD_REMOTE_ACCESS (R393, R395). -/
def execPodRemoteAccess (x : PodAccess) (s : State) : Out :=
  .next (match x with
    | .answer core c pkg a =>
      match takeAway core c pkg s.podOut with
      | none => s
      | some (o, rest) => s.onCore core fun u => awayAnswer u c o rest a
    | .absent core c pkg n => groupAbsent s core c pkg n
    | .request src tag va op => (podGroup src [(tag, va, op)] s).getD s
    | .group src ops => (podGroup src ops s).getD s
    | .unsupported => dropPacket s)

/-! ### What comes from outside besides (log entry 57) -/

/-- A word of a memory struck: a second error in it is uncorrectable. -/
def strikeWord (f : Flip) (k : Core) : Core :=
  let same (g : Flip) : Bool := decide (g.arr = f.arr) && g.word == f.word
  { k with flips := if k.flips.any same then k.flips.map fun g => if same g then { g with bad := true } else g
                    else k.flips ++ [f] }

def spoilSampler (peer : CoreId) (l : List Sampler) : List Sampler :=
  l.map fun x => if x.peer = peer then { x with bad := true } else x

/-- The oldest spray copy on a route, or the oldest other request, before everything in the mesh (R328). -/
def overtake (r : Route) (spray : Bool) (s : State) : State :=
  match (if spray then sprayHead s r else requestHead s r) with
  | none => s
  | some (p, rest) => { s with net := p :: rest }

/-- A boot load as core src sends it (R316, R358): sprayed along a tree of its die, or to a core. -/
def bootMsg (src : CoreId) (id : BitVec 32) (x : Bool × BitVec 12 × List Byte) : Msg :=
  { h0 := BitVec.ofNat 64 (252 + b2n x.1 * 2 ^ 15 + x.2.2.length / 32 * 2 ^ 24 + x.2.1.toNat * 2 ^ 32 + src.toNat * 2 ^ 44)
    h1 := id.setWidth 64, payload := x.2.2, cap := none, coded := none, cls := 0, priv := true, quad := false
    launch := none, kept := none, arg := 0, tries := 1 }

/-- A boot load sent by the supervisor that serves a die (R351, R358); its payload in whole 32-byte units, at most 32
(R316). What the firmware sends comes from outside (R357, R359; log entry 59), once that supervisor runs. -/
def sendBootLoad (die : BitVec 2) (s0 : State) (x : Bool × BitVec 12 × List Byte) : State :=
  match supFor s0 die with
  | none => s0
  | some src =>
  if x.2.2.length % 32 ≠ 0 ∨ 32 < x.2.2.length / 32 ∨ s0.started.contains src = false then s0
  else
  let s := (takeId s0 src).2
  let m := bootMsg src (takeId s0 src).1 x
  if x.1 then
    match sprayPaths s src m with
    | none => s.report (.error src 327 m.h1.toNat)
    | some ls => ls.foldl (fun t l =>
        { t.sendPkt { route := ⟨.core src, .core l.1⟩, who := .ni, eid := t.eids, more := false, spray := true
                      tag := ⟨0, 0, true⟩, va := 0, body := .op (.msg m) } with eids := t.eids + 1 }) s
  else sendFrom s src .ni x.2.1 (.msg m)

/-- The release of a fabric frame by its creator, from a host (R27). DESIGN CHOICE (log entry 101): R397 gives it no
OP, so it has no response; it is an access like the host's others, with the tag of its credential (R396), and one that
is rejected leaves an error record. Unsafe. -/
def hostRelease (s : State) (endpoint : BitVec 16) (va : Nat) : State :=
  match credOf s endpoint with
  | none => dropPacket s
  | some c =>
    if va / 2 ^ 56 ≠ 0 ∨ homeOf va ≠ s.pkgNo ∨ va % 64 ≠ 0 then s.report (.error (supOf 0) 398 va)
    else
      match rangeXlate s (credTag c) .write va 16 with
      | (.inr .held, _) => s
      | (.inr _, u) => u.report (.error (supOf 0) 398 va)
      | (.inl pas, u) =>
        match outsideNotes u 5 [] (outsideLines pas va) with
        | none => s
        | some t => releaseFabric t (pas.headD 0) none

/-- What comes from outside, at the core in focus. -/
def fromOutside (o : Outside) (s : State) : State :=
  match o with
  | .flip f => s.modCore (strikeWord f)
  | .symbols w errs => setErrs s w (symbolsOf (cwErrs s w ++ errs))
  | .parity send peer => s.modCore fun k =>
      if send then { k with txSamp := spoilSampler peer k.txSamp } else { k with rxSamp := spoilSampler peer k.rxSamp }
  | .powerPort reg bytes => if 7 < reg then s else ((regWrite s reg bytes).map atPort).getD s
  | .podcfg x => { s with podcfg := x }
  | .hostRelease e va => hostRelease s e va.toNat
  | .overtake r spray => overtake r spray s
  | .image => if s.bootAt = .rom then { s with bootAt := .image } else s
  | .bootLoads die loads => if s.bootAt = .image ∨ s.booted = true then loads.foldl (sendBootLoad die) s else s

end Sys2Proof.Machine
end

