-- ==== Sys2Proof/Machine/Sched.lean ====
section
/-! DEFINITION. Issue at a core and what happens by itself: the accounting after an instruction (R187, R283),
a line transfer as an event (R205), the event that comes next when nothing outside decides it (log entry
4). -/
namespace Sys2Proof.Machine

/-! ### Issue (R187) -/

/-- An instruction of the current context is about to be counted toward its implicit commit (R283). -/
def countIssue (s : State) : State := s.modCtx fun x => { x with sinceCommit := x.sinceCommit + 1 }

/-- Cycles of the 4 GHz clock that the next core cycle takes (R375), what is left of a stretch with them (R376). -/
def cycleTicks (now : Nat) (k : Core) : Nat := (k.since - now) + (match k.clock with | .run | .stretched => 1 | .slowed | .paused => 4)

/-- The count taken back of an instruction that stalled. -/
def uncount (s : State) (c : CtxNo) : State := s.modCtxAt c fun x => { x with sinceCommit := x.sinceCommit - 1 }

/-- The other contexts of the core look again at what they stall on. -/
def wakeOthers (s : State) (c : CtxNo) : State :=
  ([c + 1, c + 2, c + 3] : List CtxNo).foldl (fun t k => t.modCtxAt k fun x => { x with asleep := false }) s

/-- The power class of the task a context runs. -/
def classOf (x : Ctx) : Option (BitVec 3) := x.task.map taskClass

/-- A cycle in which a core issued counted for a class, in the window at hand (R383). -/
def addCycle (c : CoreId) (cls : BitVec 3) (l : Table (Vector Nat 8)) : Table (Vector Nat 8) :=
  tmod (Vector.replicate 8 0) l c.toNat fun v =>
    v.set cls.toNat (v[cls.toNat]'(by have := cls.isLt; omega) + 1) (by have := cls.isLt; omega)

def countClass (s : State) (cls : BitVec 3) : State :=
  s.modPower fun p => { p with issued := addCycle s.coreId cls p.issued }

/-! ### Time passes -/

/-- Whether a context of a core stalls at a queue (R166). -/
def atQueues (k : Core) : Bool := k.ctxs.any fun x => match x.stall with | some (.queue _ _) => true | _ => false

/-- n cycles of the queues of the core in focus; four end every operation that may end (R166). -/
def queueCycles : Nat → State → State
  | 0, s => s
  | n + 1, s => queueCycles n (queueRounds none s)

/-- The cycles of its queues that a core has from one time to another, as many as matter. -/
def queueCount (t0 t1 : Nat) (k : Core) : Nat := if atQueues k then min 4 (coreCycles t1 k - coreCycles t0 k) else 0

/-- What falls due at the banks of every core since a time (R204, R208, R217). -/
def banksPass (t0 : Nat) (s : State) : State :=
  let go (t : State) (p : Nat × Core) : State := t.onCore (BitVec.ofNat 12 p.1) (bankCycles (coreCycles t0 p.2))
  (s.others.filter fun p => banksLive p.2).foldl go (bankCycles (coreCycles t0 s.core) s)

/-- Whether the message in the park slot of a core has been there too long (R202). -/
def parkOver (now : Nat) (k : Core) : Bool := match k.park with | none => false | some (_, _, t) => decide (t + 4096 ≤ now)

/-- The messages that have been in a park slot for 2,048 router cycles are refused (R202). -/
def parksPass (s : State) : State :=
  let out (t : State) : State := (tryParkTimeout t).getD t
  (s.others.filter fun p => parkOver s.now p.2).foldl (fun t p => t.onCore (BitVec.ofNat 12 p.1) out)
    (if parkOver s.now s.core then out s else s)

/-- n ticks of the 4 GHz clock pass: the cycles of the queues of the other cores (R166), then what falls due at every
core, before anything else of the present cycle: arrivals and grants at banks (R204, R208, R217), the end of a park
(R202), re-reads (R250). -/
def passTime (n : Nat) (s : State) : State :=
  let go (t : State) (p : Nat × Core) : State := t.onCore (BitVec.ofNat 12 p.1) (queueCycles (queueCount s.now (s.now + n) p.2))
  let t := (s.others.filter fun p => atQueues p.2).foldl go s
  catchUp (parksPass (banksPass s.now { t with now := s.now + n }))

/-- n ticks pass without an instruction of the core in focus: the cycles of its queues as well. -/
def waitTime (n : Nat) (s : State) : State := passTime n (queueCycles (queueCount s.now (s.now + n) s.core) s)

/-- The context that issues is current (R187): the count of what it issues starts where it has just become so, and
again after 256 with no other ready. -/
def countTurn (k : Core) : Core :=
  { k with turn := k.cur, issued := if k.cur = k.turn ∧ k.issued < 256 then k.issued + 1 else 1 }

/-- A cycle of the core in focus passes with an instruction of a class, which has made the operations of queue q, if
it names one; a stretched cycle has ended with it. -/
def passCycle (cls : Option (BitVec 3)) (q : Option (BitVec 2)) (s : State) : State :=
  let r := if atQueues s.core then queueRounds q s else s
  let t := match cls with | none => r | some c => countClass r c
  let u := (passTime (cycleTicks s.now s.core) t).modCore countTurn
  if u.core.clock = .stretched then u.clockUpdate else u

/-- Whether a context stopped at a page fault or a fetch miss: that instruction is not done (R28, R290). -/
def unfinished (x : Ctx) : Bool :=
  match x.phase with
  | .suspended (.pageFault _) | .suspended (.fetchMiss _) => true
  | _ => false

/-- Whether the bank of a context of the core in focus rewinds (R217). -/
def rewinds (s : State) (c : CtxNo) : Bool :=
  s.core.banks.any fun e => e.2.rewind && (match e.2.holder with | some (.head d _) => decide (d = c) | _ => false)

/-- Whether a context stalls in a WAIT or at a queue, where another rule ends its instruction (R165, R166). -/
def stallsIssued (x : Ctx) : Bool := match x.stall with | some (.barrier _) | some (.queue _ _) => true | _ => false

/-- Whether an instruction of context c has issued and ends later, with the answer or the phase it waits for, at its
queue, or with its bank's rewind: s0 before it, s after. -/
def endsLater (s0 s : State) (c : CtxNo) : Bool :=
  (!(stallsIssued (s0.ctxAt c)) && stallsIssued (s.ctxAt c)) || ((s0.ctxAt c).pending.isNone && (s.ctxAt c).pending.isSome) ||
    ((s0.ctxAt c).frefWait.isNone && (s.ctxAt c).frefWait.isSome) || (!(rewinds s0 c) && rewinds s c)

/-- What follows the issue of an instruction by context c, of a task of that class, at queue q (R166, R187, R283,
R383), s0 before it: one that stalled takes no time; else one cycle passes, with the issue of one that ends later too.
One that a restartable fault stopped is not counted, and commits nothing (R28, R290). Another context has its try
where c no longer goes on, or has issued 256. -/
def afterIssue (s0 : State) (c : CtxNo) (cls : Option (BitVec 3)) (q : Option (BitVec 2)) (s : State) : State :=
  if (s.ctxAt c).asleep then
    let t := uncount s c
    rotate (if endsLater s0 t c then settleAll (wakeOthers (passCycle cls q t) c) else t)
  else
    let t := if unfinished (s.ctxAt c) then uncount s c else implicitCommit s c
    let u := settleAll (wakeOthers (passCycle cls q t) c)
    if !(ready (u.ctxAt c)) || decide (256 ≤ u.core.issued) then rotate u else u

/-- f on the state an outcome goes on with. -/
def andThen (f : State → State) : Out → Out
  | .next t => .next (f t)
  | .fault x => .fault x
  | .refused x => .refused x

/-! ### A line transfer as an event (R205) -/

/-- The meaning of an instruction that transfers a line, with its head. -/
def lineForm (i : Instr) : Option (BitVec 2 × (State → Out)) :=
  match i with
  | .rds d h => some (h, execRds d h)
  | .wrs a h => some (h, execWrs a h)
  | _ => none

def Issue.lineForm : Issue → Option (BitVec 2 × (State → Out))
  | .run i => Machine.lineForm i
  | .trap _ _ | .absent | .miss | .held | .lost => none

/-- LINE_TRANSFER of a context: the RDS or WRS it stands at, once its head is aligned; an engine fault that is due
comes first (R275). -/
def contextTransfer (s : State) (c : CtxNo) : Out :=
  let t := s.modCore fun k => { k with cur := c }
  if decide ((s.ctxAt c).phase = .running) && (s.ctxAt c).pending.isNone then
    match t.ctx.trapDue with
    | some (k, n, adds) => .next (abortWith t c k n adds)
    | none =>
      match issueOf t with
      | (i, u0) =>
        match i.lineForm with
        | some (h, f) =>
          let u := dueGrant u0 (cur u0 h)
          if alignedAt u (cur u h) then andThen (afterIssue t c (classOf (s.ctxAt c)) none) (f (countIssue u)) else .next s
        | none => .next s
  else .next s

/-- LINE_TRANSFER (R205): of a context, or of the next block of a track command. -/
def execLineTransfer (who : Agent) (s : State) : Out :=
  match who with
  | .ctx c => contextTransfer s c
  | .engine =>
    match s.core.cprun with
    | none => .next s
    | some r => .next (if cpIsTrack r.cmd.dw then (tryCopyStart s).getD s else s)

/-! ### What happens by itself (log entry 4) -/

/-- A reply as the core it comes to takes it. -/
def takeAny (p : Packet) (s : State) : State :=
  match p.body with
  | .loadReply bs => takeLoadReply p bs s
  | .atomicReply _ | .stale | .poisoned => takeAtomicReply p s
  | .ack => takeAck p s
  | .nack c o => takeNack p c o s
  | .err c m u => takeErr p c m u false s
  | .op _ => s

/-- The packet at the head of some route that can be delivered. -/
def tryPacket (s : State) : Option State :=
  firstSome (fun p =>
    if isRequest p then tryRequest (fun _ => true) p.route s
    else tryReply (fun _ => true) takeAny p.route s) s.net

/-- The first entry of a list for which a rule goes on. -/
def tryEach {α : Type} (f : α → State → Option State) (l : List α) (s : State) : Option State := firstSome (fun x => f x s) l

def bankNumbers (k : Core) : List (BitVec 8) := k.banks.map fun b => BitVec.ofNat 8 b.1

/-- A gang member that has left, and whose effects are all acknowledged, arrives (R298). -/
def trySettle (c : CtxNo) (s : State) : Option State :=
  let x := s.ctxAt c
  if x.phase = .leaving ∧ hoopQuiet x = true ∧ drained s (wroteIn c) = true ∧ (exitBar x).isSome = true then some (settle s c)
  else none

/-- What may happen at the core in focus, in the order it is looked for. -/
def coreRules : List (State → Option State) :=
  [tryPacket, tryEach tryChunkSend [0, 1, 2, 3], tryLocalPost, tryParkValid, tryHeldDrain, tryEach trySettle [0, 1, 2, 3],
   tryEach tryRelease [0, 1, 2, 3], tryEndReport, tryDispatch, tryMxStart, tryMxComplete, tryKStep, tryReread, tryGiveUp,
   tryCopyComplete, tryCopyStart]

/-- The messages that wait to be sent again: of the core in focus, and of its die's pricking. -/
def resendCount (s : State) : Nat := s.core.resend.length + (s.die (dieOf s.coreId)).resend.length

/-- What may happen at its banks, at barriers, at the prickings and at boot. -/
def otherRules : List (State → Option State) :=
  [fun s => tryEach tryGrant (bankNumbers s.core) s, fun s => tryEach tryAligned (bankNumbers s.core) s,
   fun s => tryEach (fun b t => tryCompletion t b) (s.bars.map Prod.fst) s, tryEach tryStart [0, 1, 2],
   tryEach trySelect [0, 1, 2], fun s => tryEach tryResend (List.range (resendCount s)) s, tryBoot]

/-- What happens at the core in focus and between the cores: the first rule that goes on. -/
def internal (s : State) : Option State :=
  match firstSome (fun f => f s) coreRules with
  | some t => some t
  | none => firstSome (fun f => f s) otherRules

/-- Nothing can happen: a cycle passes, and the contexts that stall look again. -/
def idle (s : State) : State := wakeAll (waitTime 1 s)

/-! ### The instruction of a core -/

/-- The current context once a context that has no turn has given way (R187). -/
def takeTurn (s : State) : State := if ready s.ctx then s else rotate s

/-- The queue an instruction names (R166). -/
def Issue.queue : Issue → Option (BitVec 2)
  | .run (.qpush _ q) | .run (.qpop _ q) | .run (.qtry _ _ q) | .run (.qcnt _ q) => some q
  | _ => none

/-- What the current context's turn comes to where no instruction is there to run (R28, R29, R102, R197, R350): a
trap, an absent page, a fetch miss, a fetch that replay holds back, or the loss of the core. Else the instruction
runs, f. -/
def issueAs (f : Instr → State → Out) (s : State) : Issue → Out
  | .run i => f i s
  | .trap c k => .next (abortWith s s.core.cur c k [])
  | .absent => faultOut s (.pageFault s.ctx.pc)
  | .miss => faultOut s (.fetchMiss s.ctx.pc)
  | .held => .next (s.stallAs .fetch)
  | .lost => killOut s

/-- An engine fault taken at an instruction boundary (R275). -/
def takeDue (s : State) : Option State :=
  match s.ctx.trapDue with
  | none => none
  | some (c, k, adds) => some (abortWith s s.core.cur c k adds)

/-- The pending layouts of the core in focus whose area is empty come into force (R193). -/
def layoutsApply (s : State) : State :=
  let t := (tryFrameApply s).getD s
  (tryInboxApply t).getD t

/-- Whether a core has a layout pending. -/
def layoutPends (k : Core) : Bool := k.framecfg.pend.isSome || k.inboxcfg.pend.isSome

/-- The cores at which an end of a task has met an uncorrectable error in the slot 0 of its frame are lost (R33,
R191). -/
def reap (s : State) : State :=
  let t := if s.core.doomed then killCore s else s
  (t.others.filter fun p => p.2.doomed).foldl (fun u p => u.onCore (BitVec.ofNat 12 p.1) killCore) t

/-- Every pending layout whose area is empty by now in force, which a core's dispatch and messages may wait for
(R193). -/
def layoutsPass (s : State) : State :=
  (s.others.filter fun p => layoutPends p.2).foldl (fun u p => u.onCore (BitVec.ofNat 12 p.1) layoutsApply) (layoutsApply s)

/-- The core in focus dispatches nothing while the frame of the record it chooses does not fit (R12). -/
def frameWaits (s : State) : State := if frameStarves s.core then s.modCore fun k => { k with frameWait := true } else s

/-- The same at every core. -/
def framesPass (s : State) : State :=
  (s.others.filter fun p => frameStarves p.2).foldl (fun u p => u.onCore (BitVec.ofNat 12 p.1) frameWaits) (frameWaits s)

/-- What every step ends with: the cores lost with it, the layouts that come into force (R193), the choices that find
no frame space (R12). -/
def endStep (s : State) : State := framesPass (layoutsPass (reap s))

end Sys2Proof.Machine
end

