-- ==== Sys2Proof/Machine/Dispatch.lean ====
section
/-! DEFINITION. The dispatch: the one meaning of each instruction and event. -/
namespace Sys2Proof.Machine

def exec (i : Instr) (s : State) : Host.Outcome State Fault Refusal :=
  match i with
  | .add d a b => Sys2Proof.Machine.execAdd d a b s
  | .sub d a b => Sys2Proof.Machine.execSub d a b s
  | .and d a b => Sys2Proof.Machine.execAnd d a b s
  | .or d a b => Sys2Proof.Machine.execOr d a b s
  | .xor d a b => Sys2Proof.Machine.execXor d a b s
  | .andn d a b => Sys2Proof.Machine.execAndn d a b s
  | .orn d a b => Sys2Proof.Machine.execOrn d a b s
  | .sll d a b => Sys2Proof.Machine.execSll d a b s
  | .srl d a b => Sys2Proof.Machine.execSrl d a b s
  | .sra d a b => Sys2Proof.Machine.execSra d a b s
  | .rol d a b => Sys2Proof.Machine.execRol d a b s
  | .ror d a b => Sys2Proof.Machine.execRor d a b s
  | .slt d a b => Sys2Proof.Machine.execSlt d a b s
  | .sltu d a b => Sys2Proof.Machine.execSltu d a b s
  | .min d a b => Sys2Proof.Machine.execMin d a b s
  | .max d a b => Sys2Proof.Machine.execMax d a b s
  | .minu d a b => Sys2Proof.Machine.execMinu d a b s
  | .maxu d a b => Sys2Proof.Machine.execMaxu d a b s
  | .mul d a b => Sys2Proof.Machine.execMul d a b s
  | .mulhi d a b => Sys2Proof.Machine.execMulhi d a b s
  | .mulhin d a b => Sys2Proof.Machine.execMulhin d a b s
  | .mulhix d a b => Sys2Proof.Machine.execMulhix d a b s
  | .quo d a b => Sys2Proof.Machine.execQuo d a b s
  | .quon d a b => Sys2Proof.Machine.execQuon d a b s
  | .rmd d a b => Sys2Proof.Machine.execRmd d a b s
  | .rmdn d a b => Sys2Proof.Machine.execRmdn d a b s
  | .clz d a => Sys2Proof.Machine.execClz d a s
  | .ctz d a => Sys2Proof.Machine.execCtz d a s
  | .popc d a => Sys2Proof.Machine.execPopc d a s
  | .bswap d a => Sys2Proof.Machine.execBswap d a s
  | .sextb d a => Sys2Proof.Machine.execSextb d a s
  | .sexth d a => Sys2Proof.Machine.execSexth d a s
  | .sextw d a => Sys2Proof.Machine.execSextw d a s
  | .addi d a im => Sys2Proof.Machine.execAddi d a im s
  | .andi d a im => Sys2Proof.Machine.execAndi d a im s
  | .ori d a im => Sys2Proof.Machine.execOri d a im s
  | .xori d a im => Sys2Proof.Machine.execXori d a im s
  | .slli d a n => Sys2Proof.Machine.execSlli d a n s
  | .srli d a n => Sys2Proof.Machine.execSrli d a n s
  | .srai d a n => Sys2Proof.Machine.execSrai d a n s
  | .slti d a im => Sys2Proof.Machine.execSlti d a im s
  | .sltiu d a im => Sys2Proof.Machine.execSltiu d a im s
  | .liz d q im => Sys2Proof.Machine.execLiz d q im s
  | .lik d q im => Sys2Proof.Machine.execLik d q im s
  | .adpc d im => Sys2Proof.Machine.execAdpc d im s
  | .beq a b x => Sys2Proof.Machine.execBeq a b x s
  | .bne a b x => Sys2Proof.Machine.execBne a b x s
  | .blt a b x => Sys2Proof.Machine.execBlt a b x s
  | .bge a b x => Sys2Proof.Machine.execBge a b x s
  | .bltu a b x => Sys2Proof.Machine.execBltu a b x s
  | .bgeu a b x => Sys2Proof.Machine.execBgeu a b x s
  | .jal x => Sys2Proof.Machine.execJal x s
  | .jalr d a im => Sys2Proof.Machine.execJalr d a im s
  | .bsig a t x => Sys2Proof.Machine.execBsig a t x s
  | .bmaskNone v x => Sys2Proof.Machine.execBmaskNone v x s
  | .bmaskAny v x => Sys2Proof.Machine.execBmaskAny v x s
  | .bmaskAll v x => Sys2Proof.Machine.execBmaskAll v x s
  | .bmaskNonec v x => Sys2Proof.Machine.execBmaskNonec v x s
  | .bmaskAnyc v x => Sys2Proof.Machine.execBmaskAnyc v x s
  | .bmaskAllc v x => Sys2Proof.Machine.execBmaskAllc v x s
  | .lb d a im => Sys2Proof.Machine.execLb d a im s
  | .lbu d a im => Sys2Proof.Machine.execLbu d a im s
  | .lh d a im => Sys2Proof.Machine.execLh d a im s
  | .lhu d a im => Sys2Proof.Machine.execLhu d a im s
  | .lw d a im => Sys2Proof.Machine.execLw d a im s
  | .lwu d a im => Sys2Proof.Machine.execLwu d a im s
  | .ld d a im => Sys2Proof.Machine.execLd d a im s
  | .sb d a im => Sys2Proof.Machine.execSb d a im s
  | .sh d a im => Sys2Proof.Machine.execSh d a im s
  | .sw d a im => Sys2Proof.Machine.execSw d a im s
  | .sd d a im => Sys2Proof.Machine.execSd d a im s
  | .fadd d a b p r => Sys2Proof.Machine.execFadd d a b p r s
  | .fsub d a b p r => Sys2Proof.Machine.execFsub d a b p r s
  | .fmul d a b p r => Sys2Proof.Machine.execFmul d a b p r s
  | .fdiv d a b p r => Sys2Proof.Machine.execFdiv d a b p r s
  | .fsqrt d a p r => Sys2Proof.Machine.execFsqrt d a p r s
  | .fmin d a b p => Sys2Proof.Machine.execFmin d a b p s
  | .fmax d a b p => Sys2Proof.Machine.execFmax d a b p s
  | .feq d a b p => Sys2Proof.Machine.execFeq d a b p s
  | .flt d a b p => Sys2Proof.Machine.execFlt d a b p s
  | .fle d a b p => Sys2Proof.Machine.execFle d a b p s
  | .fclass d a p => Sys2Proof.Machine.execFclass d a p s
  | .fcps d a b p => Sys2Proof.Machine.execFcps d a b p s
  | .fcpsn d a b p => Sys2Proof.Machine.execFcpsn d a b p s
  | .fcpsx d a b p => Sys2Proof.Machine.execFcpsx d a b p s
  | .fcvti d a p r => Sys2Proof.Machine.execFcvti d a p r s
  | .fcvtu d a p r => Sys2Proof.Machine.execFcvtu d a p r s
  | .fcvtf d a p r => Sys2Proof.Machine.execFcvtf d a p r s
  | .fcvtfu d a p r => Sys2Proof.Machine.execFcvtfu d a p r s
  | .fcvtp d a p r => Sys2Proof.Machine.execFcvtp d a p r s
  | .fsig d a p => Sys2Proof.Machine.execFsig d a p s
  | .fsetsig d a b p => Sys2Proof.Machine.execFsetsig d a b p s
  | .frint d a p r => Sys2Proof.Machine.execFrint d a p r s
  | .fmvi d a p => Sys2Proof.Machine.execFmvi d a p s
  | .fma d a b c p r => Sys2Proof.Machine.execFma d a b c p r s
  | .fms d a b c p r => Sys2Proof.Machine.execFms d a b c p r s
  | .fnma d a b c p r => Sys2Proof.Machine.execFnma d a b c p r s
  | .fnms d a b c p r => Sys2Proof.Machine.execFnms d a b c p r s
  | .aadd d a b y o z => Sys2Proof.Machine.execAadd d a b y o z s
  | .aand d a b y o z => Sys2Proof.Machine.execAand d a b y o z s
  | .aor d a b y o z => Sys2Proof.Machine.execAor d a b y o z s
  | .axor d a b y o z => Sys2Proof.Machine.execAxor d a b y o z s
  | .amin d a b y o z => Sys2Proof.Machine.execAmin d a b y o z s
  | .amax d a b y o z => Sys2Proof.Machine.execAmax d a b y o z s
  | .aminu d a b y o z => Sys2Proof.Machine.execAminu d a b y o z s
  | .amaxu d a b y o z => Sys2Proof.Machine.execAmaxu d a b y o z s
  | .aswp d a b y o z => Sys2Proof.Machine.execAswp d a b y o z s
  | .acas d a b y o z => Sys2Proof.Machine.execAcas d a b y o z s
  | .afadd d a b y o z => Sys2Proof.Machine.execAfadd d a b y o z s
  | .ldf d n y => Sys2Proof.Machine.execLdf d n y s
  | .stf d n y => Sys2Proof.Machine.execStf d n y s
  | .ldfa d n y => Sys2Proof.Machine.execLdfa d n y s
  | .stfr d n y => Sys2Proof.Machine.execStfr d n y s
  | .fadr d n y => Sys2Proof.Machine.execFadr d n y s
  | .fref n => Sys2Proof.Machine.execFref n s
  | .frel n => Sys2Proof.Machine.execFrel n s
  | .dspl d n => Sys2Proof.Machine.execDspl d n s
  | .dsps d n => Sys2Proof.Machine.execDsps d n s
  | .tsave d a im => Sys2Proof.Machine.execTsave d a im s
  | .trestore d a im => Sys2Proof.Machine.execTrestore d a im s
  | .vtsave d a im => Sys2Proof.Machine.execVtsave d a im s
  | .vtrestore d a im => Sys2Proof.Machine.execVtrestore d a im s
  | .send d a b c => Sys2Proof.Machine.execSend d a b c s
  | .sendm d a b c => Sys2Proof.Machine.execSendm d a b c s
  | .cdec a b => Sys2Proof.Machine.execCdec a b s
  | .spawn d a b c => Sys2Proof.Machine.execSpawn d a b c s
  | .spawnCap d a b c => Sys2Proof.Machine.execSpawnCap d a b c s
  | .sev a => Sys2Proof.Machine.execSev a s
  | .arrive d y im => Sys2Proof.Machine.execArrive d y im s
  | .wait a y im => Sys2Proof.Machine.execWait a y im s
  | .btest d a y im => Sys2Proof.Machine.execBtest d a y im s
  | .qpush a q => Sys2Proof.Machine.execQpush a q s
  | .qpop d q => Sys2Proof.Machine.execQpop d q s
  | .qtry d a q => Sys2Proof.Machine.execQtry d a q s
  | .qcnt d q => Sys2Proof.Machine.execQcnt d q s
  | .hbind a h => Sys2Proof.Machine.execHbind a h s
  | .hfree h => Sys2Proof.Machine.execHfree h s
  | .seek a h => Sys2Proof.Machine.execSeek a h s
  | .hwait h => Sys2Proof.Machine.execHwait h s
  | .rds d h => Sys2Proof.Machine.execRds d h s
  | .wrs a h => Sys2Proof.Machine.execWrs a h s
  | .rwd h => Sys2Proof.Machine.execRwd h s
  | .hstat d h => Sys2Proof.Machine.execHstat d h s
  | .mxc a => Sys2Proof.Machine.execMxc a s
  | .mxr d a c r h f b => Sys2Proof.Machine.execMxr d a c r h f b s
  | .mxw c l => Sys2Proof.Machine.execMxw c l s
  | .mxs d c => Sys2Proof.Machine.execMxs d c s
  | .cpc a => Sys2Proof.Machine.execCpc a s
  | .cps d => Sys2Proof.Machine.execCps d s
  | .rep c l d a b => Sys2Proof.Machine.execRep c l d a b s
  | .srr d y => Sys2Proof.Machine.execSrr d y s
  | .srw a y => Sys2Proof.Machine.execSrw a y s
  | .srx d a y => Sys2Proof.Machine.execSrx d a y s
  | .trap c => Sys2Proof.Machine.execTrap c s
  | .vfadd x t => Sys2Proof.Machine.execVfadd x t s
  | .vfsub x t => Sys2Proof.Machine.execVfsub x t s
  | .vfmul x t => Sys2Proof.Machine.execVfmul x t s
  | .vfdiv x t => Sys2Proof.Machine.execVfdiv x t s
  | .vfsqrt x t => Sys2Proof.Machine.execVfsqrt x t s
  | .vfmin x t => Sys2Proof.Machine.execVfmin x t s
  | .vfmax x t => Sys2Proof.Machine.execVfmax x t s
  | .vfabs x t => Sys2Proof.Machine.execVfabs x t s
  | .vfneg x t => Sys2Proof.Machine.execVfneg x t s
  | .vadd x t => Sys2Proof.Machine.execVadd x t s
  | .vsub x t => Sys2Proof.Machine.execVsub x t s
  | .vmul x t => Sys2Proof.Machine.execVmul x t s
  | .vmulh x t => Sys2Proof.Machine.execVmulh x t s
  | .vand x t => Sys2Proof.Machine.execVand x t s
  | .vor x t => Sys2Proof.Machine.execVor x t s
  | .vxor x t => Sys2Proof.Machine.execVxor x t s
  | .vsll x t => Sys2Proof.Machine.execVsll x t s
  | .vsrl x t => Sys2Proof.Machine.execVsrl x t s
  | .vsra x t => Sys2Proof.Machine.execVsra x t s
  | .vmin x t => Sys2Proof.Machine.execVmin x t s
  | .vmax x t => Sys2Proof.Machine.execVmax x t s
  | .vminu x t => Sys2Proof.Machine.execVminu x t s
  | .vmaxu x t => Sys2Proof.Machine.execVmaxu x t s
  | .vadds x t => Sys2Proof.Machine.execVadds x t s
  | .vsubs x t => Sys2Proof.Machine.execVsubs x t s
  | .vfma x t => Sys2Proof.Machine.execVfma x t s
  | .vfms x t => Sys2Proof.Machine.execVfms x t s
  | .vfnma x t => Sys2Proof.Machine.execVfnma x t s
  | .vfnms x t => Sys2Proof.Machine.execVfnms x t s
  | .vdot2 x t => Sys2Proof.Machine.execVdot2 x t s
  | .vfeq x t => Sys2Proof.Machine.execVfeq x t s
  | .vflt x t => Sys2Proof.Machine.execVflt x t s
  | .vfle x t => Sys2Proof.Machine.execVfle x t s
  | .veq x t => Sys2Proof.Machine.execVeq x t s
  | .vne x t => Sys2Proof.Machine.execVne x t s
  | .vlt x t => Sys2Proof.Machine.execVlt x t s
  | .vltu x t => Sys2Proof.Machine.execVltu x t s
  | .mand d a b y t => Sys2Proof.Machine.execMand d a b y t s
  | .mor d a b y t => Sys2Proof.Machine.execMor d a b y t s
  | .mxor d a b y t => Sys2Proof.Machine.execMxor d a b y t s
  | .mandn d a b y t => Sys2Proof.Machine.execMandn d a b y t s
  | .mnot d a y t => Sys2Proof.Machine.execMnot d a y t s
  | .mpop d a y t => Sys2Proof.Machine.execMpop d a y t s
  | .mfirst d a y t => Sys2Proof.Machine.execMfirst d a y t s
  | .mset d b t => Sys2Proof.Machine.execMset d b t s
  | .vslideup x b t => Sys2Proof.Machine.execVslideup x b t s
  | .vslidedn x b t => Sys2Proof.Machine.execVslidedn x b t s
  | .vperm x b t => Sys2Proof.Machine.execVperm x b t s
  | .vbcast x b t => Sys2Proof.Machine.execVbcast x b t s
  | .vsel x t => Sys2Proof.Machine.execVsel x t s
  | .vcompress x y t => Sys2Proof.Machine.execVcompress x y t s
  | .vrsum d a m t => Sys2Proof.Machine.execVrsum d a m t s
  | .vrmax d a m t => Sys2Proof.Machine.execVrmax d a m t s
  | .vrmin d a m t => Sys2Proof.Machine.execVrmin d a m t s
  | .vradd d a m t => Sys2Proof.Machine.execVradd d a m t s
  | .vrand d a m t => Sys2Proof.Machine.execVrand d a m t s
  | .vcvt x src dst r => Sys2Proof.Machine.execVcvt x src dst r s
  | .vcvts x src dst r => Sys2Proof.Machine.execVcvts x src dst r s
  | .vld v a m u z => Sys2Proof.Machine.execVld v a m u z s
  | .vlds v a b m u z => Sys2Proof.Machine.execVlds v a b m u z s
  | .vldp v p m u z => Sys2Proof.Machine.execVldp v p m u z s
  | .vst v a m z n => Sys2Proof.Machine.execVst v a m z n s
  | .vsts v a b m z n => Sys2Proof.Machine.execVsts v a b m z n s
  | .vstp v p m z n => Sys2Proof.Machine.execVstp v p m z n s
  | .vgather v a b m u z => Sys2Proof.Machine.execVgather v a b m u z s
  | .vscatter v a b m z => Sys2Proof.Machine.execVscatter v a b m z s
  | .madd3 d a b t r => Sys2Proof.Machine.execMadd3 d a b t r s
  | .msub3 d a b t r => Sys2Proof.Machine.execMsub3 d a b t r s
  | .mmul3 d a b t r => Sys2Proof.Machine.execMmul3 d a b t r s
  | .mfma3 d a b t r => Sys2Proof.Machine.execMfma3 d a b t r s
  | .mmin3 d a b t => Sys2Proof.Machine.execMmin3 d a b t s
  | .mmax3 d a b t => Sys2Proof.Machine.execMmax3 d a b t s
  | .vsigm x b t => Sys2Proof.Machine.execVsigm x b t s
  | .vsigr x t => Sys2Proof.Machine.execVsigr x t s
  | .vsigw x t => Sys2Proof.Machine.execVsigw x t s
  | .vsplat d b m u t => Sys2Proof.Machine.execVsplat d b m u t s
  | .vins d a b t => Sys2Proof.Machine.execVins d a b t s
  | .vext d a b t => Sys2Proof.Machine.execVext d a b t s
  | .vmovv x t => Sys2Proof.Machine.execVmovv x t s
  | .implicitCommit c => Sys2Proof.Machine.execImplicitCommit c s
  | .recordPromotion k => Sys2Proof.Machine.execRecordPromotion k s
  | .watchdogExpiry c => Sys2Proof.Machine.execWatchdogExpiry c s
  | .contextRelease c => Sys2Proof.Machine.execContextRelease c s
  | .supervisorResume c upd => Sys2Proof.Machine.execSupervisorResume c upd s
  | .contextSave c => Sys2Proof.Machine.execContextSave c s
  | .contextRestore c => Sys2Proof.Machine.execContextRestore c s
  | .bandRelease b => Sys2Proof.Machine.execBandRelease b s
  | .recordDiscard b => Sys2Proof.Machine.execRecordDiscard b s
  | .framecfgWrite x => Sys2Proof.Machine.execFramecfgWrite x s
  | .inboxcfgWrite x => Sys2Proof.Machine.execInboxcfgWrite x s
  | .headpriWrite x => Sys2Proof.Machine.execHeadpriWrite x s
  | .shiftinjWrite x => Sys2Proof.Machine.execShiftinjWrite x s
  | .frmWrite c x => Sys2Proof.Machine.execFrmWrite c x s
  | .mxbudgetWrite x => Sys2Proof.Machine.execMxbudgetWrite x s
  | .mxgovWrite x => Sys2Proof.Machine.execMxgovWrite x s
  | .messageAccept r => Sys2Proof.Machine.execMessageAccept r s
  | .nackReceipt r => Sys2Proof.Machine.execNackReceipt r s
  | .nackResend k => Sys2Proof.Machine.execNackResend k s
  | .chunkSend c => Sys2Proof.Machine.execChunkSend c s
  | .remoteLoad r => Sys2Proof.Machine.execRemoteLoad r s
  | .loadReply r => Sys2Proof.Machine.execLoadReply r s
  | .remoteStore r => Sys2Proof.Machine.execRemoteStore r s
  | .remoteAtomic r => Sys2Proof.Machine.execRemoteAtomic r s
  | .atomicReply r => Sys2Proof.Machine.execAtomicReply r s
  | .acknowledgement r => Sys2Proof.Machine.execAcknowledgement r s
  | .errorPacket r => Sys2Proof.Machine.execErrorPacket r s
  | .poisonedPacket r => Sys2Proof.Machine.execPoisonedPacket r s
  | .linkRetry link => Sys2Proof.Machine.execLinkRetry link s
  | .sevLatchWrite r => Sys2Proof.Machine.execSevLatchWrite r s
  | .countdownDecrement r => Sys2Proof.Machine.execCountdownDecrement r s
  | .frameIncrement r => Sys2Proof.Machine.execFrameIncrement r s
  | .frameRelease r => Sys2Proof.Machine.execFrameRelease r s
  | .landingF32Add r => Sys2Proof.Machine.execLandingF32Add r s
  | .landingBf16Accumulate r => Sys2Proof.Machine.execLandingBf16Accumulate r s
  | .landingE4m3Widen r => Sys2Proof.Machine.execLandingE4m3Widen r s
  | .landingStridedScatter r => Sys2Proof.Machine.execLandingStridedScatter r s
  | .landingTranspose r => Sys2Proof.Machine.execLandingTranspose r s
  | .landingF32Max r => Sys2Proof.Machine.execLandingF32Max r s
  | .landingXor r => Sys2Proof.Machine.execLandingXor r s
  | .entryTableWrite r => Sys2Proof.Machine.execEntryTableWrite r s
  | .instructionStoreWrite r => Sys2Proof.Machine.execInstructionStoreWrite r s
  | .bootLoad r => Sys2Proof.Machine.execBootLoad r s
  | .prickingAppend r => Sys2Proof.Machine.execPrickingAppend r s
  | .gatherDrainTimeout k => Sys2Proof.Machine.execGatherDrainTimeout k s
  | .headClaimGrant bank => Sys2Proof.Machine.execHeadClaimGrant bank s
  | .bankAligned bank => Sys2Proof.Machine.execBankAligned bank s
  | .lineTransfer who => Sys2Proof.Machine.execLineTransfer who s
  | .trackRemap bank => Sys2Proof.Machine.execTrackRemap bank s
  | .barrierCompletion b => Sys2Proof.Machine.execBarrierCompletion b s
  | .barrierConfigWrite b cfg => Sys2Proof.Machine.execBarrierConfigWrite b cfg s
  | .queueControlWrite die q x => Sys2Proof.Machine.execQueueControlWrite die q x s
  | .prickingSelection die => Sys2Proof.Machine.execPrickingSelection die s
  | .startMessageSend die => Sys2Proof.Machine.execStartMessageSend die s
  | .sprayTreeWrite router tree mask => Sys2Proof.Machine.execSprayTreeWrite router tree mask s
  | .traceRingControlWrite p x entries => Sys2Proof.Machine.execTraceRingControlWrite p x entries s
  | .traceReplayTimeout p => Sys2Proof.Machine.execTraceReplayTimeout p s
  | .memoryLineWrite pa bytes => Sys2Proof.Machine.execMemoryLineWrite pa bytes s
  | .memoryLineRead pa errs => Sys2Proof.Machine.execMemoryLineRead pa errs s
  | .patrolScrub pa errs => Sys2Proof.Machine.execPatrolScrub pa errs s
  | .erasureRegisterWrite rank x => Sys2Proof.Machine.execErasureRegisterWrite rank x s
  | .frameTagWrite frame x => Sys2Proof.Machine.execFrameTagWrite frame x s
  | .rootTableWrite die space x => Sys2Proof.Machine.execRootTableWrite die space x s
  | .pageWalk va acc => Sys2Proof.Machine.execPageWalk va acc s
  | .thermalTrip die => Sys2Proof.Machine.execThermalTrip die s
  | .thermalClear die => Sys2Proof.Machine.execThermalClear die s
  | .telemetryFrame f => Sys2Proof.Machine.execTelemetryFrame f s
  | .measuringWindowClose base cores off => Sys2Proof.Machine.execMeasuringWindowClose base cores off s
  | .classSlowdown c => Sys2Proof.Machine.execClassSlowdown c s
  | .pcapWrite x => Sys2Proof.Machine.execPcapWrite x s
  | .classfloorWrite x => Sys2Proof.Machine.execClassfloorWrite x s
  | .vcurveWrite x => Sys2Proof.Machine.execVcurveWrite x s
  | .fcurveWrite x => Sys2Proof.Machine.execFcurveWrite x s
  | .regWrite q => Sys2Proof.Machine.execRegWrite q s
  | .regRead q => Sys2Proof.Machine.execRegRead q s
  | .load q => Sys2Proof.Machine.execLoad q s
  | .store q => Sys2Proof.Machine.execStore q s
  | .atomic q => Sys2Proof.Machine.execAtomic q s
  | .launchAppend q => Sys2Proof.Machine.execLaunchAppend q s
  | .accumulate q => Sys2Proof.Machine.execAccumulate q s
  | .podBarrierArrival id pkg x => Sys2Proof.Machine.execPodBarrierArrival id pkg x s
  | .podBarrierCompletion id x => Sys2Proof.Machine.execPodBarrierCompletion id x s
  | .podRemoteAccess x => Sys2Proof.Machine.execPodRemoteAccess x s
  | .firmwareUpdate ongoing => Sys2Proof.Machine.execFirmwareUpdate ongoing s
  | .hostCredentialInstall slot endpoint space gen => Sys2Proof.Machine.execHostCredentialInstall slot endpoint space gen s
  | .fkeep => Sys2Proof.Machine.execFkeep s
  | .exit => Sys2Proof.Machine.execExit s
  | .commit => Sys2Proof.Machine.execCommit s
  | .commitW => Sys2Proof.Machine.execCommitW s
  | .wfe => Sys2Proof.Machine.execWfe s
  | .fenceR => Sys2Proof.Machine.execFenceR s
  | .fenceW => Sys2Proof.Machine.execFenceW s
  | .fenceRw => Sys2Proof.Machine.execFenceRw s
  | .xfence => Sys2Proof.Machine.execXfence s
  | .cpw => Sys2Proof.Machine.execCpw s
  | .sret => Sys2Proof.Machine.execSret s
  | .eret => Sys2Proof.Machine.execEret s
  | .iflush => Sys2Proof.Machine.execIflush s
  | .issueQuantumExpiry => Sys2Proof.Machine.execIssueQuantumExpiry s
  | .taskDispatch => Sys2Proof.Machine.execTaskDispatch s
  | .framecfgApply => Sys2Proof.Machine.execFramecfgApply s
  | .inboxcfgApply => Sys2Proof.Machine.execInboxcfgApply s
  | .parkTimeout => Sys2Proof.Machine.execParkTimeout s
  | .localPostAccept => Sys2Proof.Machine.execLocalPostAccept s
  | .matrixCommandStart => Sys2Proof.Machine.execMatrixCommandStart s
  | .kStepComplete => Sys2Proof.Machine.execKStepComplete s
  | .tableReread => Sys2Proof.Machine.execTableReread s
  | .tableGiveUp => Sys2Proof.Machine.execTableGiveUp s
  | .matrixCommandComplete => Sys2Proof.Machine.execMatrixCommandComplete s
  | .bucketRefill => Sys2Proof.Machine.execBucketRefill s
  | .governorWindow => Sys2Proof.Machine.execGovernorWindow s
  | .copyCommandStart => Sys2Proof.Machine.execCopyCommandStart s
  | .copyFaultResume => Sys2Proof.Machine.execCopyFaultResume s
  | .copyCommandComplete => Sys2Proof.Machine.execCopyCommandComplete s
  | .taskEndReport => Sys2Proof.Machine.execTaskEndReport s
  | .coreKill => Sys2Proof.Machine.execCoreKill s
  | .packageReset => Sys2Proof.Machine.execPackageReset s
  | .cycleStretch => Sys2Proof.Machine.execCycleStretch s
  | .currentLimit => Sys2Proof.Machine.execCurrentLimit s
  | .telemetryFrameMissing => Sys2Proof.Machine.execTelemetryFrameMissing s
  | .failsafeEntry => Sys2Proof.Machine.execFailsafeEntry s
  | .failsafeTick => Sys2Proof.Machine.execFailsafeTick s
  | .classRestore => Sys2Proof.Machine.execClassRestore s
  | .hwholdClear => Sys2Proof.Machine.execHwholdClear s
  | .firmwareWatchdogExpiry => Sys2Proof.Machine.execFirmwareWatchdogExpiry s
  | .firmwareKick => Sys2Proof.Machine.execFirmwareKick s

end Sys2Proof.Machine
end

