-- ==== Sys2Proof/Machine/Step.lean ====
section
/-! DEFINITION. One step of the package (log entry 4), and a state whose next step runs a given word. -/
namespace Sys2Proof.Machine

/-- The current context issues one instruction (R34, R187). -/
def issue (s : State) : Host.Outcome State Fault Refusal :=
  match takeDue s with
  | some t => .next (rotate t)
  | none =>
    match issueOf s with
    | (i, u) => andThen (afterIssue s s.core.cur (classOf s.ctx) i.queue) (issueAs exec (countIssue u) i)

/-- The core in focus goes on by itself: an instruction, else what else can happen, else a cycle. -/
def goOn (s : State) : Host.Outcome State Fault Refusal :=
  let t := takeTurn s
  if ready t.ctx then issue t
  else
    match internal t with
    | some u => .next (wakeAll u)
    | none => .next (idle t)

/-- An entry of the agenda: its time passes, its core comes into focus, what comes from outside comes, its event
happens; without an event an instruction of that core. -/
def follow (a : Agendum) (s : State) : Host.Outcome State Fault Refusal :=
  if 0xC00 ≤ a.core.toNat then .fault .noSuchCore
  else
    let f := (waitTime a.wait s).focus a.core
    let t := match a.out with | none => f | some o => fromOutside o f
    match a.ev with
    | some i => andThen wakeAll (exec i t)
    | none =>
      let u := takeTurn t
      if ready u.ctx then issue u else .next (idle t)

/-- One step: the next entry of the agenda, or, without one, what happens by itself; then what a step ends with. -/
def step (s : State) : Host.Outcome State Fault Refusal :=
  andThen endStep (match s.agenda with
    | a :: rest => follow a { s with agenda := rest }
    | [] => goOn s)

/-- The entry a task has that runs a word placed by State.withFetchWord: privileged, from the start of the
instruction store. -/
def placedEntry : Entry := { d0 := 0xFF00000001000000, d1 := 0x200001 }

/-- That task's record. -/
def placedRecord : Record :=
  { cls := 0, msgid := 1, src := 1, pri := 0, band := 0, entryIx := 0, entry := placedEntry, arg := 0, place := 0, size := 64
    payOff := 64, payLen := 0, cap := none, kept := none, quad := false, launch := none, msg := none, arrived := 0
    front := 0, since := 0, retried := false, trapped := none, tag := ⟨0, 0, true⟩ }

/-- The state whose next step runs the instruction of bits w: its word stands at the start of the instruction
store of the core in focus, where context 0, which is current, runs a privileged task (log entry 8). -/
def State.withFetchWord (s : State) (nbits w : Nat) : State :=
  let k := s.core
  let x := k.ctxs[0]
  let y : Ctx := { x with pc := 0xFF00000001000000, phase := .running, task := some placedRecord, stall := none
                          asleep := false, pending := none, frefWait := none, replaying := false, body := [], caught := [], storing := none, evicted := false
                          lvDue := false
                          trapDue := none }
  { s with
    core := { freshWords .istore [0] k with
      cur := 0, turn := 0, issued := 0, ctxs := k.ctxs.set 0 y, istore := wrBytes k.istore 0 (leBytes 4 (w % 2 ^ nbits)) }
    rings := tmod Ring.reset s.rings (portNo (.istore s.coreId)) fun r => { r with replay := false }
    agenda := [] }

end Sys2Proof.Machine
end

