-- ==== Sys2Proof/Safety.lean ====
section
/-! DEFINITION. The terms claims are stated in: what an instruction completes with, every byte of the
machine's memories, what two states may differ in, the canonical form of the memories, the state a
claim about one core starts from. -/
namespace Sys2Proof

/-- Whether a row of the table has a word; the others are events (R34). -/
def Instr.hasWord : Instr → Bool
  | .add _ _ _ => true
  | .sub _ _ _ => true
  | .and _ _ _ => true
  | .or _ _ _ => true
  | .xor _ _ _ => true
  | .andn _ _ _ => true
  | .orn _ _ _ => true
  | .sll _ _ _ => true
  | .srl _ _ _ => true
  | .sra _ _ _ => true
  | .rol _ _ _ => true
  | .ror _ _ _ => true
  | .slt _ _ _ => true
  | .sltu _ _ _ => true
  | .min _ _ _ => true
  | .max _ _ _ => true
  | .minu _ _ _ => true
  | .maxu _ _ _ => true
  | .mul _ _ _ => true
  | .mulhi _ _ _ => true
  | .mulhin _ _ _ => true
  | .mulhix _ _ _ => true
  | .quo _ _ _ => true
  | .quon _ _ _ => true
  | .rmd _ _ _ => true
  | .rmdn _ _ _ => true
  | .clz _ _ => true
  | .ctz _ _ => true
  | .popc _ _ => true
  | .bswap _ _ => true
  | .sextb _ _ => true
  | .sexth _ _ => true
  | .sextw _ _ => true
  | .addi _ _ _ => true
  | .andi _ _ _ => true
  | .ori _ _ _ => true
  | .xori _ _ _ => true
  | .slli _ _ _ => true
  | .srli _ _ _ => true
  | .srai _ _ _ => true
  | .slti _ _ _ => true
  | .sltiu _ _ _ => true
  | .liz _ _ _ => true
  | .lik _ _ _ => true
  | .adpc _ _ => true
  | .beq _ _ _ => true
  | .bne _ _ _ => true
  | .blt _ _ _ => true
  | .bge _ _ _ => true
  | .bltu _ _ _ => true
  | .bgeu _ _ _ => true
  | .jal _ => true
  | .jalr _ _ _ => true
  | .bsig _ _ _ => true
  | .bmaskNone _ _ => true
  | .bmaskAny _ _ => true
  | .bmaskAll _ _ => true
  | .bmaskNonec _ _ => true
  | .bmaskAnyc _ _ => true
  | .bmaskAllc _ _ => true
  | .lb _ _ _ => true
  | .lbu _ _ _ => true
  | .lh _ _ _ => true
  | .lhu _ _ _ => true
  | .lw _ _ _ => true
  | .lwu _ _ _ => true
  | .ld _ _ _ => true
  | .sb _ _ _ => true
  | .sh _ _ _ => true
  | .sw _ _ _ => true
  | .sd _ _ _ => true
  | .fadd _ _ _ _ _ => true
  | .fsub _ _ _ _ _ => true
  | .fmul _ _ _ _ _ => true
  | .fdiv _ _ _ _ _ => true
  | .fsqrt _ _ _ _ => true
  | .fmin _ _ _ _ => true
  | .fmax _ _ _ _ => true
  | .feq _ _ _ _ => true
  | .flt _ _ _ _ => true
  | .fle _ _ _ _ => true
  | .fclass _ _ _ => true
  | .fcps _ _ _ _ => true
  | .fcpsn _ _ _ _ => true
  | .fcpsx _ _ _ _ => true
  | .fcvti _ _ _ _ => true
  | .fcvtu _ _ _ _ => true
  | .fcvtf _ _ _ _ => true
  | .fcvtfu _ _ _ _ => true
  | .fcvtp _ _ _ _ => true
  | .fsig _ _ _ => true
  | .fsetsig _ _ _ _ => true
  | .frint _ _ _ _ => true
  | .fmvi _ _ _ => true
  | .fma _ _ _ _ _ _ => true
  | .fms _ _ _ _ _ _ => true
  | .fnma _ _ _ _ _ _ => true
  | .fnms _ _ _ _ _ _ => true
  | .aadd _ _ _ _ _ _ => true
  | .aand _ _ _ _ _ _ => true
  | .aor _ _ _ _ _ _ => true
  | .axor _ _ _ _ _ _ => true
  | .amin _ _ _ _ _ _ => true
  | .amax _ _ _ _ _ _ => true
  | .aminu _ _ _ _ _ _ => true
  | .amaxu _ _ _ _ _ _ => true
  | .aswp _ _ _ _ _ _ => true
  | .acas _ _ _ _ _ _ => true
  | .afadd _ _ _ _ _ _ => true
  | .ldf _ _ _ => true
  | .stf _ _ _ => true
  | .ldfa _ _ _ => true
  | .stfr _ _ _ => true
  | .fadr _ _ _ => true
  | .fref _ => true
  | .frel _ => true
  | .dspl _ _ => true
  | .dsps _ _ => true
  | .tsave _ _ _ => true
  | .trestore _ _ _ => true
  | .vtsave _ _ _ => true
  | .vtrestore _ _ _ => true
  | .send _ _ _ _ => true
  | .sendm _ _ _ _ => true
  | .cdec _ _ => true
  | .spawn _ _ _ _ => true
  | .spawnCap _ _ _ _ => true
  | .sev _ => true
  | .arrive _ _ _ => true
  | .wait _ _ _ => true
  | .btest _ _ _ _ => true
  | .qpush _ _ => true
  | .qpop _ _ => true
  | .qtry _ _ _ => true
  | .qcnt _ _ => true
  | .hbind _ _ => true
  | .hfree _ => true
  | .seek _ _ => true
  | .hwait _ => true
  | .rds _ _ => true
  | .wrs _ _ => true
  | .rwd _ => true
  | .hstat _ _ => true
  | .mxc _ => true
  | .mxr _ _ _ _ _ _ _ => true
  | .mxw _ _ => true
  | .mxs _ _ => true
  | .cpc _ => true
  | .cps _ => true
  | .rep _ _ _ _ _ => true
  | .srr _ _ => true
  | .srw _ _ => true
  | .srx _ _ _ => true
  | .trap _ => true
  | .vfadd _ _ => true
  | .vfsub _ _ => true
  | .vfmul _ _ => true
  | .vfdiv _ _ => true
  | .vfsqrt _ _ => true
  | .vfmin _ _ => true
  | .vfmax _ _ => true
  | .vfabs _ _ => true
  | .vfneg _ _ => true
  | .vadd _ _ => true
  | .vsub _ _ => true
  | .vmul _ _ => true
  | .vmulh _ _ => true
  | .vand _ _ => true
  | .vor _ _ => true
  | .vxor _ _ => true
  | .vsll _ _ => true
  | .vsrl _ _ => true
  | .vsra _ _ => true
  | .vmin _ _ => true
  | .vmax _ _ => true
  | .vminu _ _ => true
  | .vmaxu _ _ => true
  | .vadds _ _ => true
  | .vsubs _ _ => true
  | .vfma _ _ => true
  | .vfms _ _ => true
  | .vfnma _ _ => true
  | .vfnms _ _ => true
  | .vdot2 _ _ => true
  | .vfeq _ _ => true
  | .vflt _ _ => true
  | .vfle _ _ => true
  | .veq _ _ => true
  | .vne _ _ => true
  | .vlt _ _ => true
  | .vltu _ _ => true
  | .mand _ _ _ _ _ => true
  | .mor _ _ _ _ _ => true
  | .mxor _ _ _ _ _ => true
  | .mandn _ _ _ _ _ => true
  | .mnot _ _ _ _ => true
  | .mpop _ _ _ _ => true
  | .mfirst _ _ _ _ => true
  | .mset _ _ _ => true
  | .vslideup _ _ _ => true
  | .vslidedn _ _ _ => true
  | .vperm _ _ _ => true
  | .vbcast _ _ _ => true
  | .vsel _ _ => true
  | .vcompress _ _ _ => true
  | .vrsum _ _ _ _ => true
  | .vrmax _ _ _ _ => true
  | .vrmin _ _ _ _ => true
  | .vradd _ _ _ _ => true
  | .vrand _ _ _ _ => true
  | .vcvt _ _ _ _ => true
  | .vcvts _ _ _ _ => true
  | .vld _ _ _ _ _ => true
  | .vlds _ _ _ _ _ _ => true
  | .vldp _ _ _ _ _ => true
  | .vst _ _ _ _ _ => true
  | .vsts _ _ _ _ _ _ => true
  | .vstp _ _ _ _ _ => true
  | .vgather _ _ _ _ _ _ => true
  | .vscatter _ _ _ _ _ => true
  | .madd3 _ _ _ _ _ => true
  | .msub3 _ _ _ _ _ => true
  | .mmul3 _ _ _ _ _ => true
  | .mfma3 _ _ _ _ _ => true
  | .mmin3 _ _ _ _ => true
  | .mmax3 _ _ _ _ => true
  | .vsigm _ _ _ => true
  | .vsigr _ _ => true
  | .vsigw _ _ => true
  | .vsplat _ _ _ _ _ => true
  | .vins _ _ _ _ => true
  | .vext _ _ _ _ => true
  | .vmovv _ _ => true
  | .implicitCommit _ => false
  | .recordPromotion _ => false
  | .watchdogExpiry _ => false
  | .contextRelease _ => false
  | .supervisorResume _ _ => false
  | .contextSave _ => false
  | .contextRestore _ => false
  | .bandRelease _ => false
  | .recordDiscard _ => false
  | .framecfgWrite _ => false
  | .inboxcfgWrite _ => false
  | .headpriWrite _ => false
  | .shiftinjWrite _ => false
  | .frmWrite _ _ => false
  | .mxbudgetWrite _ => false
  | .mxgovWrite _ => false
  | .messageAccept _ => false
  | .nackReceipt _ => false
  | .nackResend _ => false
  | .chunkSend _ => false
  | .remoteLoad _ => false
  | .loadReply _ => false
  | .remoteStore _ => false
  | .remoteAtomic _ => false
  | .atomicReply _ => false
  | .acknowledgement _ => false
  | .errorPacket _ => false
  | .poisonedPacket _ => false
  | .linkRetry _ => false
  | .sevLatchWrite _ => false
  | .countdownDecrement _ => false
  | .frameIncrement _ => false
  | .frameRelease _ => false
  | .landingF32Add _ => false
  | .landingBf16Accumulate _ => false
  | .landingE4m3Widen _ => false
  | .landingStridedScatter _ => false
  | .landingTranspose _ => false
  | .landingF32Max _ => false
  | .landingXor _ => false
  | .entryTableWrite _ => false
  | .instructionStoreWrite _ => false
  | .bootLoad _ => false
  | .prickingAppend _ => false
  | .gatherDrainTimeout _ => false
  | .headClaimGrant _ => false
  | .bankAligned _ => false
  | .lineTransfer _ => false
  | .trackRemap _ => false
  | .barrierCompletion _ => false
  | .barrierConfigWrite _ _ => false
  | .queueControlWrite _ _ _ => false
  | .prickingSelection _ => false
  | .startMessageSend _ => false
  | .sprayTreeWrite _ _ _ => false
  | .traceRingControlWrite _ _ _ => false
  | .traceReplayTimeout _ => false
  | .memoryLineWrite _ _ => false
  | .memoryLineRead _ _ => false
  | .patrolScrub _ _ => false
  | .erasureRegisterWrite _ _ => false
  | .frameTagWrite _ _ => false
  | .rootTableWrite _ _ _ => false
  | .pageWalk _ _ => false
  | .thermalTrip _ => false
  | .thermalClear _ => false
  | .telemetryFrame _ => false
  | .measuringWindowClose _ _ _ => false
  | .classSlowdown _ => false
  | .pcapWrite _ => false
  | .classfloorWrite _ => false
  | .vcurveWrite _ => false
  | .fcurveWrite _ => false
  | .regWrite _ => false
  | .regRead _ => false
  | .load _ => false
  | .store _ => false
  | .atomic _ => false
  | .launchAppend _ => false
  | .accumulate _ => false
  | .podBarrierArrival _ _ _ => false
  | .podBarrierCompletion _ _ => false
  | .podRemoteAccess _ => false
  | .firmwareUpdate _ => false
  | .hostCredentialInstall _ _ _ _ => false
  | .fkeep => true
  | .exit => true
  | .commit => true
  | .commitW => true
  | .wfe => true
  | .fenceR => true
  | .fenceW => true
  | .fenceRw => true
  | .xfence => true
  | .cpw => true
  | .sret => true
  | .eret => true
  | .iflush => true
  | .issueQuantumExpiry => false
  | .taskDispatch => false
  | .framecfgApply => false
  | .inboxcfgApply => false
  | .parkTimeout => false
  | .localPostAccept => false
  | .matrixCommandStart => false
  | .kStepComplete => false
  | .tableReread => false
  | .tableGiveUp => false
  | .matrixCommandComplete => false
  | .bucketRefill => false
  | .governorWindow => false
  | .copyCommandStart => false
  | .copyFaultResume => false
  | .copyCommandComplete => false
  | .taskEndReport => false
  | .coreKill => false
  | .packageReset => false
  | .cycleStretch => false
  | .currentLimit => false
  | .telemetryFrameMissing => false
  | .failsafeEntry => false
  | .failsafeTick => false
  | .classRestore => false
  | .hwholdClear => false
  | .firmwareWatchdogExpiry => false
  | .firmwareKick => false

end Sys2Proof

namespace Sys2Proof.Machine

/-- The instruction answers a next state that has P. -/
def Completes (i : Instr) (s : State) (P : State → Prop) : Prop := ∃ t, exec i s = .next t ∧ P t

/-! ### Every byte of every memory -/

/-- A byte of a memory: scratchpad, weight buffer and instruction store of a core, DRAM of the package. -/
inductive Place where
  | scratch (c : CoreId) (a : Nat)
  | weight (c : CoreId) (a : Nat)
  | istore (c : CoreId) (a : Nat)
  | dram (a : Nat)
  deriving DecidableEq, Repr

/-- The byte at a place. -/
def State.byteAt (s : State) : Place → Byte
  | .scratch c a => rd8 (s.coreAt c).mem a
  | .weight c a => rd8 (s.coreAt c).wbuf a
  | .istore c a => rd8 (s.coreAt c).istore a
  | .dram a => rd8 s.dram a

/-- Every byte of memory reads as before. -/
def SameBytes (s t : State) : Prop := ∀ p : Place, t.byteAt p = s.byteAt p

/-- Every byte of memory reads as before but for n bytes of the scratchpad of the core in focus from a. -/
def SameBytesBut (s t : State) (a n : Nat) : Prop :=
  ∀ p : Place, (∀ i, i < n → p ≠ .scratch s.coreId (a + i)) → t.byteAt p = s.byteAt p

/-! ### What two states may differ in -/

/-- Two states agree on everything outside the contexts of the core in focus. -/
def SameOutside (s t : State) : Prop := { t with core := { t.core with ctxs := s.core.ctxs } } = s

/-- Two states agree on every context of the core in focus but the current one. -/
def SameOtherCtxs (s t : State) : Prop := ∀ c : CtxNo, c ≠ s.core.cur → t.ctxAt c = s.ctxAt c

/-- Two contexts agree but for the place in the program (PC, REPSTATE and the body of a replay, a stall that
is over) and their general registers with the counts of these. -/
def AgreeButG (x y : Ctx) : Prop :=
  { y with g := x.g, gc := x.gc, pc := x.pc, rep := x.rep, body := x.body, replaying := x.replaying
           stall := x.stall, asleep := x.asleep } = x

/-- The same, for the vector registers with their counts instead. -/
def AgreeButV (x y : Ctx) : Prop :=
  { y with v := x.v, vc := x.vc, pc := x.pc, rep := x.rep, body := x.body, replaying := x.replaying
           stall := x.stall, asleep := x.asleep } = x

/-- The same, for neither. -/
def AgreeButPc (x y : Ctx) : Prop :=
  { y with pc := x.pc, rep := x.rep, body := x.body, replaying := x.replaying, stall := x.stall, asleep := x.asleep } = x

/-- Every general register but d is as it was, value and count. -/
def GRegsBut (d : Reg) (s t : State) : Prop := ∀ r, r ≠ d → t.gr r = s.gr r ∧ t.grc r = s.grc r

/-- Every vector register but d is as it was, value and counts. -/
def VRegsBut (d : Reg) (s t : State) : Prop := ∀ r, r ≠ d → t.vr r = s.vr r ∧ t.vrc r = s.vrc r

/-- What an instruction that writes only gd leaves as it was. -/
structure FrameG (d : Reg) (s t : State) : Prop where
  regs : GRegsBut d s t
  ctx : AgreeButG s.ctx t.ctx
  others : SameOtherCtxs s t
  outside : SameOutside s t
  bytes : SameBytes s t

/-- What an instruction that writes only vd leaves as it was. -/
structure FrameV (d : Reg) (s t : State) : Prop where
  regs : VRegsBut d s t
  ctx : AgreeButV s.ctx t.ctx
  others : SameOtherCtxs s t
  outside : SameOutside s t
  bytes : SameBytes s t

/-! ### The canonical form of the memories -/

/-- The byte memories of a core are in canonical form. -/
abbrev Core.MemWf (k : Core) : Prop := Memory.wf k.mem = true ∧ Memory.wf k.wbuf = true ∧ Memory.wf k.istore = true

/-- Every byte memory of the package is in canonical form (log entry 1). -/
def State.MemWf (s : State) : Prop :=
  Memory.wf s.dram = true ∧ s.core.MemWf ∧ ∀ p ∈ s.others, p.2.MemWf

/-! ### Accesses of the current context at the ports of its own core -/

/-- No trace ring in replay holds an access of the current context back (R350). -/
abbrev Lets (s : State) (p : PortKey) (kind addr : Nat) : Prop := replayHolds s p (ownSeen s kind addr) = false

/-- The state once the ring of a port has seen an access of the current context (R349). -/
def State.noted (s : State) (p : PortKey) (kind addr : Nat) : State := noteAccess s p (ownSeen s kind addr)

/-- No word of the memories of the core in focus is struck (R191, R223; log entry 57). -/
abbrev State.Clean (s : State) : Prop := s.core.flips = []

/-- Address a names byte off of the scratchpad of the core in focus, through window 0 (R195). -/
abbrev OwnAt (a : Word) (off : Nat) : Prop := classify a = .own 0 off

/-- The current context checks no significance (R88). -/
abbrev State.SigOff (s : State) : Prop := s.ctx.sigmode.mode = 0

/-- Two states agree outside the contexts of the core in focus but for the trace rings. -/
def SameOutsideButRings (s t : State) : Prop :=
  { t with rings := s.rings, core := { t.core with ctxs := s.core.ctxs } } = s

/-- The same but for the scratchpad of the core in focus too. -/
def SameOutsideButMem (s t : State) : Prop :=
  { t with rings := s.rings, core := { t.core with ctxs := s.core.ctxs, mem := s.core.mem } } = s

/-! ### Lanes of a vector register -/

/-- Lane i of width w of a v register. -/
def State.lane (s : State) (r : Reg) (w i : Nat) : BitVec w := (s.vr r).extractLsb' (w * i) w

/-- Lane i of the second source: of a v register, or the low bits of a g register in every lane (R125). -/
def State.laneB (s : State) (g : Bool) (r : Reg) (w i : Nat) : BitVec w := if g then (s.gr r).setWidth w else s.lane r w i

/-- The lanes of vd: an active lane i holds f i; an inactive one is kept or holds all ones (R123). -/
def LanesAre (s t : State) (d : Reg) (w : Nat) (m : BitVec 2) (u : Bool) (f : Nat → Nat) : Prop :=
  ∀ i, i < 512 / w → laneNat (t.vr d) w i =
    if active s.ctx m i then f i else if u then laneNat (s.vr d) w i else 2 ^ w - 1

/-- The chunk counts of vd with lanes of at least 16 bits: f i in each chunk of an active lane i; those of an
inactive lane are kept, or 0 in a floating-point group and 63 in others (R85, R124). -/
def CountsAre (s t : State) (d : Reg) (w : Nat) (m : BitVec 2) (u fp : Bool) (f : Nat → Count) : Prop :=
  ∀ j : Fin 32, (t.vrc d)[j] =
    if active s.ctx m (16 * j / w) then f (16 * j / w) else if u then (s.vrc d)[j] else if fp then 0 else 63

/-- The count of chunk j of vd after a load (R85, R124, R141): 63, but for a chunk of which an undisturbed lane keeps
bits, which keeps the count it had. -/
def loadCount (s : State) (d : Reg) (w : Nat) (m : BitVec 2) (u : Bool) (j : Fin 32) : Count :=
  let on := if w = 8 then active s.ctx m (2 * j) && active s.ctx m (2 * j + 1) else active s.ctx m (16 * j / w)
  if u && !on then (s.vrc d)[j] else 63

/-- The mask in vd: bit i below n is f i where lane i is active, else kept or set; the others are 0, every
count is 63 (R131). -/
def MaskIs (s t : State) (d : Reg) (n : Nat) (m : BitVec 2) (u : Bool) (f : Nat → Bool) : Prop :=
  t.vrc d = fullCounts ∧ ∀ i, i < 512 → (t.vr d).getLsbD i =
    (decide (i < n) && if active s.ctx m i then f i else (!u || (s.vr d).getLsbD i))

/-! ### Forms that share a claim -/

/-- gd of the forms that write gd and nothing else and check no significance. -/
def destG : Instr → Option Reg
  | .add d _ _ | .sub d _ _ | .and d _ _ | .or d _ _ | .xor d _ _ | .andn d _ _ | .orn d _ _ | .sll d _ _ | .srl d _ _
  | .sra d _ _ | .rol d _ _ | .ror d _ _ | .slt d _ _ | .sltu d _ _ | .min d _ _ | .max d _ _ | .minu d _ _ | .maxu d _ _
  | .mul d _ _ | .mulhi d _ _ | .mulhin d _ _ | .mulhix d _ _ | .quo d _ _ | .quon d _ _ | .rmd d _ _ | .rmdn d _ _
  | .clz d _ | .ctz d _ | .popc d _ | .bswap d _ | .sextb d _ | .sexth d _ | .sextw d _
  | .addi d _ _ | .andi d _ _ | .ori d _ _ | .xori d _ _ | .slli d _ _ | .srli d _ _ | .srai d _ _ | .slti d _ _
  | .sltiu d _ _ | .liz d _ _ | .lik d _ _ | .adpc d _
  | .fmin d _ _ _ | .fmax d _ _ _ | .feq d _ _ _ | .flt d _ _ _ | .fle d _ _ _ | .fclass d _ _ | .fcps d _ _ _
  | .fcpsn d _ _ _ | .fcpsx d _ _ _ | .fcvti d _ _ _ | .fcvtu d _ _ _ | .fsig d _ _ | .fsetsig d _ _ _ | .fmvi d _ _
  | .dspl d _ | .qcnt d _ | .hstat d _ | .mxs d _ | .cps d | .mpop d _ _ _ | .mfirst d _ _ _ | .vext d _ _ _
  | .vradd d _ _ _ | .vrand d _ _ _ | .vrmax d _ _ _ | .vrmin d _ _ _ => some d
  | _ => none

/-- gd of the checked scalar forms but FCVTP (R90). -/
def checkedG : Instr → Option Reg
  | .fadd d _ _ _ _ | .fsub d _ _ _ _ | .fmul d _ _ _ _ | .fdiv d _ _ _ _ | .fsqrt d _ _ _ | .frint d _ _ _
  | .fma d _ _ _ _ _ | .fms d _ _ _ _ _ | .fnma d _ _ _ _ _ | .fnms d _ _ _ _ _ | .vrsum d _ _ _ => some d
  | _ => none

/-- vd of the vector forms that write vd and nothing else and check no significance. -/
def destV : Instr → Option Reg
  | .vfmin x _ | .vfmax x _ | .vadd x _ | .vsub x _ | .vmul x _ | .vmulh x _ | .vand x _ | .vor x _ | .vxor x _
  | .vsll x _ | .vsrl x _ | .vsra x _ | .vmin x _ | .vmax x _ | .vminu x _ | .vmaxu x _ | .vadds x _ | .vsubs x _
  | .vfeq x _ | .vflt x _ | .vfle x _ | .veq x _ | .vne x _ | .vlt x _ | .vltu x _ | .vsel x _ => some x.d
  | .vfabs x _ | .vfneg x _ | .vslideup x _ _ | .vslidedn x _ _ | .vperm x _ _ | .vbcast x _ _ | .vcompress x _ _
  | .vmovv x _ | .vsigm x _ _ | .vsigr x _ | .vsigw x _ => some x.d
  | .mand d _ _ _ _ | .mor d _ _ _ _ | .mxor d _ _ _ _ | .mandn d _ _ _ _ | .mnot d _ _ _ | .mset d _ _
  | .vsplat d _ _ _ _ | .vins d _ _ _ => some d
  | _ => none

/-- vd of the checked vector forms but the conversions (R90). -/
def checkedV : Instr → Option Reg
  | .vfadd x _ | .vfsub x _ | .vfmul x _ | .vfdiv x _ | .vfma x _ | .vfms x _ | .vfnma x _ | .vfnms x _ | .vdot2 x _ => some x.d
  | .vfsqrt x _ => some x.d
  | _ => none

/-- The scalar loads (R107): gd, ga, the offset, the size, whether the value is sign-extended. -/
def loadForm : Instr → Option (Reg × Reg × BitVec 16 × Nat × Bool)
  | .lb d a i => some (d, a, i, 1, true)
  | .lbu d a i => some (d, a, i, 1, false)
  | .lh d a i => some (d, a, i, 2, true)
  | .lhu d a i => some (d, a, i, 2, false)
  | .lw d a i => some (d, a, i, 4, true)
  | .lwu d a i => some (d, a, i, 4, false)
  | .ld d a i => some (d, a, i, 8, false)
  | _ => none

/-- The scalar stores (R108): gd, ga, the offset, the size. -/
def storeForm : Instr → Option (Reg × Reg × BitVec 16 × Nat)
  | .sb d a i => some (d, a, i, 1)
  | .sh d a i => some (d, a, i, 2)
  | .sw d a i => some (d, a, i, 4)
  | .sd d a i => some (d, a, i, 8)
  | _ => none

/-- n bytes of a memory as a register value, sign- or zero-extended (R107). -/
def loadedValue (m : Memory) (off n : Nat) (sx : Bool) : Word :=
  if sx then (BitVec.ofNat (8 * n) (rdNat m off n)).signExtend 64 else BitVec.ofNat 64 (rdNat m off n)

/-- The number of a function of the atomics (R117), with its operands. -/
def atomicForm : Instr → Option (BitVec 4 × Reg × Reg × Reg × Scope × MemOrd × Size)
  | .aadd d a b s o z => some (0, d, a, b, s, o, z)
  | .aand d a b s o z => some (1, d, a, b, s, o, z)
  | .aor d a b s o z => some (2, d, a, b, s, o, z)
  | .axor d a b s o z => some (3, d, a, b, s, o, z)
  | .amin d a b s o z => some (4, d, a, b, s, o, z)
  | .amax d a b s o z => some (5, d, a, b, s, o, z)
  | .aminu d a b s o z => some (6, d, a, b, s, o, z)
  | .amaxu d a b s o z => some (7, d, a, b, s, o, z)
  | .aswp d a b s o z => some (8, d, a, b, s, o, z)
  | .acas d a b s o z => some (9, d, a, b, s, o, z)
  | .afadd d a b s o z => some (10, d, a, b, s, o, z)
  | _ => none

/-- Nothing of the current context or of its core is left for a fence to wait for (R163): no effect of the open
chunk or committed, no line in the gather buffer, neither open nor draining. -/
abbrev Quiet (s : State) : Prop := s.ctx.hoop = [] ∧ s.ctx.chunks = [] ∧ s.core.gather = []

/-- The oldest request on a route, unicast or a spray's copy, is a single one that can be delivered to a live core
c (R342, R352): its path stands, no trace ring is in use, no word of that core's memories is struck (log entry
57), and it is refused nothing for want of a sampler (R325) and waits behind no core event (R200). -/
abbrev Deliverable (s : State) (r : Route) (c : CoreId) (p : Packet) (rest : List Packet) (o : Op) : Prop :=
  takeFirst (fun q => decide (q.route = r) && isRequest q) s.net = some (p, rest) ∧ p.body = .op o ∧ p.more = false ∧
    p.route.dst = .core c ∧ pktDown s p = false ∧ s.rings = [] ∧
    (let k := s.coreAt c
     k.killed = false ∧ k.flips = [] ∧ k.refuse = [] ∧ eventWaits k (srcCore p) = false)

/-- The answer to a packet (R320). -/
def answerTo (p : Packet) (b : Body) : Packet :=
  { p with route := ⟨p.route.dst, p.route.src⟩, more := false, spray := false, body := b }

/-- The reply at the head of a route comes to a live core c by a path that stands (R320). -/
abbrev ReplyAt (s : State) (r : Route) (c : CoreId) (p : Packet) (rest : List Packet) (b : Body) : Prop :=
  replyHead s r = some (p, rest) ∧ p.body = b ∧ p.route.dst = .core c ∧ pktDown s p = false ∧ (s.coreAt c).killed = false

/-- Nothing falls due at a core as time passes: no context stalls at a queue (R166), no block of its matrix unit waits
for its table (R250), no bank moves or is claimed (R204, R208), no message is parked (R202). -/
abbrev CalmCore (k : Core) : Prop := atQueues k = false ∧ waitingRun k = none ∧ banksLive k = false ∧ k.park = none

/-- The same of every core. -/
abbrev Calm (s : State) : Prop := CalmCore s.core ∧ ∀ p ∈ s.others, CalmCore p.2

end Sys2Proof.Machine
end

