-- ==== Sys2Proof/Certificates/Slice0/Obligations.lean ====
section
/-! DEFINITION. The statements for the provers, from the numbered rules of the specification. A value that
the model chose is named by its log entry. -/
open Sys2Proof Sys2Proof.Machine

/-- What package reset leaves. After reset the core in focus has the layouts, budgets, governor, bounds and engine
registers at the reset values the spec gives, no message, no task, no pending effect; the power controller has its
reset registers; no barrier, queue or ring is set up. That memory reads 0 and registers without a stated reset value
hold 0 with count 63 is the model's choice (log entries 1 and 2); of the two resets that R172 and R244 give MXGOV,
R244's is taken (log entry 63). (R75, R172, R192, R224, R241, R244, R303, R329, R349, R365, R380.) -/
def Obligations.ResetState : Prop :=
  let s := State.reset
  s.core.framecfg = ⟨0x60, 0x40, none⟩ ∧ s.core.inboxcfg = ⟨0xA0, 0x20, none⟩ ∧ s.core.wdbudget = 22 ∧
  s.core.mxgov.limit = 0x20 ∧ s.core.mxgov.en = true ∧ s.core.mxgov.stalled = 0 ∧ s.forced = true ∧
  (∀ n : BitVec 3, boundAt s.core n = ⟨0xFF800000, 0x7F800000, 0, false⟩) ∧
  s.core.headpri = 0 ∧ s.core.mxbudget = ⟨0, 0, false, 0⟩ ∧ s.core.inj = ⟨0, 0, 0, false, false⟩ ∧
  (∀ c : CtxNo, (s.ctxAt c).phase = .free ∧ (s.ctxAt c).frm = 0 ∧ (s.ctxAt c).sigmode = ⟨0, false, false⟩ ∧
    (s.ctxAt c).sigthr = 0 ∧ (s.ctxAt c).rep = 0 ∧ (s.ctxAt c).hoop = [] ∧ (s.ctxAt c).chunks = []) ∧
  s.core.inbox = [] ∧ s.net = [] ∧ s.topoev = 0 ∧
  (∀ n : BarNo, s.bar n = Barrier.reset) ∧ (∀ (d : BitVec 2) (q : Nat), queueAt (s.die d) q = Queue.reset) ∧
  (∀ k : Nat, tget Ring.reset s.rings k = Ring.reset) ∧ (∀ k : Nat, erasureOf s k = Erasure.reset) ∧
  s.power.capReg = 2400 ∧ s.power.shed = 0 ∧ s.power.hwhold = 0 ∧ s.podcfg = 0 ∧
  (∀ p : Place, s.byteAt p = 0) ∧ (∀ r : Reg, s.gr r = 0 ∧ s.grc r = 63)

/-- A step issues the instruction at the PC of the current context. Where nothing waits on the agenda (what comes next is
then the model's own order, log entry 4), the current context is ready and no engine fault is due, and the word at its
PC (no replay) is fetched, leaving the state t (fetched in silence where the instruction has been issued and stalls,
log entry 104), and decodes to i, the step is exec of i on t with the instruction counted toward the implicit commit,
followed by the accounting afterIssue (one cycle, which is the model's choice of an instruction's time, log entry 5,
counted for the class of the task, with the cycles of the other queues and what falls due in that cycle at banks,
parked messages and tables, the implicit commit, the choice of the next context), and then by the loss of the cores
that are lost with it, the pending layouts whose area is empty by now, which come into force (R193), and the halt of
dispatching at a core whose chosen record finds no frame space (R12). In a replay it is the captured word with its
registers raised. A word that is no instruction is an ILLEGAL trap. (R34, R102, R148, R187, R283, R29, R33, R166,
R191.) -/
def Obligations.StepRunsTheDecodedWord : Prop :=
  (∀ (s t : State) (w : IWord) (i : Instr), s.agenda = [] → ready s.ctx = true → s.ctx.trapDue = none →
    s.ctx.replaying = false → (if issuedYet s.ctx then refetch s s.ctx.pc else fetchAt s s.ctx.pc) = (.word w, t) →
    decode w = some i →
    step s = andThen endStep (andThen (afterIssue s s.core.cur (classOf s.ctx) (Issue.run i).queue) (exec i (countIssue t)))) ∧
  (∀ (s t : State) (w : IWord), s.agenda = [] → ready s.ctx = true → s.ctx.trapDue = none →
    s.ctx.replaying = false → (if issuedYet s.ctx then refetch s s.ctx.pc else fetchAt s s.ctx.pc) = (.word w, t) →
    decode w = none →
    step s = .next (endStep (afterIssue s s.core.cur (classOf s.ctx) none (abortCtx (countIssue t) t.core.cur .illegal)))) ∧
  (∀ (s : State) (w : IWord) (i : Instr), s.agenda = [] → ready s.ctx = true → s.ctx.trapDue = none →
    s.ctx.replaying = true → s.ctx.body[repPos s.ctx.rep]? = some w → raised s.ctx.rep w = some i →
    step s = andThen endStep (andThen (afterIssue s s.core.cur (classOf s.ctx) (Issue.run i).queue) (exec i (countIssue s))))

/-- An agenda entry with an event is that event at its core. The first entry of the agenda is taken off; its time passes
(with the cycles of queues, the grants, arrivals and ends of rewinds at banks, the ends of parking and the re-reads
that fall in it, R166, R208, R204, R217, R202 and R250), its core comes into focus, what comes from outside with it
comes, and its event is exec of it, after which stalled contexts look again at what they wait for, cores lost with it
are killed, pending layouts whose area is empty come into force (R193), and a core whose chosen record finds no frame
space stops dispatching (R12). An entry that names no core of the package is the fault noSuchCore. The agenda and what
comes from outside are the model's own (log entries 4 and 57). (R4, R33, R166, R187, R250, R294.) -/
def Obligations.EventsRunFromTheAgenda : Prop :=
  (∀ (s : State) (a : Agendum) (rest : List Agendum) (i : Instr), s.agenda = a :: rest → a.ev = some i →
    a.core.toNat < 0xC00 →
    let f := (waitTime a.wait { s with agenda := rest }).focus a.core
    (a.out = none → step s = andThen endStep (andThen wakeAll (exec i f))) ∧
    (∀ o, a.out = some o → step s = andThen endStep (andThen wakeAll (exec i (fromOutside o f))))) ∧
  (∀ (s : State) (a : Agendum) (rest : List Agendum), s.agenda = a :: rest → 0xC00 ≤ a.core.toNat →
    step s = .fault .noSuchCore)

/-- Worked words of the spec decode to the instructions they stand for. Words written out in the spec's own tables of
assembly decode to the instruction the table gives. (R34, R63.) -/
def Obligations.WordsDecodeAsTheSpecWritesThem : Prop :=
  decode 0x04A63816 = some (.quo 5 6 7) ∧ decode 0x04A6001A = some (.clz 5 6) ∧
  decode 0x20A6FFFF = some (.sltiu 5 6 0xFFFF) ∧ decode 0x24A01234 = some (.liz 5 0 0x1234) ∧
  decode 0x28A00002 = some (.adpc 5 2) ∧ decode 0x98A63A00 = some (.send 5 6 7 8) ∧
  decode 0x98A68208 = some (.sendm 5 6 16 8) ∧ decode 0x98063810 = some (.cdec 6 7) ∧
  decode 0x98000029 = some .commitW ∧ decode 0x98000030 = some .wfe ∧ decode 0xB4A64003 = some (.srx 5 6 .sigthr) ∧
  decode 0xB4006012 = some (.trap 0x12) ∧ decode 0xB4008000 = some .sret ∧ decode 0xB400A000 = some .eret ∧
  decode 0xB400C000 = some .iflush ∧ decode 0 = none

/-- Decoding the word of a well-formed instruction gives it back. For every well-formed instruction the encoder has a word
for, with every operand at every value, decoding that word gives the instruction. (R34, R35, R38, R39, R40, R43, R46,
R51, R52, R54, R55.) -/
def Obligations.DecodeOfEncode : Prop :=
  ∀ (i : Instr) (w : IWord), i.wf = true → encode i = some w → decode w = some i

/-- What decodes is well-formed and is the word its instruction encodes to. A word that decodes gives a well-formed
instruction whose row has a word, and encoding it gives the word back: no bit of a word is ignored. (R34, R38, R39,
R56.) -/
def Obligations.WordHasOneMeaning : Prop :=
  ∀ (w : IWord) (i : Instr), decode w = some i → i.wf = true ∧ i.hasWord = true ∧ encode i = some w

/-- g0 reads 0 with count 63 and discards writes. A write to g0 changes nothing; g0 reads 0 with count 63; every other
register written reads as written, and the rest as before. (R37.) -/
def Obligations.G0IsHardWired : Prop :=
  (∀ (s : State) (w : Word) (c : Count), s.setGC 0 w c = s) ∧ (∀ s : State, s.gr 0 = 0 ∧ s.grc 0 = 63) ∧
  (∀ (s : State) (d r : Reg) (w : Word) (c : Count), d ≠ 0 →
    (s.setGC d w c).gr r = (if r = d then w else s.gr r) ∧ (s.setGC d w c).grc r = (if r = d then c else s.grc r))

/-- Results of the integer forms of two sources. Each integer form of two registers completes from every state: gd takes
the value R94 gives, with count 63, and the context goes on. Values are written in terms of integers and wide
products, not as the meaning computes them. (R92, R94.) -/
def Obligations.IntegerTwoSourceResults : Prop :=
  ∀ (s : State) (d a b : Reg), let x := s.gr a; let y := s.gr b
  exec (.add d a b) s = .next (s.setG d (x + y)).advance ∧
  exec (.sub d a b) s = .next (s.setG d (x - y)).advance ∧
  exec (.and d a b) s = .next (s.setG d (x &&& y)).advance ∧
  exec (.or d a b) s = .next (s.setG d (x ||| y)).advance ∧
  exec (.xor d a b) s = .next (s.setG d (x ^^^ y)).advance ∧
  exec (.andn d a b) s = .next (s.setG d (x &&& ~~~y)).advance ∧
  exec (.orn d a b) s = .next (s.setG d (x ||| ~~~y)).advance ∧
  exec (.sll d a b) s = .next (s.setG d (x <<< (y.toNat % 64))).advance ∧
  exec (.srl d a b) s = .next (s.setG d (x >>> (y.toNat % 64))).advance ∧
  exec (.sra d a b) s = .next (s.setG d (x.sshiftRight (y.toNat % 64))).advance ∧
  exec (.rol d a b) s = .next (s.setG d (x.rotateLeft (y.toNat % 64))).advance ∧
  exec (.ror d a b) s = .next (s.setG d (x.rotateRight (y.toNat % 64))).advance ∧
  exec (.slt d a b) s = .next (s.setG d (if x.toInt < y.toInt then 1 else 0)).advance ∧
  exec (.sltu d a b) s = .next (s.setG d (if x.toNat < y.toNat then 1 else 0)).advance ∧
  exec (.min d a b) s = .next (s.setG d (if x.toInt < y.toInt then x else y)).advance ∧
  exec (.max d a b) s = .next (s.setG d (if x.toInt < y.toInt then y else x)).advance ∧
  exec (.minu d a b) s = .next (s.setG d (if x.toNat < y.toNat then x else y)).advance ∧
  exec (.maxu d a b) s = .next (s.setG d (if x.toNat < y.toNat then y else x)).advance ∧
  exec (.mul d a b) s = .next (s.setG d (x * y)).advance ∧
  exec (.mulhi d a b) s = .next (s.setG d ((x.signExtend 128 * y.signExtend 128).extractLsb' 64 64)).advance ∧
  exec (.mulhin d a b) s = .next (s.setG d ((x.setWidth 128 * y.setWidth 128).extractLsb' 64 64)).advance ∧
  exec (.mulhix d a b) s = .next (s.setG d ((x.signExtend 128 * y.setWidth 128).extractLsb' 64 64)).advance

/-- Quotients and remainders, with the zero divisor and the one overflow. QUO, QUON, RMD and RMDN complete from every
state. Over a nonzero divisor the quotient is toward zero (the one that does not fit saturates) and the remainder
exact; over a zero divisor the quotient saturates with the dividend's sign, 0 over 0 is 0, and the remainder is the
dividend. (R95.) -/
def Obligations.DivisionResults : Prop :=
  ∀ (s : State) (d a b : Reg), let x := s.gr a; let y := s.gr b
  (∃ q : Word, exec (.quo d a b) s = .next (s.setG d q).advance ∧
    (y ≠ 0 → ¬ (x = 0x8000000000000000 ∧ y = 0xFFFFFFFFFFFFFFFF) → q.toInt = x.toInt.tdiv y.toInt) ∧
    (x = 0x8000000000000000 ∧ y = 0xFFFFFFFFFFFFFFFF → q = 0x7FFFFFFFFFFFFFFF) ∧
    (y = 0 → x = 0 → q = 0) ∧ (y = 0 → 0 < x.toInt → q = 0x7FFFFFFFFFFFFFFF) ∧
    (y = 0 → x.toInt < 0 → q = 0x8000000000000000)) ∧
  (∃ q : Word, exec (.quon d a b) s = .next (s.setG d q).advance ∧
    (y ≠ 0 → q.toNat = x.toNat / y.toNat) ∧ (y = 0 → x = 0 → q = 0) ∧
    (y = 0 → x ≠ 0 → q = 0xFFFFFFFFFFFFFFFF)) ∧
  (∃ r : Word, exec (.rmd d a b) s = .next (s.setG d r).advance ∧
    (y ≠ 0 → r.toInt = x.toInt.tmod y.toInt) ∧ (y = 0 → r = x)) ∧
  (∃ r : Word, exec (.rmdn d a b) s = .next (s.setG d r).advance ∧
    (y ≠ 0 → r.toNat = x.toNat % y.toNat) ∧ (y = 0 → r = x))

/-- Results of the unary, immediate and shift forms. The counts of leading, trailing and one bits are characterised by the
bits of the source; byte swap by its bytes; the extensions, immediates and shifts by their bit-vector values. Each
form completes from every state. (R94, R96, R97.) -/
def Obligations.IntegerOneSourceResults : Prop :=
  ∀ (s : State) (d a : Reg) (i : BitVec 16) (n : BitVec 6), let x := s.gr a
  (∃ k, exec (.clz d a) s = .next (s.setG d (BitVec.ofNat 64 k)).advance ∧ k ≤ 64 ∧
    (∀ j, j < k → x.getLsbD (63 - j) = false) ∧ (k < 64 → x.getLsbD (63 - k) = true)) ∧
  (∃ k, exec (.ctz d a) s = .next (s.setG d (BitVec.ofNat 64 k)).advance ∧ k ≤ 64 ∧
    (∀ j, j < k → x.getLsbD j = false) ∧ (k < 64 → x.getLsbD k = true)) ∧
  exec (.popc d a) s = .next (s.setG d (BitVec.ofNat 64 ((List.range 64).countP fun j => x.getLsbD j))).advance ∧
  (∃ w : Word, exec (.bswap d a) s = .next (s.setG d w).advance ∧
    ∀ j, j < 8 → w.extractLsb' (8 * j) 8 = x.extractLsb' (8 * (7 - j)) 8) ∧
  exec (.sextb d a) s = .next (s.setG d ((x.setWidth 8).signExtend 64)).advance ∧
  exec (.sexth d a) s = .next (s.setG d ((x.setWidth 16).signExtend 64)).advance ∧
  exec (.sextw d a) s = .next (s.setG d ((x.setWidth 32).signExtend 64)).advance ∧
  exec (.addi d a i) s = .next (s.setG d (x + i.signExtend 64)).advance ∧
  exec (.andi d a i) s = .next (s.setG d (x &&& i.signExtend 64)).advance ∧
  exec (.ori d a i) s = .next (s.setG d (x ||| i.setWidth 64)).advance ∧
  exec (.xori d a i) s = .next (s.setG d (x ^^^ i.setWidth 64)).advance ∧
  exec (.slti d a i) s = .next (s.setG d (if x.toInt < i.toInt then 1 else 0)).advance ∧
  exec (.sltiu d a i) s = .next (s.setG d (if x.toNat < (i.signExtend 64).toNat then 1 else 0)).advance ∧
  exec (.slli d a n) s = .next (s.setG d (x <<< n.toNat)).advance ∧
  exec (.srli d a n) s = .next (s.setG d (x >>> n.toNat)).advance ∧
  exec (.srai d a n) s = .next (s.setG d (x.sshiftRight n.toNat)).advance

/-- LIZ and LIK write one 16-bit quarter. LIZ writes the immediate shifted to its quarter and zeros elsewhere; LIK
replaces the quarter of gd as read at issue and keeps the rest. (R98.) -/
def Obligations.LizAndLik : Prop :=
  ∀ (s : State) (d : Reg) (q : BitVec 2) (i : BitVec 16),
  exec (.liz d q i) s = .next (s.setG d (i.setWidth 64 <<< (16 * q.toNat))).advance ∧
  exec (.lik d q i) s = .next (s.setG d
    ((s.gr d &&& ~~~(0xFFFF#64 <<< (16 * q.toNat))) ||| (i.setWidth 64 <<< (16 * q.toNat)))).advance

/-- Conditional branches and ADPC. Each conditional branch completes from every state: taken, exactly when its comparison
holds, at PC + 4 times the displacement; else the context goes on. ADPC writes PC + 4 times its immediate. (R36, R99,
R100.) -/
def Obligations.BranchesGoWhereTheySay : Prop :=
  ∀ (s : State) (a b : Reg) (x : BitVec 16),
  (let target := s.ctx.pc + 4 * x.signExtend 64
  exec (.beq a b x) s = .next (if s.gr a = s.gr b then s.jump target else s.advance) ∧
  exec (.bne a b x) s = .next (if s.gr a ≠ s.gr b then s.jump target else s.advance) ∧
  exec (.blt a b x) s = .next (if (s.gr a).toInt < (s.gr b).toInt then s.jump target else s.advance) ∧
  exec (.bge a b x) s = .next (if (s.gr b).toInt ≤ (s.gr a).toInt then s.jump target else s.advance) ∧
  exec (.bltu a b x) s = .next (if (s.gr a).toNat < (s.gr b).toNat then s.jump target else s.advance) ∧
  exec (.bgeu a b x) s = .next (if (s.gr b).toNat ≤ (s.gr a).toNat then s.jump target else s.advance)) ∧
  exec (.adpc a x) s = .next (s.setG a (s.ctx.pc + 4 * x.signExtend 64)).advance

/-- JAL and JALR: the link, the target, the misaligned target. JAL writes g1 and jumps. JALR jumps to ga plus its
immediate as ga was, writing the link with count 63; a target that is no multiple of 4 takes ALIGN with gd unwritten.
(R101.) -/
def Obligations.JumpsAndLinks : Prop :=
  (∀ (s : State) (x : BitVec 26),
    exec (.jal x) s = .next ((s.setGC 1 (s.ctx.pc + 4) 63).jump (s.ctx.pc + 4 * x.signExtend 64))) ∧
  (∀ (s : State) (d a : Reg) (i : BitVec 16), (s.gr a + i.signExtend 64).toNat % 4 = 0 →
    exec (.jalr d a i) s = .next ((s.setGC d (s.ctx.pc + 4) 63).jump (s.gr a + i.signExtend 64))) ∧
  (∀ (s : State) (d a : Reg) (i : BitVec 16), (s.gr a + i.signExtend 64).toNat % 4 ≠ 0 →
    exec (.jalr d a i) s = .next (abortCtx s s.core.cur .align))

/-- Branches on a count and on mask bits. BSIG branches exactly when the held count is below the threshold. BMASK branches
on bits 63:0 of a vector register: none, any, all of them set, and the complements. (R103, R104.) -/
def Obligations.BsigAndBmask : Prop :=
  (∀ (s : State) (a : Reg) (t : BitVec 6) (x : BitVec 15), exec (.bsig a t x) s =
    .next (if (s.grc a).toNat < t.toNat then s.jump (s.ctx.pc + 4 * x.signExtend 64) else s.advance)) ∧
  (∀ (s : State) (v : Reg) (x : BitVec 18),
    let on (i : Nat) : Bool := (s.vr v).getLsbD i
    let target := s.ctx.pc + 4 * x.signExtend 64
    exec (.bmaskNone v x) s = .next (if (List.range 64).all (fun i => !(on i)) then s.jump target else s.advance) ∧
    exec (.bmaskAny v x) s = .next (if (List.range 64).any on then s.jump target else s.advance) ∧
    exec (.bmaskAll v x) s = .next (if (List.range 64).all on then s.jump target else s.advance) ∧
    exec (.bmaskNonec v x) s = .next (if (List.range 64).all on then s.jump target else s.advance) ∧
    exec (.bmaskAnyc v x) s = .next (if (List.range 64).any (fun i => !(on i)) then s.jump target else s.advance) ∧
    exec (.bmaskAllc v x) s = .next (if (List.range 64).all (fun i => !(on i)) then s.jump target else s.advance))

/-- Forms that write gd leave everything else. Every form that destG names completes from every state (QCNT where no
context stalls at its queue: a cycle of the queue belongs to it, R166), and leaves every other general register and
count, every vector register, every special register, display register, head, hoop and exception register, the other
contexts, every byte of every memory and everything outside the core as it was; only the place in the program moves
on. (R37, R92, R94, R96, R112, R113, R132, R135, R166.) -/
def Obligations.FrameOfRegisterForms : Prop :=
  ∀ (i : Instr) (d : Reg), destG i = some d → ∀ s : State,
    (∀ e q, i = .qcnt e q → ∀ c, waitsAt (s.ctxAt c) q = none) → Completes i s (FrameG d s)

/-- Forms that write vd leave everything else. Every form that destV names completes from every state and changes nothing
but vd with its counts and the place in the program. (R123, R130, R131, R132, R133, R134.) -/
def Obligations.FrameOfVectorForms : Prop :=
  ∀ (i : Instr) (d : Reg), destV i = some d → ∀ s : State, Completes i s (FrameV d s)

/-- Checked forms with SIGMODE off change only their destination. With SIGMODE.MODE 0 every checked scalar and vector form
but the conversions completes and changes nothing but its destination register with its counts and the place in the
program. (R88, R90, R111, R116, R128, R129.) -/
def Obligations.FrameOfCheckedForms : Prop :=
  (∀ (i : Instr) (d : Reg), checkedG i = some d → ∀ s : State, s.SigOff → Completes i s (FrameG d s)) ∧
  (∀ (i : Instr) (d : Reg), checkedV i = some d → ∀ s : State, s.SigOff → Completes i s (FrameV d s))

/-- Scalar loads of the own scratchpad and instruction store: value and frame; alias windows. A scalar load whose address
is a multiple of its size and lies in the own scratchpad or instruction store, no word of the core being struck (log
entry 57), completes: gd holds the bytes there, little-endian, sign- or zero-extended, with count 63, and nothing else
changes but the place in the program and the ring of the port. Through an alias window 1 to 7 it takes ACCESS. (R105,
R107, R195, R349.) -/
def Obligations.LoadsReadTheirBytes : Prop :=
  ∀ (i : Instr) (d a : Reg) (im : BitVec 16) (n : Nat) (sx : Bool), loadForm i = some (d, a, im, n, sx) →
  ∀ (s : State) (off : Nat), let A := s.gr a + im.signExtend 64
  let is (m : Memory) (t : State) : Prop :=
    (d ≠ 0 → t.gr d = loadedValue m off n sx ∧ t.grc d = 63) ∧ GRegsBut d s t ∧ AgreeButG s.ctx t.ctx ∧
    SameOtherCtxs s t ∧ SameOutsideButRings s t ∧ SameBytes s t
  A.toNat % n = 0 →
  (OwnAt A off → Lets s (.scratch s.coreId) 0 off → s.Clean → Completes i s (is s.core.mem)) ∧
  (A = BitVec.ofNat 64 (apLocal + 0x1000000 + off) → off < 0x10000 → Lets s (.istore s.coreId) 0 off → s.Clean →
    Completes i s (is s.core.istore)) ∧
  (∀ k, 1 ≤ k → k ≤ 7 → A = BitVec.ofNat 64 (apLocal + k * 0x40000 + off) → off < 0x18000 →
    exec i s = .next (abortCtx s s.core.cur .access))

/-- Scalar stores to the own scratchpad: bytes and frame; where they may not store. A scalar store whose address is a
multiple of its size and lies in the own scratchpad, no word of the core being struck (log entry 57), completes: the
bytes from that offset are the low bytes of gd, every other byte of every memory reads as before, no register and no
count changes. One to the own instruction store or through an alias window 1 to 7 takes ACCESS. (R105, R108, R190,
R195, R349.) -/
def Obligations.StoresWriteTheirBytes : Prop :=
  ∀ (i : Instr) (d a : Reg) (im : BitVec 16) (n : Nat), storeForm i = some (d, a, im, n) →
  ∀ (s : State) (off : Nat), let A := s.gr a + im.signExtend 64
  A.toNat % n = 0 →
  (OwnAt A off → Lets s (.scratch s.coreId) 1 off → s.Clean →
    Completes i s fun t =>
      (∀ k, k < n → t.byteAt (.scratch s.coreId (off + k)) = (s.gr d).extractLsb' (8 * k) 8) ∧
      SameBytesBut s t off n ∧ AgreeButPc s.ctx t.ctx ∧ SameOtherCtxs s t ∧ SameOutsideButMem s t) ∧
  (∀ k, 1 ≤ k → k ≤ 7 → A = BitVec.ofNat 64 (apLocal + k * 0x40000 + off) → off < 0x18000 →
    exec i s = .next (abortCtx s s.core.cur .access)) ∧
  (A = BitVec.ofNat 64 (apLocal + 0x1000000 + off) → off < 0x10000 → exec i s = .next (abortCtx s s.core.cur .access))

/-- Scalar accesses and atomics away from the own scratchpad. A load of another core's scratchpad, none of whose bytes an
older store of its own context in the hoop writes, sends a request for them on the route to that core and stalls; a
store is placed in the open chunk of the hoop and the context goes on. Outside the reach both take ACCESS. A load of
fabric memory whose address translates and whose channel can be reached and reads well completes: each byte is that of
the youngest line of the gather buffer that holds it, else memory's. A store to fabric memory merges its bytes into
the open line of its address, or into a new one where there is room, and commits the task; no byte of memory changes
until a line drains (here one that the store does not fill). An atomic on another core in reach and scope, or on
fabric memory with the scope of a package or wider, is placed as the last effect of the open chunk, which commits with
it, and the context stalls until its old value comes; its scope or its reach falling short takes ACCESS; .rel and
.acqrel wait for a FENCE.W before. Three of these clauses are the model's choice and no rule's words: that a fabric
load homed in this package reads memory as it issues, without the stall of R107 (log entry 9), that a fabric atomic
issues before the gather lines of its location drain (log entry 10), and that the fence of .rel and .acqrel stands
before the checks of R106 and R118 (log entry 84). (R107, R108, R283, R296, R344, R117, R118, R119, R120, R285.) -/
def Obligations.RemoteLoadsAndStores : Prop :=
  (∀ (i : Instr) (d a : Reg) (im : BitVec 16) (n : Nat) (sx : Bool), loadForm i = some (d, a, im, n, sx) →
    ∀ (s : State) (c : CoreId) (off : Nat), (s.gr a + im.signExtend 64).toNat % n = 0 →
      classify (s.gr a + im.signExtend 64) = .remote c off →
      (inReach s.coreId s.ctx c = false → exec i s = .next (abortCtx s s.core.cur .access)) ∧
      (inReach s.coreId s.ctx c = true → 
        (∀ e, (e ∈ s.ctx.hoop ∨ ∃ ch ∈ s.ctx.chunks, e ∈ ch.effs) → e.dst = .core c → e.pkg = none →
          ∀ k, k < n → effByte (off + k) e = none) →
        Completes i s fun t => t.ctx.stall = some .other ∧ t.ctx.pc = s.ctx.pc ∧
          (∃ p, t.net = s.net ++ [p] ∧ p.route = ⟨.core s.coreId, .core c⟩ ∧
            p.body = .op (.load ((List.range n).map fun k => off + k)) ∧
            t.ctx.pending.map Pending.eid = some p.eid))) ∧
  (∀ (i : Instr) (d a : Reg) (im : BitVec 16) (n : Nat), storeForm i = some (d, a, im, n) →
    ∀ (s : State) (c : CoreId) (off : Nat), (s.gr a + im.signExtend 64).toNat % n = 0 →
      classify (s.gr a + im.signExtend 64) = .remote c off →
      (inReach s.coreId s.ctx c = false → exec i s = .next (abortCtx s s.core.cur .access)) ∧
      (inReach s.coreId s.ctx c = true → hoopUsed s.ctx + 24 ≤ 2048 →
        Completes i s fun t => SameBytes s t ∧ t.ctx.pc = (nextPc s.ctx).pc ∧
          ∃ e, t.ctx.hoop = s.ctx.hoop ++ [e] ∧ e.dst = .core c ∧
            e.op = .store (cellsAt off (leBytes n (s.gr d).toNat)))) ∧
  (∀ (i : Instr) (d a : Reg) (im : BitVec 16) (n : Nat) (sx : Bool), loadForm i = some (d, a, im, n, sx) →
    ∀ (s u : State) (va pa : Nat), (s.gr a + im.signExtend 64).toNat % n = 0 →
      classify (s.gr a + im.signExtend 64) = .fabric va →
      translate s (ctxTag s.ctx) s.ctx.stacklimit .read va n = (.ok pa, u) → u.rings = [] → u.symErrs = [] →
      chanCut u pa = false → frameOk u (ctxTag s.ctx) pa = true → (∀ k, k < n → readable u (pa + k) = true) →
      let v := leNat ((List.range n).map fun k =>
        (gatherFwd s.core ⟨none, ctxTag s.ctx, va + k, pa + k⟩).getD (rd8 s.dram (pa + k)))
      Completes i s fun t => (d ≠ 0 → t.grc d = 63 ∧
          t.gr d = if sx then (BitVec.ofNat (8 * n) v).signExtend 64 else BitVec.ofNat 64 v) ∧
        GRegsBut d s t ∧ SameBytes s t ∧ t.core.gather = s.core.gather) ∧
  (∀ (i : Instr) (d a : Reg) (im : BitVec 16) (n : Nat), storeForm i = some (d, a, im, n) →
    ∀ (s u : State) (va pa : Nat), (s.gr a + im.signExtend 64).toNat % n = 0 →
      classify (s.gr a + im.signExtend 64) = .fabric va →
      translate s (ctxTag s.ctx) s.ctx.stacklimit .write va n = (.ok pa, u) → va % 64 = pa % 64 → s.ctx.storing = none →
      (∀ l ∈ s.core.gather, l.drain = none → fullLine l = false) →
      let p : LinePlace := ⟨none, ctxTag s.ctx, va, pa⟩
      let put (l : GLine) : GLine := { l with
        bytes := l.bytes.mapIdx fun j b => if va % 64 ≤ j ∧ j < va % 64 + n then
          some ((s.gr d).extractLsb' (8 * (j - va % 64)) 8, s.core.cur) else b
        tag := ctxTag s.ctx, who := (s.core.cur, s.ctx.actSeq), last := s.now }
      let new : GLine := ⟨va / 64 * 64, pa / 64 * 64, none, List.replicate 64 none, ctxTag s.ctx, (s.core.cur, s.ctx.actSeq), s.now, none⟩
      ((∀ l ∈ s.core.gather, openAt p l = false) → s.core.gather.length < 8 →
        Completes i s fun t => t.core.gather = s.core.gather ++ [put new] ∧ t.ctx.committed = true ∧ SameBytes s t ∧
          t.ctx.pc = (nextPc s.ctx).pc ∧ ∀ q, t.gr q = s.gr q ∧ t.grc q = s.grc q) ∧
      (∀ pre l post, s.core.gather = pre ++ l :: post → openAt p l = true → (∀ q ∈ pre ++ post, openAt p q = false) →
        fullLine (put l) = false →
        Completes i s fun t => t.core.gather = pre ++ put l :: post ∧ t.ctx.committed = true ∧ SameBytes s t ∧
          t.ctx.pc = (nextPc s.ctx).pc ∧ ∀ q, t.gr q = s.gr q ∧ t.grc q = s.grc q)) ∧
  (∀ (i : Instr) (fn : BitVec 4) (d a b : Reg) (sc : Scope) (o : MemOrd) (z : Size),
    atomicForm i = some (fn, d, a, b, sc, o, z) → ∀ s : State,
    let rel : Prop := o = .rel ∨ o = .acqrel; let s0 := if o = .rel ∨ o = .acqrel then (fenceW s).1 else s
    (rel → (fenceW s).2 = false → exec i s = .next ((fenceW s).1.stallAs .other)) ∧
    ((rel → (fenceW s).2 = true) → (s.gr a).toNat % sizeBytes z = 0 →
      let fits : Prop := hoopUsed s0.ctx + 32 ≤ 2048
      let sent (dst : Port) (at_ : Nat) (t : State) : Prop := t.ctx.stall = some .other ∧ t.ctx.pc = s.ctx.pc ∧ t.ctx.g = s.ctx.g ∧
        t.ctx.committed = true ∧ t.ctx.hoop = [] ∧ ∃ e, t.ctx.chunks = s0.ctx.chunks ++ [⟨s0.ctx.hoop ++ [e]⟩] ∧
          e.dst = dst ∧ e.pkg = none ∧ e.sent = false ∧ e.op = .atomic fn z at_ (s.gr b) (s.gr d) ∧
          t.ctx.pending = some ⟨e.eid, [], [], [], .amo d⟩
      (∀ c off, classify (s.gr a) = .remote c off →
        (scopeCore s.coreId c sc = true → inReach s.coreId s.ctx c = true → fits → Completes i s (sent (.core c) off)) ∧
        (scopeCore s.coreId c sc = false ∨ inReach s.coreId s.ctx c = false →
          exec i s = .next (abortCtx s0 s.core.cur .access))) ∧
      (∀ va, classify (s.gr a) = .fabric va →
        (∀ u pa, sc = .pkg ∨ sc = .pod → fits → translate s0 (ctxTag s.ctx) s.ctx.stacklimit .atomic va (sizeBytes z) = (.ok pa, u) →
          Completes i s (sent (.chan (BitVec.ofNat 5 (chanOf pa))) pa)) ∧
        (sc ≠ .pkg → sc ≠ .pod → exec i s = .next (abortCtx s0 s.core.cur .access)))))

/-- A scalar access whose address is no multiple of its size takes ALIGN. For every scalar load and store, from every
state and whatever the address names: alignment is judged first. (R106.) -/
def Obligations.MisalignedAccessesTrap : Prop :=
  (∀ (i : Instr) (d a : Reg) (im : BitVec 16) (n : Nat) (sx : Bool), loadForm i = some (d, a, im, n, sx) →
    ∀ s : State, (s.gr a + im.signExtend 64).toNat % n ≠ 0 → exec i s = .next (abortCtx s s.core.cur .align)) ∧
  (∀ (i : Instr) (d a : Reg) (im : BitVec 16) (n : Nat), storeForm i = some (d, a, im, n) →
    ∀ s : State, (s.gr a + im.signExtend 64).toNat % n ≠ 0 → exec i s = .next (abortCtx s s.core.cur .align))

/-- Rounded scalar results with SIGMODE off. With SIGMODE.MODE 0 each rounding form completes with the rounded result and
its count in gd (an f32 result zero-extended), rounded by the mode its code names, or FRM where it is dynamic. Where
an operand is a zero, the count is R83's as the model reads it (log entry 25). (R75, R82, R92, R111, R116, R83, R84.) -/
def Obligations.FloatingPointResults : Prop :=
  ∀ (s : State) (d a b c : Reg) (p : Prec) (r : Rnd), s.SigOff →
  let f := precFmt p; let m := rndOf s.ctx r false
  let x := fopnd s.ctx p a; let y := fopnd s.ctx p b; let z := fopnd s.ctx p c
  let put (q : FRes) : Out := .next (s.setGC d (BitVec.ofNat 64 q.bits) q.count).advance
  exec (.fadd d a b p r) s = put (faddR f m x y) ∧ exec (.fsub d a b p r) s = put (faddR f m x (fnegV y)) ∧
  exec (.fmul d a b p r) s = put (fmulR f m x y) ∧ exec (.fdiv d a b p r) s = put (fdivR f m x y) ∧
  exec (.fsqrt d a p r) s = put (fsqrtR f m x) ∧ exec (.frint d a p r) s = put (frintR f m x) ∧
  exec (.fma d a b c p r) s = put (fmaR f m false false x y z) ∧
  exec (.fms d a b c p r) s = put (fmaR f m false true x y z) ∧
  exec (.fnma d a b c p r) s = put (fmaR f m true false x y z) ∧
  exec (.fnms d a b c p r) s = put (fmaR f m true true x y z)

/-- Comparisons, minimum, maximum, sign and count forms. Each form that rounds nothing completes from every state with the
result of R112 or R113; the comparisons and FCLASS write integers with count 63; FSETSIG writes the count it is given,
0 with an infinity or NaN; FSIG reads the count under R82. That the counts of infinities and NaN are 0 in FSETSIG,
FMIN, FMAX and the FCPS forms too is read from R82 and R83 by inference (log entry 27). (R82, R83, R112, R113.) -/
def Obligations.FloatingPointUnroundedResults : Prop :=
  ∀ (s : State) (d a b : Reg) (p : Prec),
  let f := precFmt p; let x := fopnd s.ctx p a; let y := fopnd s.ctx p b
  let sa := signBit f (s.gr a).toNat; let sb := signBit f (s.gr b).toNat
  let put (q : FRes) : Out := .next (s.setGC d (BitVec.ofNat 64 q.bits) q.count).advance
  let bits := BitVec.ofNat 64 ((s.gr a).toNat % 2 ^ fmtBits f)
  exec (.fmin d a b p) s = put (fminmaxR f false x y) ∧ exec (.fmax d a b p) s = put (fminmaxR f true x y) ∧
  exec (.feq d a b p) s = .next (s.setG d (bitW (eqF x.n y.n))).advance ∧
  exec (.flt d a b p) s = .next (s.setG d (bitW (ltF x.n y.n))).advance ∧
  exec (.fle d a b p) s = .next (s.setG d (bitW (leF x.n y.n))).advance ∧
  exec (.fclass d a p) s = .next (s.setG d (BitVec.ofNat 64 (fclassBits f ((s.gr a).toNat % 2 ^ fmtBits f)))).advance ∧
  exec (.fcps d a b p) s = put (signed f x sb) ∧ exec (.fcpsn d a b p) s = put (signed f x (!sb)) ∧
  exec (.fcpsx d a b p) s = put (signed f x (sa != sb)) ∧
  exec (.fsig d a p) s = .next (s.setG d (BitVec.ofNat 64 (readCount (fmtP f) (s.grc a)))).advance ∧
  exec (.fsetsig d a b p) s =
    .next (s.setGC d bits (if specialF (decodeF f bits.toNat) then 0 else (s.gr b).setWidth 6)).advance ∧
  exec (.fmvi d a p) s = .next (s.setG d bits).advance

/-- Scalar conversions, with the random mode. FCVTI and FCVTU write the rounded, saturated integer with count 63. FCVTF,
FCVTFU and FCVTP to f32 may round stochastically: the context's random state advances exactly then, before it is used.
FCVTP, checked, is stated with SIGMODE off. (R76, R78, R114.) -/
def Obligations.FloatingPointConversions : Prop :=
  (∀ (s : State) (d a : Reg) (p : Prec) (r : Rnd),
    exec (.fcvti d a p r) s =
      .next (s.setG d (BitVec.ofNat 64 (toIntF (rndOf s.ctx r false) 0 64 false (fopnd s.ctx p a).n))).advance ∧
    exec (.fcvtu d a p r) s =
      .next (s.setG d (BitVec.ofNat 64 (toIntF (rndOf s.ctx r false) 0 64 true (fopnd s.ctx p a).n))).advance) ∧
  (∀ (s : State) (d a : Reg) (p : Prec) (r : Rnd),
    let m := rndOf s.ctx r true
    let u := if m = .sr then lfsrNext s.ctx.lfsr else s.ctx.lfsr
    let put (q : FRes) : Out :=
      .next (((s.modCtx fun x => { x with lfsr := u }).setGC d (BitVec.ofNat 64 q.bits) q.count).advance)
    exec (.fcvtf d a p r) s = put (ofIntR (precFmt p) m false u (s.gr a).toInt) ∧
    exec (.fcvtfu d a p r) s = put (ofIntR (precFmt p) m false u ((s.gr a).toNat : Int)) ∧
    (s.SigOff → exec (.fcvtp d a .f32 r) s = put (fcvtR f64F f32F m false u (fopnd s.ctx .f64 a)))) ∧
  (∀ (s : State) (d a : Reg) (r : Rnd), s.SigOff →
    let q := fcvtR f32F f64F .rne false 0 (fopnd s.ctx .f32 a)
    exec (.fcvtp d a .f64 r) s = .next (s.setGC d (BitVec.ofNat 64 q.bits) q.count).advance)

/-- Taking a significance trap and returning from it. When FADD's result meets the trap condition with MODE 2, INH clear
and a handler set, the result stands in gd, SIGPC holds the instruction's address, SIGOP the counts, the PC is SIGVEC,
STICKY and INH are set. With INH set, or MODE 1, it only sets STICKY and goes on. SRET with INH set clears INH and
resumes after SIGPC (R169; outside a replay, R150); with INH clear it is an ILLEGAL trap (R169). (R32, R88, R90, R91,
R150, R169.) -/
def Obligations.SignificanceTrapEntry : Prop :=
  (∀ (s : State) (d a b : Reg) (p : Prec) (r : Rnd),
    let f := precFmt p; let x := fopnd s.ctx p a; let y := fopnd s.ctx p b
    let q := faddR f (rndOf s.ctx r false) x y
    let e : SigElem := ⟨0, q.count, fmtP f, [x, y], [x.c, y.c]⟩
    sigMeets s.ctx.sigthr e = true →
    (s.ctx.sigmode.mode = 2 → s.ctx.sigmode.inh = false → s.ctx.sigvec ≠ 0 →
      Completes (.fadd d a b p r) s fun t =>
        (d ≠ 0 → t.gr d = BitVec.ofNat 64 q.bits ∧ t.grc d = q.count) ∧ t.ctx.sigpc = s.ctx.pc ∧
        t.ctx.sigop = sigOpBits e false ∧ t.ctx.pc = s.ctx.sigvec ∧ t.ctx.sigmode.inh = true ∧
        t.ctx.sigmode.sticky = true ∧ t.ctx.rep = s.ctx.rep ∧ GRegsBut d s t ∧ SameBytes s t) ∧
    (s.ctx.sigmode.mode = 1 ∨ (s.ctx.sigmode.mode = 2 ∧ s.ctx.sigmode.inh = true) →
      exec (.fadd d a b p r) s =
        .next (((s.setGC d (BitVec.ofNat 64 q.bits) q.count).modCtx setSticky).advance)) ∧
    (s.ctx.sigmode.mode = 3 ∨ (s.ctx.sigmode.mode = 2 ∧ s.ctx.sigmode.inh = false ∧ s.ctx.sigvec = 0) →
      Completes (.fadd d a b p r) s fun t => t.ctx.phase = .ending)) ∧
  (∀ s : State, s.ctx.sigmode.inh = true → repAct s.ctx.rep = false →
    Completes .sret s fun t => t.ctx.pc = s.ctx.sigpc + 4 ∧ t.ctx.sigmode = { s.ctx.sigmode with inh := false } ∧
      AgreeButPc { s.ctx with sigmode := t.ctx.sigmode } t.ctx) ∧
  (∀ s : State, s.ctx.sigmode.inh = false → exec .sret s = .next (abortCtx s s.core.cur .illegal))

/-- What an abortive trap saves and where the task goes. Taking an abortive trap in a context with a task: a fault record
with the core, context, cause, PC, message id and committed flag reaches the supervisors; the open chunk is discarded;
the context ends its task; the record returns to the inbox of its band with its arrival, marked with the cause and the
committed flag, and the band is held. The record keeps d1-d3 with their held bits as they stand, the reference of an
FREF whose increment has been acknowledged held too; a register whose release stood in the discarded open chunk is
kept as before that release, its bit set. Where such a record is discarded, a reference kept with it to a scratchpad
frame is released. (R29, R30, R31.) -/
def Obligations.AbortiveTrapEntry : Prop :=
  (∀ (s : State) (c : CtxNo) (cause : Cause) (r : Record), (s.ctxAt c).task = some r →
  let t := abortCtx s c cause
  t.records = s.records ++ [.fault s.coreId c cause (s.ctxAt c).pc r.msgid (s.ctxAt c).committed false [] none] ∧
  (t.ctxAt c).phase = .ending ∧ (t.ctxAt c).task = none ∧ (t.ctxAt c).hoop = [] ∧
  (∃ q : Record, t.core.inbox.head? = some q ∧ q.msgid = r.msgid ∧ q.band = r.band ∧ q.entry = r.entry ∧
    q.arrived = r.arrived ∧ q.trapped = some (cause, (s.ctxAt c).committed) ∧
    ∃ (ds : Vector Word 3) (hs : BitVec 3), q.kept = some (ds, hs) ∧ ∀ n : Fin 3,
      let x := s.ctxAt c; let m : BitVec 2 := BitVec.ofNat 2 (n.val + 1)
      ((∀ e ∈ x.hoop, ∀ v, e.drops ≠ some (m, v)) →
        ds[n] = x.d[n.val + 1] ∧ hs.getLsbD n = (keepFref x).held.getLsbD (n.val + 1)) ∧
      (∀ w, (∃ e ∈ x.hoop, e.drops = some (m, w)) → (∀ e ∈ x.hoop, ∀ v, e.drops = some (m, v) → v = w) →
        ds[n] = w ∧ hs.getLsbD n = true)) ∧
  bandHeld t.core r.band = true ∧
  (∀ e : CtxNo, e ≠ c → t.ctxAt e = s.ctxAt e)) ∧
  (∀ (s : State) (b : BitVec 2) (r : Record) (cause : Cause) (com : Bool) (w : Word), trappedHead s.core b = some r →
    r.trapped = some (cause, com) → (com = true ∨ r.retried = true) → keptRefs r = [w] → dKind w = 1 → r.launch = none →
    Completes (.recordDiscard b) s fun t => t.core.inbox.length + 1 = s.core.inbox.length ∧
      t.net = s.net ++ [⟨⟨.core s.coreId, .core (dCore w)⟩, .ni, s.eids, false, false, ⟨0, 0, true⟩, 0,
        .op (.frameRel (dOffset w)), false⟩])

/-- Atomics on the own scratchpad. An aligned atomic on the own scratchpad with no release ordering, or with nothing for a
fence to wait for, no word of the core being struck (log entry 57), completes: memory holds the value its function
gives of the old value and gb (ACAS only where the old value is the one expected), every other byte is as before, gd
holds the old value zero-extended with count 63. (R117, R119, R120.) -/
def Obligations.AtomicsOfTheOwnScratchpad : Prop :=
  ∀ (i : Instr) (fn : BitVec 4) (d a b : Reg) (sc : Scope) (o : MemOrd) (z : Size),
  atomicForm i = some (fn, d, a, b, sc, o, z) →
  ∀ (s : State) (off : Nat), (s.gr a).toNat % sizeBytes z = 0 → OwnAt (s.gr a) off → Lets s (.scratch s.coreId) 2 off →
    s.Clean → (o = .rlx ∨ o = .acq ∨ Quiet s) →
    let n := sizeBytes z
    let v := rdNat s.core.mem off n
    let w := amoNew fn (8 * n) v ((s.gr b).toNat % 2 ^ (8 * n)) ((s.gr d).toNat % 2 ^ (8 * n))
    let skip := fn = 9 ∧ v ≠ (s.gr d).toNat % 2 ^ (8 * n)
    Completes i s fun t =>
      (d ≠ 0 → t.gr d = BitVec.ofNat 64 v ∧ t.grc d = 63) ∧ GRegsBut d s t ∧
      (∀ k, k < n → t.byteAt (.scratch s.coreId (off + k)) =
        if skip then s.byteAt (.scratch s.coreId (off + k)) else BitVec.ofNat 8 (w / 256 ^ k)) ∧
      SameBytesBut s t off n ∧ (∀ r, t.vr r = s.vr r ∧ t.vrc r = s.vrc r)

/-- Frame slots of the own scratchpad, FADR, FKEEP, display registers. With no word of the core struck (log entry 57), LDF
and LDFA load a slot that lies in the own scratchpad; STF and, with nothing to wait for, STFR store it (slot 0 merged
as R152 says); FADR writes the slot's address; FKEEP makes the depth-0 frame live with one reference unless it is
live; DSPL reads a display register; DSPS of one not held replaces it. A slot that R19 rejects, or one of a descriptor
that names none, takes ACCESS in every form; a scratchpad (kind 01) frame whose OFFSET is no multiple of 64 names none
by the model's choice (log entry 58). (R19, R151, R152, R153.) -/
def Obligations.FrameSlotForms : Prop :=
  ∀ (s : State) (d : Reg) (n : BitVec 2) (slot : BitVec 11),
  (∀ off, slotAt s n slot = some (.here off) →
    (Lets s (.scratch s.coreId) 0 off → s.Clean →
      exec (.ldf d n slot) s = .next (((s.noted (.scratch s.coreId) 0 off).setG d (loadedValue s.core.mem off 8 false)).advance) ∧
      exec (.ldfa d n slot) s = .next (((s.noted (.scratch s.coreId) 0 off).setG d (loadedValue s.core.mem off 8 false)).advance)) ∧
    (Lets s (.scratch s.coreId) 1 off → s.Clean →
      let y := if slot = 0 then mergeSlot0 (rdNat s.core.mem off 8) (s.gr d).toNat else (s.gr d).toNat
      let t := (((s.noted (.scratch s.coreId) 1 off).modCore fun k => { k with mem := wrBytes k.mem off (leBytes 8 y) }).advance)
      exec (.stf d n slot) s = .next t) ∧
    exec (.fadr d n slot) s = .next (s.setG d (BitVec.ofNat 64 (apLocal + off))).advance) ∧
  (∀ off, slotAt s n slot = some (.here off) → Quiet s → Lets s (.scratch s.coreId) 1 off → s.Clean →
    Completes (.stfr d n slot) s fun t =>
      t.core.mem = wrBytes s.core.mem off (leBytes 8
        (if slot = 0 then mergeSlot0 (rdNat s.core.mem off 8) (s.gr d).toNat else (s.gr d).toNat))) ∧
  (slotAt s n slot = none →
    exec (.ldf d n slot) s = .next (abortCtx s s.core.cur .access) ∧
    exec (.ldfa d n slot) s = .next (abortCtx s s.core.cur .access) ∧
    exec (.stf d n slot) s = .next (abortCtx s s.core.cur .access) ∧
    exec (.stfr d n slot) s = .next (abortCtx s s.core.cur .access) ∧
    exec (.fadr d n slot) s = .next (abortCtx s s.core.cur .access)) ∧
  exec (.dspl d n) s = .next (s.setG d (s.dreg n)).advance ∧
  (s.heldBit n = false →
    exec (.dsps d n) s = .next (s.modCtx fun x => setHeld (setD x n (s.gr d)) n false).advance) ∧
  (let off := dOffset (s.dreg 0)
   let x := rdNat s.core.mem off 8
   Lets s (.scratch s.coreId) 5 off → s.Clean →
     Completes .fkeep s fun t =>
       t.core.mem = if sLv x then s.core.mem else wrBytes s.core.mem off (leBytes 8 (sWith x 1 true)))

/-- FREF and FREL of a counted scratchpad frame. FREF of a counted frame of a visible core whose reference is not held
places an increment, commits its chunk and stalls; once the increment is acknowledged it sets the held bit and the
context goes on. FREL of a held one places a release and clears the held bit. FREF of a held or uncounted valid
descriptor, and FREL of one not held, do nothing. That a descriptor whose OFFSET lies beyond the scratchpad is sent
and not trapped here is the model's choice (log entry 92). Frames in fabric memory are not meant. (R23, R24, R154.) -/
def Obligations.FrameReferences : Prop :=
  ∀ (s : State) (n : BitVec 2),
  (s.ctx.frefWait = none → dCounted (s.dreg n) = true → dKind (s.dreg n) = 1 → visible (dCore (s.dreg n)) = true →
    hoopUsed s.ctx + 16 ≤ 2048 →
    (s.heldBit n = false →
      Completes (.fref n) s fun t => t.ctx.frefWait = some (n, s.eids) ∧ t.ctx.stall = some .other ∧ t.ctx.pc = s.ctx.pc ∧
        ∃ e, t.ctx.chunks = s.ctx.chunks ++ [⟨s.ctx.hoop ++ [e]⟩] ∧ e.eid = s.eids ∧
          e.dst = .core (dCore (s.dreg n)) ∧ e.op = .frameInc (dOffset (s.dreg n)) 1) ∧
    (s.heldBit n = true →
      Completes (.frel n) s fun t => t.heldBit n = false ∧ t.ctx.pc = (nextPc s.ctx).pc ∧
        ∃ e, t.ctx.hoop = s.ctx.hoop ++ [e] ∧ e.dst = .core (dCore (s.dreg n)) ∧
          e.op = .frameRel (dOffset (s.dreg n)))) ∧
  (∀ m e, s.ctx.frefWait = some (m, e) → (∀ k ∈ s.ctx.chunks, ∀ f ∈ k.effs, f.eid ≠ e) →
    exec (.fref n) s = .next (s.modCtx fun x => { setHeld x n true with frefWait := none, sinceCommit := 0 }).advance) ∧
  (s.ctx.frefWait = none → dValid (s.dreg n) = true → (s.heldBit n = true ∨ dCounted (s.dreg n) = false) →
    exec (.fref n) s = .next s.advance) ∧
  (s.heldBit n = false → exec (.frel n) s = .next s.advance)

/-- TSAVE, TRESTORE, VTSAVE, VTRESTORE in the own scratchpad. With no word of the core struck (log entry 57), an aligned
save stores the counts as held, one byte each: 8 of g registers, 32 of a v register. A restore sets the counts from
the low 6 bits of the bytes and keeps the values. (R87, R155.) -/
def Obligations.CountsToAndFromMemory : Prop :=
  ∀ (s : State) (d a : Reg) (i : BitVec 14) (off : Nat), let A := s.gr a + i.signExtend 64
  OwnAt A off → s.Clean →
  (A.toNat % 8 = 0 → Lets s (.scratch s.coreId) 1 off → d.toNat ≤ 24 →
    Completes (.tsave d a i) s fun t => t.core.mem = wrBytes s.core.mem off
      ((List.range 8).map fun k => (s.grc (d + BitVec.ofNat 5 k)).setWidth 8)) ∧
  (A.toNat % 32 = 0 → Lets s (.scratch s.coreId) 1 off →
    Completes (.vtsave d a i) s fun t => t.core.mem = wrBytes s.core.mem off
      ((s.vrc d).toList.map fun c => c.setWidth 8)) ∧
  (A.toNat % 8 = 0 → Lets s (.scratch s.coreId) 0 off → d.toNat ≤ 24 →
    Completes (.trestore d a i) s fun t => SameBytes s t ∧ (∀ r, t.gr r = s.gr r) ∧
      (∀ k, k < 8 → d + BitVec.ofNat 5 k ≠ 0 →
        t.grc (d + BitVec.ofNat 5 k) = (rd8 s.core.mem (off + k)).setWidth 6) ∧
      (∀ r : Reg, r.toNat < d.toNat ∨ d.toNat + 8 ≤ r.toNat → t.grc r = s.grc r)) ∧
  (A.toNat % 32 = 0 → Lets s (.scratch s.coreId) 0 off →
    Completes (.vtrestore d a i) s fun t => SameBytes s t ∧ t.vr d = s.vr d ∧ VRegsBut d s t ∧
      (∀ k (h : k < 32), (t.vrc d)[k] = (rd8 s.core.mem (off + k)).setWidth 6))

/-- SEND, SENDM, SPAWN and SPAWN.cap place one message. With no payload, a visible destination and room in the hoop, SEND
and SENDM place one message effect for that core, with the next message id, which gd takes; SPAWN does so with CLASS
1; SPAWN.cap of three descriptors that are not counted adds the capture block of d0 to d2. The payload of SEND is the
bytes of the own scratchpad at gb, where no trace ring holds that read back. (R156, R157, R158, R283.) -/
def Obligations.MessagesArePlaced : Prop :=
  ∀ (s : State) (d a b c : Reg),
  let id := nextId s.core.msgId
  let sent (cls : BitVec 3) (cap : Option Capture) (pay : List Byte) (t : State) : Prop :=
    t.core.msgId = id ∧ (d ≠ 0 → t.gr d = id.setWidth 64 ∧ t.grc d = 63) ∧ GRegsBut d s t ∧ SameBytes s t ∧
    ∃ e m, t.ctx.hoop = s.ctx.hoop ++ [e] ∧ e.dst = .core (sendDest (s.gr a)) ∧ e.op = .msg m ∧
      m.cls = cls ∧ m.cap = cap ∧ m.payload = pay ∧ hId m = id ∧ hSrc m = s.coreId ∧
      hDest m = sendDest (s.gr a) ∧ hEntry m = (s.gr a).extractLsb' 0 8 ∧ hArg m = (s.gr c).toNat % 2 ^ 32
  sendSpray (s.gr a) = false → visible (sendDest (s.gr a)) = true → hoopUsed s.ctx + 48 ≤ 2048 →
  (sendLen (s.gr a) = 0 →
    Completes (.send d a b c) s (sent 0 none []) ∧ Completes (.sendm d a b c) s (sent 0 none []) ∧
    Completes (.spawn d a b c) s (sent 1 none []) ∧
    (dCounted (s.dreg 0) = false → dCounted (s.dreg 1) = false → dCounted (s.dreg 2) = false →
      Completes (.spawnCap d a b c) s (sent 1 (some ⟨#v[s.dreg 0, s.dreg 1, s.dreg 2], 0⟩) []))) ∧
  (∀ off, s.Clean → Lets s (.scratch s.coreId) 0 off → sendLen (s.gr a) = 1 → (s.gr b).toNat % 8 = 0 → OwnAt (s.gr b) off → off + 32 ≤ spTop →
    Completes (.send d a b c) s (sent 0 none (rdBytes s.core.mem off 32)))

/-- CDEC, COMMIT, WFE, SEV, EXIT, ERET. CDEC places a decrement; COMMIT moves the open chunk behind the committed ones;
COMMIT.W goes on once no committed effect is outstanding; WFE clears a set latch and goes on, else stalls; SEV to the
own core sets latches. EXIT of a task that is no gang member, with no engine command, no held reference and a d0 frame
that is not live and that no SPAWN.cap of the task makes live commits, frees the frame and ends the task, where no
replay holds the read of its frame back (R350); ERET puts the record back in the inbox. (R24, R159, R160, R161, R162,
R170, R283.) -/
def Obligations.EventsEndingsAndCommits : Prop :=
  ∀ (s : State) (a b : Reg),
  (∀ c off, cdAim s.coreId (s.gr a) = .record c off → hoopUsed s.ctx + 16 ≤ 2048 →
    Completes (.cdec a b) s fun t => SameBytes s t ∧
      ∃ e, t.ctx.hoop = s.ctx.hoop ++ [e] ∧ e.dst = .core c ∧
        e.op = .cdec off (if b = 0 then 1 else (s.gr b).toNat % 2 ^ 32) none) ∧
  (s.ctx.hoop ≠ [] → Completes .commit s fun t => t.ctx.hoop = [] ∧
    t.ctx.chunks = s.ctx.chunks ++ [⟨s.ctx.hoop⟩] ∧ t.ctx.committed = true ∧ t.ctx.pc = (nextPc s.ctx).pc) ∧
  (s.ctx.hoop = [] → s.ctx.chunks = [] → exec .commitW s = .next s.commit.advance) ∧
  (s.ctx.latch = true → exec .wfe s = .next (s.modCtx fun x => { x with latch := false }).advance) ∧
  (s.ctx.latch = false → exec .wfe s = .next (s.stallAs .other)) ∧
  ((s.gr a).extractLsb' 0 12 = s.coreId → visible s.coreId = true →
    Completes (.sev a) s fun t => ∀ c : CtxNo,
      (t.ctxAt c).latch = ((s.ctxAt c).latch || (s.gr a).getLsbD 15 || decide ((s.gr a).extractLsb' 12 2 = c))) ∧
  (enginesBusy s.core s.core.cur = false → s.ctx.held = 0 → (∀ n, (headAt s.ctx n).bnd = false) → exitBar s.ctx = none →
    dKind (s.dreg 0) = 1 → ownerOfD0 s s.core.cur = false → lvHeld s s.core.cur = false →
    Completes .exit s fun t => t.ctx.phase = .ending ∧ t.ctx.hoop = [] ∧
      t.core.frames = (freeFrameAt s.core (dOffset (s.dreg 0))).frames ∧ SameBytes s t) ∧
  (∀ r : Record, enginesBusy s.core s.core.cur = false → s.ctx.task = some r → (∀ n, (headAt s.ctx n).bnd = false) →
    dKind (s.dreg 0) = 1 → ownerOfD0 s s.core.cur = false → lvHeld s s.core.cur = false →
    Completes .eret s fun t => t.ctx.phase = .ending ∧ t.ctx.task = none ∧
      ∃ q : Record, t.core.inbox = s.core.inbox ++ [q] ∧ q.msgid = r.msgid ∧ q.band = bandOf r.pri)

/-- Fences with nothing to wait for, ARRIVE, WAIT, BTEST. FENCE.R always goes on; the other fences go on where nothing is
outstanding. ARRIVE with nothing outstanding writes the barrier's phase bit to gd, with count 63, and no other
register, and signals the core's arrival; WAIT goes on once the phase bit differs from ga[0], else it stalls on that
barrier; BTEST writes whether it differs. A barrier that is disabled or has not this core as a member takes ACCESS,
but for a WAIT that already stalls on it: that one goes on or stalls as before. (R163, R164, R165, R304.) -/
def Obligations.FencesAndBarriers : Prop :=
  ∀ (s : State) (d a : Reg) (sc : BarScope) (i : BitVec 6), let n := barOf s.coreId sc i
  exec .fenceR s = .next s.advance ∧
  (Quiet s → exec .fenceW s = .next s.commit.advance ∧ exec .fenceRw s = .next s.commit.advance ∧
    exec .xfence s = .next s.commit.advance) ∧
  (barUsable s n = true → Quiet s →
    Completes (.arrive d sc i) s fun t =>
      (d ≠ 0 → t.gr d = bitW (s.bar n).p ∧ t.grc d = 63) ∧ GRegsBut d s t ∧ t.ctx.pc = (nextPc s.ctx).pc ∧
      (t.bar n).came = (if (s.bar n).came.contains s.coreId then (s.bar n).came else (s.bar n).came ++ [s.coreId]) ∧
      (t.bar n).p = (s.bar n).p) ∧
  (barUsable s n = true ∨ s.ctx.stall = some (.barrier n) → (s.bar n).p ≠ (s.gr a).getLsbD 0 →
    exec (.wait a sc i) s = .next s.advance) ∧
  (barUsable s n = true ∨ s.ctx.stall = some (.barrier n) → (s.bar n).p = (s.gr a).getLsbD 0 →
    Completes (.wait a sc i) s fun t => t.ctx.stall = some (.barrier n) ∧ t.ctx.pc = s.ctx.pc) ∧
  (barUsable s n = true →
    exec (.btest d a sc i) s = .next (s.setG d (bitW ((s.bar n).p != (s.gr a).getLsbD 0))).advance) ∧
  (barUsable s n = false → exec (.arrive d sc i) s = .next (abortCtx s s.core.cur .access) ∧
    (s.ctx.stall ≠ some (.barrier n) → exec (.wait a sc i) s = .next (abortCtx s s.core.cur .access)) ∧
    exec (.btest d a sc i) s = .next (abortCtx s s.core.cur .access))

/-- QPUSH, QPOP, QTRY, QCNT. Where no context stalls at the queue, a push appends ga, or stalls where the queue holds 8
values; a pop removes the oldest into gd, or stalls where it is empty; QTRY removes the oldest into gd with ga 1, or
leaves gd and sets ga 0; QCNT writes the number of values. The other queues are as they were. Where two other contexts
stall in a pop of an empty queue, a push gives its value to the lower one, whose pop is done, and the higher one
stalls on. (R166.) -/
def Obligations.QueuesAreFirstInFirstOut : Prop :=
  (∀ (s : State) (d a : Reg) (q : BitVec 2), (∀ c, waitsAt (s.ctxAt c) q = none) →
  (8 ≤ (qAt s.core q).length → exec (.qpush a q) s = .next (s.stallAs (.queue q (.push (s.gr a))))) ∧
  ((qAt s.core q).length < 8 → Lets s (.queues s.coreId) 1 q.toNat →
    Completes (.qpush a q) s fun t => ∀ p, qAt t.core p = if p = q then qAt s.core q ++ [s.gr a] else qAt s.core p) ∧
  (qAt s.core q = [] → exec (.qpop d q) s = .next (s.stallAs (.queue q (.pop d)))) ∧
  (∀ x rest, qAt s.core q = x :: rest → Lets s (.queues s.coreId) 0 q.toNat →
    Completes (.qpop d q) s (fun t => (d ≠ 0 → t.gr d = x ∧ t.grc d = 63) ∧ GRegsBut d s t ∧
      ∀ p, qAt t.core p = if p = q then rest else qAt s.core p) ∧
    (d ≠ a ∨ d = 0 → Completes (.qtry d a q) s fun t => (d ≠ 0 → t.gr d = x) ∧ (a ≠ 0 → t.gr a = 1) ∧
      ∀ p, qAt t.core p = if p = q then rest else qAt s.core p)) ∧
  (qAt s.core q = [] → Lets s (.queues s.coreId) 0 q.toNat →
    Completes (.qtry d a q) s fun t => (a ≠ 0 → t.gr a = 0) ∧ GRegsBut a s t ∧ t.core.q = s.core.q) ∧
  exec (.qcnt d q) s = .next (s.setG d (BitVec.ofNat 64 (qAt s.core q).length)).advance) ∧
  (∀ (s : State) (a d e : Reg) (q : BitVec 2) (b c : CtxNo), b < c → b ≠ s.core.cur → c ≠ s.core.cur → s.rings = [] →
    qAt s.core q = [] → waitsAt (s.ctxAt b) q = some (.pop d) → waitsAt (s.ctxAt c) q = some (.pop e) →
    (∀ o, o ≠ b → o ≠ c → waitsAt (s.ctxAt o) q = none) →
    Completes (.qpush a q) s fun t => (d ≠ 0 → gval (t.ctxAt b) d = s.gr a ∧ gcount (t.ctxAt b) d = 63) ∧
      (t.ctxAt b).pc = (nextPc (s.ctxAt b)).pc ∧ (t.ctxAt b).stall = none ∧ t.ctxAt c = s.ctxAt c ∧
      ∀ p, qAt t.core p = qAt s.core p)

/-- Heads of the shift store. HBIND of an unbound head to a free bank, no line transfer of which goes on past this cycle,
writes its fields and holds the bank; HFREE of a bound head clears its fields and gives up its bank and its claim, of
an unbound one changes no head; where no claim waits for the bank, SEEK of a head that holds it sets POS and steers,
and within a line transfer's occupancy the step shift under way makes its first position before; HWAIT goes on once
the head is aligned, and stalls while the bank it holds has not reached its position; RDS and WRS of an aligned head,
whose bank stands true, with no word struck (log entry 57), read and write the line under it, in the step that issues
them (the model's choice, log entry 19), and step POS, and stall while none of the four channels is free; RWD of a
head that holds its bank stalls and starts the rewind, unless a line transfer's occupancy goes on past this cycle;
HSTAT writes the head's state as it stands in this cycle: where no motion has just ended and no claim waits, the
head's fields with BUSY also within a line transfer's occupancy. A form that names an unbound head takes ACCESS; on a
failed bank it takes TRACK with bank and POS. What HBIND, SEEK, HWAIT and RWD do to the motion within an occupancy, in
which cycle a steer or a step shift begins, and what counts as an operation of a head are the model's reading (log
entry 41). (R205, R206, R210, R211, R212, R213, R214, R215, R216, R217, R218, R222.) -/
def Obligations.HeadForms : Prop :=
  ∀ (s : State) (d a : Reg) (h : BitVec 2),
  let w := cur s h; let y := headAt s.ctx h; let k := bankAt s.core y.bank; let wa := s.gr a
  (y.bnd = false → (bankAt s.core (wa.extractLsb' 0 8)).holder = none → (bankAt s.core (wa.extractLsb' 0 8)).claims = [] →
    (bankAt s.core (wa.extractLsb' 0 8)).failed = false → (bankAt s.core (wa.extractLsb' 0 8)).taken ≤ s.cyc + 1 →
    Completes (.hbind a h) s fun t =>
      (headAt t.ctx h).bank = wa.extractLsb' 0 8 ∧ (headAt t.ctx h).pos = wa.extractLsb' 8 8 ∧
      (headAt t.ctx h).step = wa.extractLsb' 16 5 ∧ (headAt t.ctx h).bnd = true ∧ (headAt t.ctx h).disp = false ∧
      (headAt t.ctx h).rcnt = 0 ∧ (headAt t.ctx h).err = false ∧ (∀ j, j ≠ h → headAt t.ctx j = headAt s.ctx j) ∧
      (bankAt t.core (wa.extractLsb' 0 8)).holder = some w) ∧
  (Completes (.hfree h) s fun t => (∀ j, j ≠ h → headAt t.ctx j = headAt s.ctx j) ∧ t.core.lines = s.core.lines ∧
    (y.bnd = true → (headAt t.ctx h).bnd = false ∧ (headAt t.ctx h).bank = 0 ∧ (headAt t.ctx h).pos = 0 ∧
      (headAt t.ctx h).step = 0 ∧ (headAt t.ctx h).disp = false ∧ (headAt t.ctx h).busy = false ∧
      (headAt t.ctx h).rcnt = 0 ∧ (headAt t.ctx h).err = false ∧ (bankAt t.core y.bank).holder ≠ some w ∧
      ∀ q ∈ (bankAt t.core y.bank).claims, q.1 ≠ w) ∧
    (y.bnd = false → headAt t.ctx h = y)) ∧
  (y.bnd = true → k.failed = false → k.holder = some w → k.claims = [] →
    Completes (.seek a h) s fun t => (headAt t.ctx h).pos = wa.setWidth 8 ∧ (headAt t.ctx h).bank = y.bank ∧
      (bankAt t.core y.bank).holder = some w ∧ (k.moving = none → (bankAt t.core y.bank).counted = k.counted) ∧
      (k.moving = none ∨ k.taken ≤ s.cyc + 1 → (bankAt t.core y.bank).moving =
        if (bankAt t.core y.bank).counted = wa.setWidth 8 then none else some (wa.setWidth 8)) ∧
      (s.cyc + 1 < k.taken → ∀ p, k.moving = some p → reached s.cyc k ≠ p →
        (bankAt t.core y.bank).moving = some (oneToward k.counted p) ∧ (headAt t.ctx h).busy = true)) ∧
  (y.bnd = true → k.failed = false → k.claims = [] →
    (alignedAt s w = true →
      exec (.hwait h) s = .next (s.modCore fun c => setBank c y.bank fun b => { b with idle := s.cyc + 1 }).advance) ∧
    (alignedAt s w = false → k.holder = some w → (∀ p, k.moving = some p → k.rewind = true ∨ reached s.cyc k ≠ p) →
      exec (.hwait h) s = .next (s.stallAs (.head h)))) ∧
  (y.bnd = true → k.failed = false → k.claims = [] → s.Clean →
    alignedAt s w = true → k.track = (y.pos.toNat : Int) → k.spare = none →
    (channelFree s = false → exec (.rds d h) s = .next (s.stallAs (.head h)) ∧
      exec (.wrs a h) s = .next (s.stallAs (.head h))) ∧
    (channelFree s = true →
    (Lets s (.bank s.coreId y.bank) 0 y.pos.toNat →
      Completes (.rds d h) s fun t => t.vr d = tget 0 s.core.lines (y.bank.toNat * 256 + y.pos.toNat) ∧
        t.vrc d = fullCounts ∧ (headAt t.ctx h).pos = y.pos + y.step.signExtend 8 ∧ t.core.lines = s.core.lines) ∧
    (Lets s (.bank s.coreId y.bank) 1 y.pos.toNat →
      Completes (.wrs a h) s fun t =>
        t.core.lines = tput 0 s.core.lines (y.bank.toNat * 256 + y.pos.toNat) (s.vr a) ∧
        (headAt t.ctx h).pos = y.pos + y.step.signExtend 8))) ∧
  (y.bnd = true → k.failed = false → k.holder = some w → k.claims = [] → k.rewind = false →
    Completes (.rwd h) s fun t => t.ctx.pc = s.ctx.pc ∧ t.ctx.stall = some (.head h) ∧
      (k.taken ≤ s.cyc + 1 → (bankAt t.core y.bank).moving = some 0 ∧ (bankAt t.core y.bank).rewind = true ∧
        (headAt t.ctx h).busy = true)) ∧
  (∃ x : Word, exec (.hstat d h) s = .next (s.setG d x).advance ∧
    (k.claims = [] → (∀ p, k.moving = some p → k.rewind = true ∨ reached s.cyc k ≠ p) →
      x = BitVec.ofNat 64 (headWord { y with busy := y.busy || (decide (k.holder = some w) && decide (s.cyc < k.taken)) }))) ∧
  (y.bnd = false → exec (.seek a h) s = .next (abortCtx s s.core.cur .access) ∧
    exec (.hwait h) s = .next (abortCtx s s.core.cur .access) ∧ exec (.rds d h) s = .next (abortCtx s s.core.cur .access) ∧
    exec (.wrs a h) s = .next (abortCtx s s.core.cur .access) ∧ exec (.rwd h) s = .next (abortCtx s s.core.cur .access)) ∧
  (y.bnd = true → k.failed = true →
    let track : Out := .next (abortWith s s.core.cur .track false [y.bank.toNat, y.pos.toNat])
    exec (.seek a h) s = track ∧ exec (.hwait h) s = track ∧ exec (.rds d h) s = track ∧ exec (.wrs a h) s = track ∧
    exec (.rwd h) s = track)

/-- MXC, MXR, MXW, MXS. MXC of a command that passes its checks joins the context's queue, with the windows captured, or
stalls where two wait; the first failing check takes its trap. MXR without a bound writes the lanes of the view of
half a row with their counts (those of a view narrowed to f32 as log entry 32 reads R238, whose pseudo-code and worked
example differ), and the step count to ga; with a bound register it writes the lanes as the bound leaves them, with
the flag, or takes BOUND. MXW goes on once no command it names is left. MXS writes the status word. (R231, R232, R238,
R239, R240, R241, R83.) -/
def Obligations.MatrixForms : Prop :=
  ∀ (s : State) (d a : Reg) (c : BitVec 3) (r : BitVec 4) (h f l : Bool),
  let cmd := dwords (s.vr a)
  (∀ e, mxFault s.coreId cmd (ctxSides s.ctx) = some e → exec (.mxc a) s = .next (abortCtx s s.core.cur e)) ∧
  (mxFault s.coreId cmd (ctxSides s.ctx) = none → (mxqAt s.core s.core.cur).length < 2 →
    Completes (.mxc a) s fun t => SameBytes s t ∧ ∃ m : MxCmd,
      mxqAt t.core s.core.cur = mxqAt s.core s.core.cur ++ [m] ∧ m.dw = cmd ∧ m.tag = s.ctx.tagbase ∧
      m.sc5 = s.ctx.scale5 ∧ m.sc6 = s.ctx.scale6) ∧
  (mxFault s.coreId cmd (ctxSides s.ctx) = none → 2 ≤ (mxqAt s.core s.core.cur).length →
    exec (.mxc a) s = .next (s.stallAs .other)) ∧
  (let w := if f then 64 else 32
   let ls := mxrLanes s.core c.toNat r.toNat h f
   let is (ls : List (Nat × Count)) (t : State) : Prop :=
     (a ≠ 0 → t.gr a = BitVec.ofNat 64 (stepCount s.core c.toNat) ∧ t.grc a = 63) ∧
     GRegsBut a s t ∧ VRegsBut d s t ∧ SameBytes s t ∧
     (∀ j, j < 512 / w → laneNat (t.vr d) w j = ((ls.map Prod.fst).getD j 0) % 2 ^ w) ∧
     (∀ j : Fin 32, (t.vrc d)[j] = (ls.map Prod.snd).getD (16 * j / w) 63)
   Completes (.mxr d a c r h f none) s (is ls) ∧
   (∀ (n : BitVec 3) (l2 : List (Nat × Count)) (flag : Bool), boundLanes (boundAt s.core n) f ls = some (l2, flag) →
     Completes (.mxr d a c r h f (some n)) s fun t => is l2 t ∧
       (boundAt t.core n).flag = ((boundAt s.core n).flag || flag)) ∧
   (∀ n : BitVec 3, boundLanes (boundAt s.core n) f ls = none →
     exec (.mxr d a c r h f (some n)) s = .next (abortCtx s s.core.cur .bound))) ∧
  ((if l then mxMine s.core s.core.cur = [] else ∀ m ∈ mxMine s.core s.core.cur, c.toNat ∉ mxNames m.dw) →
    exec (.mxw c l) s = .next s.advance) ∧
  exec (.mxs d c) s = .next (s.setG d (BitVec.ofNat 64 (mxsWord s c.toNat))).advance

/-- CPC, CPW, CPS. CPC of a command that passes its checks joins the context's queue with what it captures, or stalls
where two wait; the first failing check takes its trap. CPW goes on once the context has no command left. CPS writes
the status word. (R261, R264, R272, R273.) -/
def Obligations.CopyForms : Prop :=
  ∀ (s : State) (d a : Reg), let cmd := dwords (s.vr a)
  (∀ e, cpFault s.coreId cmd = some e → exec (.cpc a) s = .next (abortCtx s s.core.cur e)) ∧
  (cpFault s.coreId cmd = none → (cpqAt s.core s.core.cur).length < 2 →
    Completes (.cpc a) s fun t => SameBytes s t ∧ ∃ m : CpCmd,
      cpqAt t.core s.core.cur = cpqAt s.core s.core.cur ++ [m] ∧ m.dw = cmd ∧ m.tag = ctxTag s.ctx ∧
      m.frm = s.ctx.frm ∧ m.slimit = s.ctx.stacklimit) ∧
  (cpFault s.coreId cmd = none → 2 ≤ (cpqAt s.core s.core.cur).length → exec (.cpc a) s = .next (s.stallAs .other)) ∧
  (cpMine s.core s.core.cur = false → exec .cpw s = .next s.advance) ∧
  (cpMine s.core s.core.cur = true → exec .cpw s = .next (s.stallAs .other)) ∧
  exec (.cps d) s = .next (s.setG d (BitVec.ofNat 64 (cpsWord s.core))).advance

/-- SRR, SRW, SRX by privilege, and the write rules. A register the context may read is read whole; one it may write is
written by its own rule; any other access takes ACCESS. SRX reads the old value. Every register has the rights of
R172's table: TASKID, COREID, CORECOUNT, SIGOP, TOPOEV and CYCLES are read only to all; unprivileged tasks may not
name FRAMECFG, INBOXCFG or SHIFTINJ, may write the context's own registers but GEN, STACKBASE and STACKLIMIT, and may
only read those and the other core registers. SIGMODE keeps INH and clears STICKY by a 1; FRM takes 6 and 7 as 0;
SIGVEC drops its low bits; MXGOV is not written while FORCED. (R75, R88, R167, R172, R193, R224, R243, R244.) -/
def Obligations.SystemRegisterAccess : Prop :=
  ∀ (s : State) (d a : Reg) (r : SysReg), let w := s.gr a
  (sysAcc s.priv r ≠ .none → exec (.srr d r) s = .next (s.setG d (sysRead s r)).advance) ∧
  (sysAcc s.priv r = .none → exec (.srr d r) s = .next (abortCtx s s.core.cur .access)) ∧
  (sysAcc s.priv r = .rw → exec (.srw a r) s = .next (sysWrite s r w).advance ∧
    exec (.srx d a r) s = .next ((sysWrite s r w).setG d (sysRead s r)).advance) ∧
  (sysAcc s.priv r ≠ .rw → exec (.srw a r) s = .next (abortCtx s s.core.cur .access) ∧
    exec (.srx d a r) s = .next (abortCtx s s.core.cur .access)) ∧
  (∀ q : SysReg, sysAcc true q =
    if q ∈ ([.taskid, .coreid, .corecount, .sigop, .topoev, .cycles] : List SysReg) then .ro else .rw) ∧
  (∀ q : SysReg, sysAcc false q =
    if q ∈ ([.inboxcfg, .framecfg, .shiftinj] : List SysReg) then .none
    else if q ∈ ([.sigthr, .sigmode, .sigvec, .sigpc, .frm, .repstate, .tagbase, .scalebase5, .scalebase6] : List SysReg)
    then .rw else .ro) ∧
  ((sysRead s .taskid).extractLsb' 0 12 = s.coreId ∧ (sysRead s .taskid).extractLsb' 12 2 = s.core.cur ∧
    (sysRead s .taskid).extractLsb' 14 50 = s.ctx.actSeq ∧ (sysRead s .coreid).extractLsb' 0 12 = s.coreId ∧
    (sysRead s .coreid).extractLsb' 16 12 = s.logicalOf s.coreId ∧ sysRead s .corecount = s.count.setWidth 64) ∧
  ((sysWrite s .wdbudget w).core.wdbudget = w.setWidth 6 ∧ (sysWrite s .headpri w).core.headpri = w.setWidth 8 ∧
    (sysWrite s .gen w).ctx.gen = w.setWidth 24 ∧ (sysWrite s .stackbase w).ctx.stackbase = w ∧
    (sysWrite s .stacklimit w).ctx.stacklimit = w ∧ (sysWrite s .sigpc w).ctx.sigpc = w ∧
    (sysWrite s .repstate w).ctx.rep = w.setWidth 34 ∧ (sysWrite s .tagbase w).ctx.tagbase = w ∧
    (sysWrite s .scalebase5 w).ctx.scale5 = w ∧ (sysWrite s .scalebase6 w).ctx.scale6 = w ∧
    (sysWrite s .lb1 w).core.lb = s.core.lb.set 0 w ∧ (sysWrite s .lb2 w).core.lb = s.core.lb.set 1 w ∧
    (sysWrite s .lb3 w).core.lb = s.core.lb.set 2 w) ∧
  (sysWrite s .sigmode w).ctx.sigmode =
    ⟨w.extractLsb' 0 2, s.ctx.sigmode.sticky && !(w.getLsbD 8), s.ctx.sigmode.inh⟩ ∧
  (sysWrite s .frm w).ctx.frm = (if 5 < w.toNat % 8 then 0 else w.setWidth 3) ∧
  (sysWrite s .sigvec w).ctx.sigvec = w &&& ~~~3#64 ∧ (sysWrite s .sigthr w).ctx.sigthr = w.setWidth 6 ∧
  (s.forced = true → (sysWrite s .mxgov w).core.mxgov.limit = s.core.mxgov.limit ∧
    (sysWrite s .mxgov w).core.mxgov.en = s.core.mxgov.en)

/-- TRAP, IFLUSH and REP. TRAP with nothing outstanding suspends the context for its supervisor with a service record of
the code and PC. IFLUSH empties the instruction cache. REP with INH clear, whose words can be captured, sets REPSTATE
to the first step with the counts and strides of the word, keeps the words and goes on at PC + 4; with INH set it is
an ILLEGAL trap. (R57, R148, R150, R168, R171.) -/
def Obligations.TrapReturnAndReplay : Prop :=
  (∀ (s : State) (c : BitVec 13), Quiet s →
    Completes (.trap c) s fun t => t.ctx.phase = .suspended (.trap c) ∧ t.ctx.pc = s.ctx.pc ∧
      t.records = s.records ++ [.service s.coreId s.core.cur c s.ctx.pc (Record.id s.ctx.task)] ∧
      (∀ r, t.gr r = s.gr r) ∧ SameBytes s t) ∧
  (∀ s : State, Completes .iflush s fun t => t.core.icache = [] ∧ AgreeButPc s.ctx t.ctx ∧ SameBytes s t) ∧
  (∀ (s u : State) (c : BitVec 5) (l : BitVec 4) (d a b : BitVec 5) (ws : List IWord), s.ctx.sigmode.inh = false →
    capture s s.ctx.pc (l.toNat + 1 - s.ctx.caught.length) s.ctx.caught = .inl (ws, u) →
    Completes (.rep c l d a b) s fun t => t.ctx.body = ws ∧ t.ctx.replaying = true ∧ t.ctx.pc = s.ctx.pc + 4 ∧
      t.ctx.rep.extractLsb' 0 5 = c ∧ t.ctx.rep.extractLsb' 5 4 = l ∧ t.ctx.rep.extractLsb' 9 5 = d ∧
      t.ctx.rep.extractLsb' 14 5 = a ∧ t.ctx.rep.extractLsb' 19 5 = b ∧ t.ctx.rep.extractLsb' 24 9 = 0 ∧
      t.ctx.rep.getLsbD 33 = true ∧ SameBytes s t) ∧
  (∀ (s : State) (c : BitVec 5) (l : BitVec 4) (d a b : BitVec 5), s.ctx.sigmode.inh = true →
    exec (.rep c l d a b) s = .next (abortCtx s s.core.cur .illegal))

/-- A replay runs its body count + 1 times and ends after it. From the first step of a replay of L + 1 words and C + 1
iterations, doing each step without a trap: the next step of the iteration follows at PC + 4, the last step of an
iteration goes back to the first word, and after the last step of the last iteration REPSTATE is 0 and the context
goes on after the last word. (R148, R150.) -/
def Obligations.ReplaySteps : Prop :=
  ∀ x : Ctx, x.replaying = true → repPos x.rep ≤ repLen x.rep → repIter x.rep ≤ repCnt x.rep →
  (repPos x.rep < repLen x.rep → repPos (nextPc x).rep = repPos x.rep + 1 ∧ repIter (nextPc x).rep = repIter x.rep ∧
    repLen (nextPc x).rep = repLen x.rep ∧ repCnt (nextPc x).rep = repCnt x.rep ∧ (nextPc x).pc = x.pc + 4 ∧
    (nextPc x).replaying = true) ∧
  (repPos x.rep = repLen x.rep → repIter x.rep < repCnt x.rep → repPos (nextPc x).rep = 0 ∧
    repIter (nextPc x).rep = repIter x.rep + 1 ∧ repLen (nextPc x).rep = repLen x.rep ∧
    repCnt (nextPc x).rep = repCnt x.rep ∧ (nextPc x).pc = x.pc - BitVec.ofNat 64 (4 * repLen x.rep) ∧
    (nextPc x).replaying = true) ∧
  (repPos x.rep = repLen x.rep → repIter x.rep = repCnt x.rep → (nextPc x).rep = 0 ∧ (nextPc x).replaying = false ∧
    (nextPc x).pc = x.pc + 4)

/-- Integer vector forms, lane by lane. Each integer vector form completes from every state: an active lane holds the
value R130 gives of the two source lanes (the second of a v register or a g register in every lane), an inactive one
is kept or holds all ones; counts of lanes of 16 bits and more are 63, kept for an undisturbed inactive lane. Values
are stated as bit-vector operations of the lane width. (R122, R123, R124, R125, R130.) -/
def Obligations.VectorIntegerLanes : Prop :=
  ∀ (x : VArgs) (t : Wd) (s : State), let w := t.bits
  let sat (z : Int) : BitVec w := BitVec.ofInt w (max (-(2 ^ (w - 1))) (min (2 ^ (w - 1) - 1) z))
  let r (g : BitVec w → BitVec w → BitVec w) (u : State) : Prop :=
    LanesAre s u x.d w x.m x.u (fun i => (g (s.lane x.a w i) (s.laneB x.s x.b w i)).toNat) ∧
    (w ≠ 8 → CountsAre s u x.d w x.m x.u false fun _ => 63)
  Completes (.vadd x t) s (r fun a b => a + b) ∧
  Completes (.vsub x t) s (r fun a b => a - b) ∧
  Completes (.vmul x t) s (r fun a b => a * b) ∧
  Completes (.vmulh x t) s (r fun a b => ((a.signExtend (2 * w) * b.signExtend (2 * w)) >>> w).setWidth w) ∧
  Completes (.vand x t) s (r fun a b => a &&& b) ∧
  Completes (.vor x t) s (r fun a b => a ||| b) ∧
  Completes (.vxor x t) s (r fun a b => a ^^^ b) ∧
  Completes (.vsll x t) s (r fun a b => a <<< (b.toNat % w)) ∧
  Completes (.vsrl x t) s (r fun a b => a >>> (b.toNat % w)) ∧
  Completes (.vsra x t) s (r fun a b => a.sshiftRight (b.toNat % w)) ∧
  Completes (.vmin x t) s (r fun a b => if a.toInt < b.toInt then a else b) ∧
  Completes (.vmax x t) s (r fun a b => if a.toInt < b.toInt then b else a) ∧
  Completes (.vminu x t) s (r fun a b => if a.toNat < b.toNat then a else b) ∧
  Completes (.vmaxu x t) s (r fun a b => if a.toNat < b.toNat then b else a) ∧
  Completes (.vadds x t) s (r fun a b => sat (a.toInt + b.toInt)) ∧
  Completes (.vsubs x t) s (r fun a b => sat (a.toInt - b.toInt))

/-- Floating-point vector forms, lane by lane. Each floating-point vector form (the checked ones with SIGMODE.MODE 0,
VFMIN, VFMAX, VFABS and VFNEG always) completes: an active lane holds the result and every chunk of it the count of
the scalar operation on the source lanes, rounded by FRM; VFMA and its kin take vd as third source; VDOT2 adds two
exact products of 16-bit lanes to each f32 lane of vd and rounds the sum, whose count is that of the three terms by
R83, each product's by its multiply rule with p = 24. The counts where a lane is a zero are the model's reading (log
entry 25), those of VFMIN, VFMAX, VFABS and VFNEG that give an infinity too (log entry 27). (R75, R85, R88, R124,
R128, R129, R83, R84.) -/
def Obligations.VectorFloatingPointLanes : Prop :=
  ∀ (x : VArgs) (z : UArgs) (t : FTy) (s : State),
  let f := ftyFmt t; let w := t.bits; let m := rndOf s.ctx .dyn false
  let A (i : Nat) : FVal := fval f (srcA s.ctx x.a w i).1 (srcA s.ctx x.a w i).2
  let B (i : Nat) : FVal := fval f (srcB s.ctx x.s x.b w i).1 (srcB s.ctx x.s x.b w i).2
  let D (i : Nat) : FVal := fval f (srcA s.ctx x.d w i).1 (srcA s.ctx x.d w i).2
  let Z (i : Nat) : FVal := fval f (srcA s.ctx z.a w i).1 (srcA s.ctx z.a w i).2
  let r (q : Nat → FRes) (u : State) : Prop := LanesAre s u x.d w x.m x.u (fun i => (q i).bits % 2 ^ w) ∧
    CountsAre s u x.d w x.m x.u true fun i => (q i).count
  let r1 (q : Nat → FRes) (u : State) : Prop := LanesAre s u z.d w z.m z.u (fun i => (q i).bits % 2 ^ w) ∧
    CountsAre s u z.d w z.m z.u true fun i => (q i).count
  Completes (.vfmin x t) s (r fun i => fminmaxR f false (A i) (B i)) ∧
  Completes (.vfmax x t) s (r fun i => fminmaxR f true (A i) (B i)) ∧
  Completes (.vfabs z t) s (r1 fun i => signed f (Z i) false) ∧
  Completes (.vfneg z t) s (r1 fun i => signed f (Z i) (!(signBit f (srcA s.ctx z.a w i).1))) ∧
  (s.SigOff →
    Completes (.vfadd x t) s (r fun i => faddR f m (A i) (B i)) ∧
    Completes (.vfsub x t) s (r fun i => faddR f m (A i) (fnegV (B i))) ∧
    Completes (.vfmul x t) s (r fun i => fmulR f m (A i) (B i)) ∧
    Completes (.vfdiv x t) s (r fun i => fdivR f m (A i) (B i)) ∧
    Completes (.vfsqrt z t) s (r1 fun i => fsqrtR f m (Z i)) ∧
    Completes (.vfma x t) s (r fun i => fmaR f m false false (A i) (B i) (D i)) ∧
    Completes (.vfms x t) s (r fun i => fmaR f m false true (A i) (B i) (D i)) ∧
    Completes (.vfnma x t) s (r fun i => fmaR f m true false (A i) (B i) (D i)) ∧
    Completes (.vfnms x t) s (r fun i => fmaR f m true true (A i) (B i) (D i)) ∧
    Completes (.vdot2 x t) s fun u =>
      (LanesAre s u x.d 32 x.m x.u fun k =>
        let a (j : Nat) : FNum := decodeF f (s.lane x.a 16 j).toNat
        let b (j : Nat) : FNum := decodeF f (if x.s then nfld (s.gr x.b).toNat (16 * (j % 2)) 16 else (s.lane x.b 16 j).toNat)
        let e := addF m (addF m (decodeF f32F (s.lane x.d 32 k).toNat) (mulF (a (2 * k)) (b (2 * k))))
          (mulF (a (2 * k + 1)) (b (2 * k + 1)))
        encodeF f32F (roundF f32F m false 0 e).n % 2 ^ 32) ∧
      (CountsAre s u x.d 32 x.m x.u true fun k =>
      let a (j : Nat) : FVal := fval f (srcA s.ctx x.a 16 j).1 (srcA s.ctx x.a 16 j).2
      let b (j : Nat) : FVal := if x.s then fval f (nfld (s.gr x.b).toNat (16 * (j % 2)) 16) (s.grc x.b)
        else fval f (srcA s.ctx x.b 16 j).1 (srcA s.ctx x.b 16 j).2
      let c := fval f32F (srcA s.ctx x.d 32 k).1 (srcA s.ctx x.d 32 k).2
      let p0 := prodV 24 (a (2 * k)) (b (2 * k)); let p1 := prodV 24 (a (2 * k + 1)) (b (2 * k + 1))
      let e := (roundF f32F m false 0 (addF m (addF m c.n p0.n) p1.n)).n
      (deliver f32F e (addCount 24 [c, p0, p1] e (stdFloor 24))).count))

/-- Vector compares, mask forms and VSIGM write masks. Each compare writes in bit i of vd whether the comparison of lane i
holds, where the lane is active; an inactive bit is kept or set, the bits above the lanes are 0, every count is 63.
The mask forms compute on the low bits of whole registers; MPOP counts, MFIRST finds the first set bit. VSIGM compares
the held count of each lane with gb mod 64. (R123, R131, R132, R138.) -/
def Obligations.ComparesAndMasks : Prop :=
  ∀ (x : VArgs) (z : UArgs) (d a b : Reg) (g : Bool) (t : Wd) (ft : FTy) (s : State),
  let n := 512 / t.bits
  let nf := 512 / ft.bits
  let A (i : Nat) : BitVec t.bits := s.lane x.a t.bits i
  let B (i : Nat) : BitVec t.bits := s.laneB x.s x.b t.bits i
  let FA (i : Nat) : FNum := decodeF (ftyFmt ft) (s.lane x.a ft.bits i).toNat
  let FB (i : Nat) : FNum := decodeF (ftyFmt ft) (s.laneB x.s x.b ft.bits i).toNat
  let av (i : Nat) : Bool := (s.vr a).getLsbD i
  let bv (i : Nat) : Bool := if g then (s.gr b).getLsbD i else (s.vr b).getLsbD i
  Completes (.veq x t) s (fun u => MaskIs s u x.d n x.m x.u fun i => A i == B i) ∧
  Completes (.vne x t) s (fun u => MaskIs s u x.d n x.m x.u fun i => A i != B i) ∧
  Completes (.vlt x t) s (fun u => MaskIs s u x.d n x.m x.u fun i => (A i).slt (B i)) ∧
  Completes (.vltu x t) s (fun u => MaskIs s u x.d n x.m x.u fun i => (A i).ult (B i)) ∧
  Completes (.vfeq x ft) s (fun u => MaskIs s u x.d nf x.m x.u fun i => eqF (FA i) (FB i)) ∧
  Completes (.vflt x ft) s (fun u => MaskIs s u x.d nf x.m x.u fun i => ltF (FA i) (FB i)) ∧
  Completes (.vfle x ft) s (fun u => MaskIs s u x.d nf x.m x.u fun i => ltF (FA i) (FB i) || eqF (FA i) (FB i)) ∧
  Completes (.vsigm z b ft) s (fun u => MaskIs s u z.d nf z.m z.u fun i =>
    decide ((laneCount (s.vrc z.a) ft.bits i).toNat < (s.gr b).toNat % 64)) ∧
  Completes (.mand d a b g t) s (fun u => MaskIs s u d n 0 false fun i => av i && bv i) ∧
  Completes (.mor d a b g t) s (fun u => MaskIs s u d n 0 false fun i => av i || bv i) ∧
  Completes (.mxor d a b g t) s (fun u => MaskIs s u d n 0 false fun i => av i ^^ bv i) ∧
  Completes (.mandn d a b g t) s (fun u => MaskIs s u d n 0 false fun i => av i && !(bv i)) ∧
  Completes (.mnot d a g t) s (fun u => MaskIs s u d n 0 false fun i => !(av i)) ∧
  Completes (.mset d b t) s (fun u => MaskIs s u d n 0 false fun i => (s.gr b).getLsbD i) ∧
  exec (.mpop d a g t) s = .next (s.setG d (BitVec.ofNat 64 ((List.range n).countP av))).advance ∧
  exec (.mfirst d a g t) s = .next (s.setG d (BitVec.ofNat 64 (((List.range n).find? av).getD n))).advance

/-- Lanes moved whole, with their counts. Slides, VPERM, VBCAST, VMOVV, VSEL, VCOMPRESS, VSPLAT and VINS move lanes of at
least 8 bits: an active lane of the result is the lane the form names, or 0 where it names none; VEXT writes the lane
gb names, zero-extended, or 0, to gd. Counts of lanes of 16 bits and more move with them. VSIGR writes the counts as
lane values, VSIGW sets the counts from lane values and keeps vd; that an agnostic inactive lane of both counts 0 is
read from R85 and R138 by inference (log entries 28 and 29). (R85, R123, R133, R134, R138.) -/
def Obligations.PermutesAndMoves : Prop :=
  ∀ (x : UArgs) (y : VArgs) (d a b : Reg) (m : BitVec 2) (u g : Bool) (t : Wd) (ft : FTy) (s : State),
  let w := t.bits; let n := 512 / w; let k := (s.gr b).toNat
  let val (r : Reg) (i : Nat) : Nat := if i < n then (s.lane r w i).toNat else 0
  let cnt (r : Reg) (i : Nat) : Count := if i < n then laneCount (s.vrc r) w i else 63
  let moved (pick : Nat → Nat) (v : State) : Prop := LanesAre s v x.d w x.m x.u (fun i => val x.a (pick i)) ∧
    (w ≠ 8 → CountsAre s v x.d w x.m x.u false fun i => cnt x.a (pick i))
  Completes (.vslideup x b t) s (moved fun i => if k ≤ i then i - k else n) ∧
  Completes (.vslidedn x b t) s (moved fun i => i + k) ∧
  Completes (.vperm x b t) s (moved fun i => (s.lane b w i).toNat) ∧
  Completes (.vbcast x b t) s (moved fun _ => k) ∧
  Completes (.vmovv x t) s (moved fun i => i) ∧
  Completes (.vsel y t) s (fun v => LanesAre s v y.d w 0 false (fun i =>
      if active s.ctx y.m i then (s.lane y.a w i).toNat else (s.laneB y.s y.b w i).toNat) ∧
    (w ≠ 8 → CountsAre s v y.d w 0 false false fun i =>
      if active s.ctx y.m i then cnt y.a i else if y.s then s.grc y.b else cnt y.b i)) ∧
  (let on := (List.range n).filter (active s.ctx x.m)
   Completes (.vcompress x g t) s (fun v =>
    (∀ i, i < n → laneNat (v.vr x.d) w i = if i < on.length then val x.a (on.getD i 0)
      else if x.u then laneNat (s.vr x.d) w i else 2 ^ w - 1) ∧
    (w ≠ 8 → ∀ j : Fin 32, (v.vrc x.d)[j] = if 16 * j / w < on.length then cnt x.a (on.getD (16 * j / w) 0)
      else if x.u then (s.vrc x.d)[j] else 63))) ∧
  Completes (.vsplat d b m u t) s (fun v => LanesAre s v d w m u (fun _ => ((s.gr b).setWidth w).toNat) ∧
    (w ≠ 8 → CountsAre s v d w m u false fun _ => s.grc b)) ∧
  Completes (.vins d a b t) s (fun v =>
    (∀ i, i < n → laneNat (v.vr d) w i = if i = (s.gr a).toNat then ((s.gr b).setWidth w).toNat else laneNat (s.vr d) w i) ∧
    (w ≠ 8 → ∀ j : Fin 32, (v.vrc d)[j] = if 16 * j / w = (s.gr a).toNat then s.grc b else (s.vrc d)[j])) ∧
  exec (.vext d a b t) s = .next (s.setGC d (BitVec.ofNat 64 (val a k)) (cnt a k)).advance ∧
  Completes (.vsigr x ft) s (fun v => LanesAre s v x.d ft.bits x.m x.u (fun i => (laneCount (s.vrc x.a) ft.bits i).toNat) ∧
    CountsAre s v x.d ft.bits x.m x.u true fun _ => 63) ∧
  Completes (.vsigw x ft) s (fun v => LanesAre s v x.d ft.bits x.m x.u (fun i => (s.lane x.d ft.bits i).toNat) ∧
    CountsAre s v x.d ft.bits x.m x.u true fun i => (s.lane x.a ft.bits i).setWidth 6)

/-- Reductions in tree order, and vector conversions. VRADD and VRAND complete with the sum (sign-extended) and the
conjunction of the active lanes; VRMAX, VRMIN and, with SIGMODE off, VRSUM combine the active lanes in the order of
the tree. VCVT and VCVTS complete, checked forms with SIGMODE off: element j of the result is element j of va
converted where lane j is active; a widening form fills vd and vd+1, a narrowing one writes 0 above its elements;
under SR the context's random state advances once for each active element, and only then. The count of a sum or
conjunction of integers is 63, but with exactly one active lane, where it is that lane's, as R80 leaves it by log
entry 30; a chunk of a converted vector has the count of its element, the lower of its two bytes' for 8-bit ones, 63
above a narrowed vector's elements, and an inactive element's is kept, or 0 in a floating-point format and 63 in an
integer one. The counts of VRMAX and VRMIN that give an infinity (log entry 27), those of VRSUM where a lane is a zero
(log entry 25), and those of a VCVT that narrows (log entry 26) are the model's reading. (R78, R80, R83, R88, R135,
R136, R137, R84, R85.) -/
def Obligations.ReductionsAndConversions : Prop :=
  (∀ (d a : Reg) (m : BitVec 2) (t : Wd) (s : State), let w := t.bits
    let on := (List.range (512 / w)).filter (active s.ctx m)
    let cnt : Count := match on with | [i] => laneCount (s.vrc a) w i | _ => 63
    let end_ (v : Word) (u : State) : Prop := (d ≠ 0 → u.gr d = v ∧ u.grc d = cnt)
    Completes (.vradd d a m t) s (end_ ((BitVec.ofNat w ((on.map fun i => (s.lane a w i).toNat).sum)).signExtend 64)) ∧
    Completes (.vrand d a m t) s (end_ ((on.foldl (fun z i => z &&& s.lane a w i) (BitVec.allOnes w)).setWidth 64))) ∧
  (∀ (d a : Reg) (m : BitVec 2) (t : FTy) (s : State), let f := ftyFmt t
    let tree (op : FVal → FVal → FRes) (e : Nat × Count) : Nat × Count :=
      (reduce (fun p q : Nat × Count => let r := op (fval f p.1 p.2) (fval f q.1 q.2); (r.bits, r.count))
        (redLanes s.ctx a m t.bits)).getD e
    let put (p : Nat × Count) : Out := .next (s.setGC d (BitVec.ofNat 64 p.1) p.2).advance
    exec (.vrmax d a m t) s = put (tree (fminmaxR f true) (encodeF f (.inf true), 0)) ∧
    exec (.vrmin d a m t) s = put (tree (fminmaxR f false) (encodeF f (.inf false), 0)) ∧
    (s.SigOff → exec (.vrsum d a m t) s = put (tree (faddR f (rndOf s.ctx .dyn false)) (0, 63)))) ∧
  (∀ (x : UArgs) (src dst : Fmt) (r : Rnd) (s : State), (s.SigOff ∨ src.isInt = true ∨ dst.isInt = true) →
    let rr := rndOf s.ctx r (decide (dst.bits < src.bits) || src.isInt)
    let per := 512 / dst.bits
    let drawn (j : Nat) : BitVec 32 :=
      if rr = .sr then Nat.repeat lfsrNext ((List.range j).countP (active s.ctx x.m)) s.ctx.lfsr else s.ctx.lfsr
    let el (sat : Bool) (j : Nat) : FRes :=
      cvtElem src dst rr sat (drawn (j + 1)) (srcA s.ctx x.a src.bits j).1 (srcA s.ctx x.a src.bits j).2
    let is (sat : Bool) (u : State) : Prop :=
      (∀ j, j < cvtCount src dst →
        let q := el sat j
        let e := if j < per then x.d else x.d + 1
        laneNat (u.vr e) dst.bits (j % per) = if active s.ctx x.m j then q.bits % 2 ^ dst.bits
          else if x.u then laneNat (s.vr e) dst.bits (j % per) else 2 ^ dst.bits - 1) ∧
      (∀ j, cvtCount src dst ≤ j → j < per → laneNat (u.vr x.d) dst.bits j = 0) ∧
      (∀ (j : Fin 32) (hi : Bool), (hi = true → src.bits < dst.bits) →
        let e := if hi then x.d + 1 else x.d
        let cnt (k : Nat) : Count := let n := if hi then per + k else k
          if cvtCount src dst ≤ n then 63 else if active s.ctx x.m n then (el sat n).count
          else if x.u then (s.vrc e)[j] else if dst.isInt then 63 else 0
        (u.vrc e)[j] = if dst.bits = 8 then (if cnt (2 * j) ≤ cnt (2 * j + 1) then cnt (2 * j) else cnt (2 * j + 1))
          else cnt (16 * j / dst.bits)) ∧
      (∀ e, e ≠ x.d → (e ≠ x.d + 1 ∨ dst.bits ≤ src.bits) → u.vr e = s.vr e ∧ u.vrc e = s.vrc e) ∧
      (∀ e, u.gr e = s.gr e ∧ u.grc e = s.grc e) ∧ u.ctx.lfsr = drawn (cvtCount src dst) ∧ SameBytes s u
    Completes (.vcvt x src dst r) s (is false) ∧ Completes (.vcvts x src dst r) s (is true))

/-- Vector loads: the own scratchpad through every window, other cores, fabric memory. Where every active lane is aligned
and lies in the own scratchpad, no word of the core being struck (log entry 57), the unit, stride and index forms load
it there, an inactive lane being kept or all ones; the counts of the chunks are 63, but for a chunk of which an
undisturbed lane keeps bits, which keeps its count. The pointer form takes the lanes from the pointer's offset on and
then advances that pointer alone; where no lane is active the pointer stays, which is read from R139 and R144 by
inference (log entry 31). A pointer load into v0, which holds the pointers, has its lanes written before the pointer
advances; the counts of a pointer that advances are 63. No other register and no byte of memory changes. Through a
window 1 to 7, with lanes of the width it requires, from the alignment it requires and with every source and side byte
in the scratchpad, the unit and pointer forms, and in windows 1 to 4 and 7 the stride form, load each element as the
window decodes it (bf16, f16, e4m3, e5m2, scaled e2m1 and i8, f64), with count 63, or in window 7 the count of its tag
byte; a stride form in windows 5 and 6 and a gather in any of them take ACCESS. From another core's scratchpad, none
of whose bytes a store of its own context in the hoop writes, the unit, stride and index forms ask for the bytes of
their active lanes, in ascending order, and stall; outside the reach they take ACCESS. From one page of fabric memory
that translates, whose channels can be reached and read well, each byte is that of the youngest line of the gather
buffer that holds it, else memory's, read as the load issues, which is the model's choice (log entry 9); lanes there
are aligned to their width by its choice too (log entry 62). (R87, R107, R123, R139, R140, R141, R142, R144, R196.) -/
def Obligations.VectorLoads : Prop :=
  (∀ (v a b : Reg) (p : BitVec 3) (m : BitVec 2) (u : Bool) (z : Wd) (s : State), let w := z.bits; let n := w / 8
  (∀ q, Lets s (.scratch s.coreId) 0 q) → s.Clean →
  let is (offs : Nat → Nat) (t : State) : Prop :=
    LanesAre s t v w m u (fun i => rdNat s.core.mem (offs i) n) ∧ (∀ j : Fin 32, (t.vrc v)[j] = loadCount s v w m u j) ∧
    VRegsBut v s t ∧ (∀ r, t.gr r = s.gr r ∧ t.grc r = s.grc r) ∧ SameBytes s t
  let here (at_ : Nat → Word) (offs : Nat → Nat) : Prop := ∀ i, i < 512 / w → active s.ctx m i = true →
    (at_ i).toNat % n = 0 ∧ OwnAt (at_ i) (offs i) ∧ offs i + n ≤ 0x18000
  (∀ off, OwnAt (s.gr a) off → here (fun i => s.gr a + BitVec.ofNat 64 (i * n)) (fun i => off + i * n) →
    Completes (.vld v a m u z) s (is fun i => off + i * n)) ∧
  (∀ offs, here (fun i => s.gr a + BitVec.ofNat 64 i * s.gr b) offs → Completes (.vlds v a b m u z) s (is offs)) ∧
  (∀ offs, here (fun i => s.gr a + BitVec.ofInt 64 ((s.lane b w i).toInt * (n : Int))) offs →
    Completes (.vgather v a b m u z) s (is offs)) ∧
  (let y := ptrLane s.ctx p
   let some_ : Prop := ∃ i : Fin 64, i.val < 512 / w ∧ active s.ctx m i = true
   ptrWin y = 0 → ptrOff y % n = 0 → (∀ i, i < 512 / w → active s.ctx m i = true → ptrOff y + i * n + n ≤ 0x18000) →
    (v ≠ 0 → Completes (.vldp v p m u z) s fun t =>
      LanesAre s t v w m u (fun i => rdNat s.core.mem (ptrOff y + i * n) n) ∧ SameBytes s t ∧
      (∀ r, t.gr r = s.gr r ∧ t.grc r = s.grc r) ∧ (∀ j : Fin 32, (t.vrc v)[j] = loadCount s v w m u j) ∧
      (∀ r, r ≠ v → r ≠ 0 → t.vr r = s.vr r ∧ t.vrc r = s.vrc r) ∧ (∀ q, q ≠ p → ptrLane t.ctx q = ptrLane s.ctx q) ∧
      (∀ j : Fin 32, (some_ → j.val / 4 = p.toNat → (t.vrc 0)[j] = 63) ∧
        (¬ some_ ∨ j.val / 4 ≠ p.toNat → (t.vrc 0)[j] = (s.vrc 0)[j])) ∧
      (some_ → ptrLane t.ctx p = ptrNext y) ∧ (¬ some_ → ptrLane t.ctx p = y)) ∧
    (Completes (.vldp 0 p m u z) s fun t => SameBytes s t ∧ VRegsBut 0 s t ∧ (∀ r, t.gr r = s.gr r ∧ t.grc r = s.grc r) ∧
      (∀ j : Fin 32, (some_ → j.val / 4 = p.toNat → (t.vrc 0)[j] = 63) ∧
        (¬ some_ ∨ j.val / 4 ≠ p.toNat → (t.vrc 0)[j] = loadCount s 0 w m u j)) ∧ ∃ x : VWord,
      (∀ i, i < 512 / w → laneNat x w i = if active s.ctx m i then rdNat s.core.mem (ptrOff y + i * n) n
        else if u then laneNat (s.vr 0) w i else 2 ^ w - 1) ∧
      (∀ q, q ≠ p → ptrLane t.ctx q = x.extractLsb' (64 * q.toNat) 64) ∧
      (some_ → ptrLane t.ctx p = ptrNext y) ∧ (¬ some_ → ptrLane t.ctx p = x.extractLsb' (64 * p.toNat) 64))) ∧
  (let on : List Nat := (List.range (512 / w)).filter (active s.ctx m)
   let T := nfld s.ctx.tagbase.toNat 0 17; let S5 := nfld s.ctx.scale5.toNat 0 17; let S6 := nfld s.ctx.scale6.toNat 0 17
   let M := s.core.mem
   let B (k : Nat) : Nat := if k = 7 then 8 else if k ≤ 2 then 2 else 1
   let al (k : Nat) : Nat := if k = 7 then 8 else if k = 6 then 32 else if k = 5 then 16 else B k
   let wide (k : Nat) : Prop := 1 ≤ k ∧ k ≤ 7 ∧ (k ≤ 2 → z = .w32) ∧ (3 ≤ k → k ≤ 6 → z = .w16) ∧ (k = 7 → z = .w64)
   -- element i of the block at o, its source at q
   let el (k o q i : Nat) : Nat × Count :=
     let conv (f g : FFmt) : Nat := (fcvtR f g .rne false 0 (fval f (rdNat M q (B k)) 63)).bits
     match k with
     | 1 => (conv bf16F f32F, 63)
     | 2 => (conv f16F f32F, 63)
     | 3 => (conv e4m3F bf16F, 63)
     | 4 => (conv e5m2F bf16F, 63)
     | 5 => (toBf16 (mulF (decodeF e2m1F (rdNat M q 1 / 16 ^ (i % 2) % 16)) (e8m0 (rdNat M (S5 + o / 16) 1))), 63)
     | 6 => (toBf16 (mulF (ofIntF (sgn 8 (rdNat M q 1))) (decodeF bf16F (rdNat M (S6 + 2 * (o / 32)) 2))), 63)
     | _ => (rdNat M q 8, BitVec.ofNat 6 (rdNat M (T + q / 8) 1))
   let fits (k o q : Nat) : Prop := q + B k ≤ 0x18000 ∧ (k = 5 → S5 + o / 16 < 0x18000) ∧
     (k = 6 → S6 % 2 = 0 ∧ S6 + 2 * (o / 32) + 1 < 0x18000) ∧ (k = 7 → T + q / 8 < 0x18000)
   let through (k o : Nat) (q : Nat → Nat) (t : State) : Prop := LanesAre s t v w m u (fun i => (el k o (q i) i).1) ∧
     CountsAre s t v w m u false (fun i => (el k o (q i) i).2) ∧ (∀ r, t.gr r = s.gr r ∧ t.grc r = s.grc r) ∧ SameBytes s t
   (∀ k off, wide k → off < 0x18000 → off % al k = 0 →
     let q (i : Nat) : Nat := off + if k = 5 then i / 2 else i * B k
     (∀ i ∈ on, fits k off (q i)) →
     (s.gr a = BitVec.ofNat 64 (apLocal + k * 0x40000 + off) →
       Completes (.vld v a m u z) s fun t => through k off q t ∧ VRegsBut v s t) ∧
     (let y := ptrLane s.ctx p
      v ≠ 0 → ptrWin y = k → ptrOff y = off → on ≠ [] → Completes (.vldp v p m u z) s fun t => through k off q t ∧
        (∀ r, r ≠ v → r ≠ 0 → t.vr r = s.vr r ∧ t.vrc r = s.vrc r) ∧ (∀ j, j ≠ p → ptrLane t.ctx j = ptrLane s.ctx j) ∧
        ptrLane t.ctx p = ptrNext y)) ∧
   (∀ (k : Nat) (q : Nat → Nat), wide k → (s.gr a).toNat % al k = 0 →
     (∀ i ∈ on, s.gr a + BitVec.ofNat 64 i * s.gr b = BitVec.ofNat 64 (apLocal + k * 0x40000 + q i) ∧ q i < 0x18000 ∧
       (k = 7 → q i % 8 = 0)) →
     (k ≠ 5 → k ≠ 6 → (∀ i ∈ on, fits k 0 (q i)) →
       Completes (.vlds v a b m u z) s fun t => through k 0 q t ∧ VRegsBut v s t) ∧
     (k = 5 ∨ k = 6 → on ≠ [] → exec (.vlds v a b m u z) s = .next (abortCtx s s.core.cur .access))) ∧
   (∀ (k : Nat) (q : Nat → Nat), wide k → (s.gr a).toNat % al k = 0 → on ≠ [] →
     (∀ i ∈ on, s.gr a + BitVec.ofInt 64 ((s.lane b w i).toInt * (n : Int)) = BitVec.ofNat 64 (apLocal + k * 0x40000 + q i) ∧
       q i < 0x18000 ∧ (k = 7 → q i % 8 = 0)) →
     exec (.vgather v a b m u z) s = .next (abortCtx s s.core.cur .access)))) ∧
  (∀ (v a b : Reg) (m : BitVec 2) (u : Bool) (z : Wd) (s : State), let w := z.bits; let n := w / 8
   let on : List Nat := (List.range (512 / w)).filter (active s.ctx m)
   ∀ (i : Instr) (at_ : Nat → Word), (i, at_) ∈ ([(.vld v a m u z, fun j => s.gr a + BitVec.ofNat 64 (j * n)),
     (.vlds v a b m u z, fun j => s.gr a + BitVec.ofNat 64 j * s.gr b),
     (.vgather v a b m u z, fun j => s.gr a + BitVec.ofInt 64 ((s.lane b w j).toInt * (n : Int)))] : List (Instr × (Nat → Word))) →
   on ≠ [] →
   (∀ (c : CoreId) (offs : Nat → Nat), (∀ j ∈ on, (at_ j).toNat % n = 0 ∧ classify (at_ j) = .remote c (offs j)) →
     let bytes := on.flatMap fun j => (List.range n).map fun k => offs j + k
     (inReach s.coreId s.ctx c = false → exec i s = .next (abortCtx s s.core.cur .access)) ∧
     (inReach s.coreId s.ctx c = true →
       (∀ e, (e ∈ s.ctx.hoop ∨ ∃ ch ∈ s.ctx.chunks, e ∈ ch.effs) → e.dst = .core c → e.pkg = none →
         ∀ q ∈ bytes, effByte q e = none) →
       Completes i s fun t => t.ctx.stall = some .other ∧ t.ctx.pc = s.ctx.pc ∧ SameBytes s t ∧
         ∃ p, t.net = s.net ++ [p] ∧ p.route = ⟨.core s.coreId, .core c⟩ ∧ p.body = .op (.load bytes) ∧
           t.ctx.pending.map Pending.eid = some p.eid)) ∧
   (∀ (vas : Nat → Nat) (base : Nat) (x : State), let a0 := vas (on.headD 0)
     (∀ j ∈ on, (at_ j).toNat % n = 0 ∧ classify (at_ j) = .fabric (vas j) ∧ vas j / 65536 = a0 / 65536) →
     translate s (ctxTag s.ctx) 0 .read a0 1 = (.ok (base + a0 % 65536), x) → x.rings = [] → x.symErrs = [] →
     let pa (q : Nat) : Nat := base + q % 65536
     (∀ j ∈ on, ∀ k, k < n → let q := vas j + k
       inGuard s.ctx.stacklimit q = false ∧ chanCut x (pa q) = false ∧ frameOk x (ctxTag s.ctx) (pa q) = true ∧
       readable x (pa q) = true) →
     let byte (q : Nat) : Byte := (gatherFwd s.core ⟨none, ctxTag s.ctx, q, pa q⟩).getD (rd8 s.dram (pa q))
     Completes i s fun t => LanesAre s t v w m u (fun j => leNat ((List.range n).map fun k => byte (vas j + k))) ∧
       (∀ j : Fin 32, (t.vrc v)[j] = loadCount s v w m u j) ∧ VRegsBut v s t ∧
       (∀ r, t.gr r = s.gr r ∧ t.grc r = s.grc r) ∧ SameBytes s t ∧ t.core.gather = s.core.gather))

/-- Vector stores: the own scratchpad through every window, other cores, fabric memory; three-address forms. Where every
active lane is aligned and lies in the own scratchpad, no word of the core being struck (log entry 57), each byte that
a lane covers holds that byte of the highest lane covering it, and no other byte of any memory and no register
changes, but for the pointer a pointer form names, which with its counts (63) stays where no lane is active (read from
R139 and R144 by inference, log entry 31). An unmasked VST of f32 lanes with a lane outside the range of its bound
register, whose action is to trap, takes BOUND and stores nothing. Through a window 1 to 4 or 7, with lanes of the
width it requires, each lane is stored as the window encodes it (bf16, f16, saturating e4m3, e5m2, f64 with its count
in the tag byte), the lanes in ascending order; that a lane of window 7 writes its count byte last is the model's
choice (log entry 117); a store through window 5 or 6 takes ACCESS. To another core in reach the bytes of the active
lanes are placed as one effect of the open chunk; outside the reach they take ACCESS. To one line of fabric memory
that no open line of the gather buffer holds, where a line is free and the store does not fill it, they become a new
line of that buffer, and the task has committed. No store is meant that already waits for a line of that buffer (it
goes on with the bytes left, log entry 71). A three-address form with three pointers to aligned lines of the own
scratchpad (checked ones with SIGMODE off) writes the results of the lanes to the destination line and advances each
pointer it names once, with counts 63; no other byte and no other register changes. (R87, R139, R140, R141, R142,
R143, R144, R146, R196, R283, R285.) -/
def Obligations.VectorStores : Prop :=
  (∀ (v a b : Reg) (p : BitVec 3) (m : BitVec 2) (z : Wd) (s : State), let w := z.bits; let n := w / 8
    (∀ q, Lets s (.scratch s.coreId) 1 q) → s.Clean → s.ctx.storing = none →
    let is (offs : Nat → Nat) (t : State) : Prop :=
      let covers (i q : Nat) : Prop := i < 512 / w ∧ active s.ctx m i = true ∧ offs i ≤ q ∧ q < offs i + n
      (∀ i q, covers i q → (∀ j, i < j → ¬ covers j q) →
        t.byteAt (.scratch s.coreId q) = (s.lane v w i).extractLsb' (8 * (q - offs i)) 8) ∧
      (∀ q : Place, (∀ i k, covers i k → q ≠ .scratch s.coreId k) → t.byteAt q = s.byteAt q) ∧
      (∀ r, t.gr r = s.gr r ∧ t.grc r = s.grc r)
    let here (at_ : Nat → Word) (offs : Nat → Nat) : Prop := ∀ i, i < 512 / w → active s.ctx m i = true →
      (at_ i).toNat % n = 0 ∧ OwnAt (at_ i) (offs i) ∧ offs i + n ≤ 0x18000
    (∀ off, OwnAt (s.gr a) off → here (fun i => s.gr a + BitVec.ofNat 64 (i * n)) (fun i => off + i * n) →
      Completes (.vst v a m z none) s fun t => is (fun i => off + i * n) t ∧ ∀ r, t.vr r = s.vr r ∧ t.vrc r = s.vrc r) ∧
    (∀ offs, here (fun i => s.gr a + BitVec.ofNat 64 i * s.gr b) offs →
      Completes (.vsts v a b m z none) s fun t => is offs t ∧ ∀ r, t.vr r = s.vr r ∧ t.vrc r = s.vrc r) ∧
    (∀ offs, here (fun i => s.gr a + BitVec.ofInt 64 ((s.lane b w i).toInt * (n : Int))) offs →
      Completes (.vscatter v a b m z) s fun t => is offs t ∧ ∀ r, t.vr r = s.vr r ∧ t.vrc r = s.vrc r) ∧
    (let y := ptrLane s.ctx p
     ptrWin y = 0 → ptrOff y % n = 0 → (∀ i, i < 512 / w → active s.ctx m i = true → ptrOff y + i * n + n ≤ 0x18000) →
      let some_ : Prop := ∃ i : Fin 64, i.val < 512 / w ∧ active s.ctx m i = true
      Completes (.vstp v p m z none) s fun t => is (fun i => ptrOff y + i * n) t ∧ VRegsBut 0 s t ∧
        (∀ q, q ≠ p → ptrLane t.ctx q = ptrLane s.ctx q) ∧
        (some_ → ptrLane t.ctx p = ptrNext y) ∧ (¬ some_ → ptrLane t.ctx p = y) ∧
        ∀ j : Fin 32, (some_ → j.val / 4 = p.toNat → (t.vrc 0)[j] = 63) ∧
          (¬ some_ ∨ j.val / 4 ≠ p.toNat → (t.vrc 0)[j] = (s.vrc 0)[j])) ∧
    (∀ (off : Nat) (k : BitVec 3), z = .w32 → OwnAt (s.gr a) off → (s.gr a).toNat % 4 = 0 → off + 64 ≤ 0x18000 → m = 0 →
      (boundAt s.core k).act = 2 →
      (∃ i, i < 16 ∧ (let x := decodeF f32F (s.lane v 32 i).toNat
        ltF x (decodeF f32F (boundAt s.core k).lo.toNat) = true ∨ ltF (decodeF f32F (boundAt s.core k).hi.toNat) x = true)) →
      exec (.vst v a m z (some k)) s = .next (abortCtx s s.core.cur .bound)) ∧
    (let on : List Nat := (List.range (512 / w)).filter (active s.ctx m)
     let T := nfld s.ctx.tagbase.toNat 0 17
     let B (k : Nat) : Nat := if k = 7 then 8 else if k ≤ 2 then 2 else 1
     let wide (k : Nat) : Prop := 1 ≤ k ∧ (k ≤ 2 → z = .w32) ∧ (3 ≤ k → k ≤ 4 → z = .w16) ∧ (k = 7 → z = .w64) ∧ (k ≤ 4 ∨ k = 7)
     let cell (k q j : Nat) : List Host.Cell :=
       let x := (s.lane v w j).toNat
       let conv (f g : FFmt) (sat : Bool) : List Host.Cell :=
         cellsAt q (leBytes (B k) (fcvtR f g .rne sat 0 (fval f x 63)).bits)
       match k with
       | 1 => conv f32F bf16F false
       | 2 => conv f32F f16F false
       | 3 => conv bf16F e4m3F true
       | 4 => conv bf16F e5m2F false
       | _ => cellsAt q (leBytes 8 x) ++ [(T + q / 8, (laneCount (s.vrc v) 64 j).setWidth 8)]
     let fits (k q : Nat) : Prop := q + B k ≤ 0x18000 ∧ (k = 7 → q % 8 = 0 ∧ T + q / 8 < 0x18000)
     let puts (k : Nat) (q : Nat → Nat) (t : State) : Prop :=
       (∀ j, rd8 t.core.mem j = rd8 (wrCells s.core.mem (on.flatMap fun i => cell k (q i) i)) j) ∧
       (∀ x : Place, (∀ j, x ≠ .scratch s.coreId j) → t.byteAt x = s.byteAt x) ∧ (∀ r, t.gr r = s.gr r ∧ t.grc r = s.grc r)
     (∀ k off, wide k → off < 0x18000 → off % B k = 0 → (∀ i ∈ on, fits k (off + i * B k)) →
       (s.gr a = BitVec.ofNat 64 (apLocal + k * 0x40000 + off) → Completes (.vst v a m z none) s fun t =>
         puts k (fun i => off + i * B k) t ∧ ∀ r, t.vr r = s.vr r ∧ t.vrc r = s.vrc r) ∧
       (let y := ptrLane s.ctx p
        ptrWin y = k → ptrOff y = off → on ≠ [] → Completes (.vstp v p m z none) s fun t =>
          puts k (fun i => off + i * B k) t ∧ VRegsBut 0 s t ∧ (∀ j, j ≠ p → ptrLane t.ctx j = ptrLane s.ctx j) ∧
          ptrLane t.ctx p = ptrNext y)) ∧
     (∀ (k : Nat) (q : Nat → Nat), wide k → (s.gr a).toNat % B k = 0 →
       (∀ i ∈ on, s.gr a + BitVec.ofNat 64 i * s.gr b = BitVec.ofNat 64 (apLocal + k * 0x40000 + q i) ∧ fits k (q i)) →
       Completes (.vsts v a b m z none) s fun t => puts k q t ∧ ∀ r, t.vr r = s.vr r ∧ t.vrc r = s.vrc r) ∧
     (∀ k off, k = 5 ∨ k = 6 → on ≠ [] → off % 32 = 0 → off + 64 ≤ 0x18000 →
       s.gr a = BitVec.ofNat 64 (apLocal + k * 0x40000 + off) →
       exec (.vst v a m z none) s = .next (abortCtx s s.core.cur .access)))) ∧
  (∀ (v a b : Reg) (m : BitVec 2) (z : Wd) (s : State), let w := z.bits; let n := w / 8
    let on : List Nat := (List.range (512 / w)).filter (active s.ctx m)
    ∀ (i : Instr) (at_ : Nat → Word), (i, at_) ∈ ([(.vst v a m z none, fun j => s.gr a + BitVec.ofNat 64 (j * n)),
      (.vsts v a b m z none, fun j => s.gr a + BitVec.ofNat 64 j * s.gr b),
      (.vscatter v a b m z, fun j => s.gr a + BitVec.ofInt 64 ((s.lane b w j).toInt * (n : Int)))] : List (Instr × (Nat → Word))) →
    on ≠ [] → s.ctx.storing = none →
    let covers (at0 : Nat → Nat) (j q : Nat) : Prop := j ∈ on ∧ at0 j ≤ q ∧ q < at0 j + n
    let last (at0 : Nat → Nat) (j q : Nat) : Prop := covers at0 j q ∧ ∀ k, j < k → ¬ covers at0 k q
    let byte (at0 : Nat → Nat) (j q : Nat) : Byte := (s.lane v w j).extractLsb' (8 * (q - at0 j)) 8
    let kept (t : State) : Prop := SameBytes s t ∧ t.ctx.pc = (nextPc s.ctx).pc ∧
      (∀ r, t.gr r = s.gr r ∧ t.grc r = s.grc r) ∧ ∀ r, t.vr r = s.vr r ∧ t.vrc r = s.vrc r
    (∀ (c : CoreId) (offs : Nat → Nat), (∀ j ∈ on, (at_ j).toNat % n = 0 ∧ classify (at_ j) = .remote c (offs j)) →
      (inReach s.coreId s.ctx c = false → exec i s = .next (abortCtx s s.core.cur .access)) ∧
      (inReach s.coreId s.ctx c = true → hoopUsed s.ctx + 80 ≤ 2048 → Completes i s fun t => kept t ∧
        ∃ e, t.ctx.hoop = s.ctx.hoop ++ [e] ∧ e.dst = .core c ∧ e.pkg = none ∧
          (∀ j q, last offs j q → effByte q e = some (byte offs j q)) ∧
          (∀ q, (∀ j, ¬ covers offs j q) → effByte q e = none))) ∧
    (∀ (vas : Nat → Nat) (pa : Nat) (x : State), let a0 := vas (on.headD 0)
      (∀ j ∈ on, (at_ j).toNat % n = 0 ∧ classify (at_ j) = .fabric (vas j) ∧ vas j / 64 = a0 / 64 ∧
        ∀ k, k < n → inGuard s.ctx.stacklimit (vas j + k) = false) →
      translate s (ctxTag s.ctx) 0 .write a0 1 = (.ok pa, x) → pa % 65536 = a0 % 65536 → s.core.gather.length < 8 →
      (∀ l ∈ s.core.gather, (l.drain = none → fullLine l = false) ∧ openAt ⟨none, ctxTag s.ctx, a0, pa⟩ l = false) →
      (∃ q, q / 64 = a0 / 64 ∧ ∀ j, ¬ covers vas j q) →
      Completes i s fun t => kept t ∧ t.ctx.committed = true ∧ ∃ l, t.core.gather = s.core.gather ++ [l] ∧
        l.va = a0 / 64 * 64 ∧ l.pa = pa / 64 * 64 ∧ l.home = none ∧ l.drain = none ∧ l.last = s.now ∧
        (∀ j q, last vas j q → l.bytes.getD (q % 64) none = some (byte vas j q, s.core.cur)) ∧
        (∀ q, q / 64 = a0 / 64 → (∀ j, ¬ covers vas j q) → l.bytes.getD (q % 64) none = none))) ∧
  (∀ (d a b : BitVec 3) (t : FTy) (r : Rnd) (s : State), let f := ftyFmt t; let w := t.bits
    let O (p : BitVec 3) : Nat := ptrOff (ptrLane s.ctx p)
    (∀ p, p = a ∨ p = b ∨ p = d → ptrWin (ptrLane s.ctx p) = 0 ∧ O p % 64 = 0 ∧ O p + 64 ≤ 0x18000) →
    Lets s (.scratch s.coreId) 1 (O d) → s.Clean →
    let X (p : BitVec 3) (i : Nat) : FVal := fval f (rdNat s.core.mem (O p + i * (w / 8)) (w / 8)) 63
    let is (q : Nat → FRes) (u : State) : Prop :=
      (∀ i, i < 512 / w → rdNat u.core.mem (O d + i * (w / 8)) (w / 8) = (q i).bits % 2 ^ w) ∧
      SameBytesBut s u (O d) 64 ∧ VRegsBut 0 s u ∧ (∀ r, u.gr r = s.gr r ∧ u.grc r = s.grc r) ∧
      (∀ p, p = a ∨ p = b ∨ p = d → ptrLane u.ctx p = ptrNext (ptrLane s.ctx p)) ∧
      (∀ p, p ≠ a → p ≠ b → p ≠ d → ptrLane u.ctx p = ptrLane s.ctx p) ∧
      ∀ j : Fin 32, (u.vrc 0)[j] = if j.val / 4 = a.toNat ∨ j.val / 4 = b.toNat ∨ j.val / 4 = d.toNat then 63
        else (s.vrc 0)[j]
    let m := rndOf s.ctx r false
    Completes (.mmin3 d a b t) s (is fun i => fminmaxR f false (X a i) (X b i)) ∧
    Completes (.mmax3 d a b t) s (is fun i => fminmaxR f true (X a i) (X b i)) ∧
    (s.SigOff →
      Completes (.madd3 d a b t r) s (is fun i => faddR f m (X a i) (X b i)) ∧
      Completes (.msub3 d a b t r) s (is fun i => faddR f m (X a i) (fnegV (X b i))) ∧
      Completes (.mmul3 d a b t r) s (is fun i => fmulR f m (X a i) (X b i)) ∧
      Completes (.mfma3 d a b t r) s (is fun i => fmaR f m false false (X a i) (X b i) (X d i))))

/-- Every step keeps the canonical form of the memories. From every state whose byte memories (scratchpad, weight buffer
and instruction store of every core, DRAM) are in canonical form, strictly rising addresses and no entry equal to the
unlisted byte, every step that answers a next state answers one whose memories are. The form is the model's (log entry
1): it makes equal memories equal data. (R3, R190, R228, R360, R366.) -/
def Obligations.MemoryFormIsKept : Prop :=
  ∀ s t : State, s.MemWf → step s = .next t → t.MemWf

/-- The memories are in canonical form at reset. The state right after reset has the form that every step keeps. (R357.) -/
def Obligations.MemoryFormAtReset : Prop :=
  State.reset.MemWf

/-- Dispatch, promotion, watchdog, release, resume, save, restore, band decisions. Each event of a context or band has its
effect where its condition holds: the implicit commit after 512 instructions, the next ready context after 256 or the
same one again where no other is ready, dispatch of the record R12 chooses to the lowest free context with the
registers of R15 and R17, none while the core waits for frame space (R12), promotion after 2^20 cycles of the core,
the watchdog trap, due at the next instruction, and taken at once in a context that stalls or waits for an answer (its
budget as WDBUDGET stands then, log entry 79), the release of a drained context, the service of a suspended one (TRAP
goes on at PC + 4 with the registers changed, a page fault at the same PC, with every context of the core that faulted
on that page, R370 as log entry 77 reads it), saving, once no line transfer of the context goes on at a bank (R219),
and restoring of what was recorded, the release or discard of the record a trap returned. A release hands the launch
task that ended to its core's list of ends to report (the model's way, log entry 43). Which of release and discard the
supervisor chooses is R351's policy, as log entry 40 reads it. (R12, R13, R14, R15, R17, R18, R28, R31, R160, R187,
R283, R289, R351, R370.) -/
def Obligations.ContextEvents : Prop :=
  ∀ s : State,
  (∀ c : CtxNo, 512 ≤ (s.ctxAt c).sinceCommit → exec (.implicitCommit c) s = .next (s.modCtxAt c commitCtx)) ∧
  (∀ c : CtxNo, 256 ≤ s.core.issued → nextReady s.core = some c →
    exec .issueQuantumExpiry s = .next (s.modCore fun k => { k with cur := c })) ∧
  (256 ≤ s.core.issued → nextReady s.core = none →
    exec .issueQuantumExpiry s = .next (s.modCore fun k => { k with cur := k.turn, issued := 0 })) ∧
  (∀ (c : CtxNo) (r : Record) (g : Nat), s.stopped = false → s.core.killed = false → freeCtx s.core = some c →
    nextRecord s.core = some (r, g) → replayHolds s (.scratch s.coreId) (activateSeen s c g) = false →
    Completes .taskDispatch s fun t => let x := t.ctxAt c
      let off := 512 * (s.core.framecfg.base.toNat + g)
      let isMsg : Bool := !(r.cls == 3 || r.cls == 4)
      x.phase = .running ∧ x.task = some r ∧ x.pc = r.entry.d0 ∧ t.core.inbox = s.core.inbox.erase r ∧
      t.core.frames = s.core.frames ++ [(g, entryGranules r.entry)] ∧
      (∀ p : Vector Word 3 × BitVec 3,
        (r.kept = some p ∨ r.kept = none ∧ ((∃ b, r.cap = some b ∧ p = (b.dsc, b.cntd)) ∨
          r.cap = none ∧ p = (if r.entry.d1.getLsbD 22 = true then s.core.lb else Vector.replicate 3 0, 0))) →
        x.d = #v[frameDesc s.coreId off (8 * entryGranules r.entry), p.1[0], p.1[1], p.1[2]] ∧
        x.held = p.2.setWidth 4 <<< 1) ∧
      t.core.mem = wrBytes s.core.mem off (leBytes 16 0) ∧ x.actSeq = (s.ctxAt c).actSeq + 1 ∧
      gval x 2 = (s.ctxAt c).stackbase ∧ gval x 4 = taskInfo r ∧
      gval x 10 = (if isMsg then BitVec.ofNat 64 (apLocal + r.payOff) else r.arg) ∧
      gval x 11 = (if isMsg then BitVec.ofNat 64 r.payLen else 0) ∧ gval x 12 = r.src.setWidth 64 ∧
      (∀ q : Reg, q ∉ ([2, 4, 10, 11, 12] : List Reg) → gval x q = 0) ∧ (∀ q : Reg, gcount x q = 63) ∧
      ∀ e, e ≠ c → t.ctxAt e = s.ctxAt e) ∧
  (s.core.frameWait = true → exec .taskDispatch s = .next s) ∧
  (∀ (n : Nat) (r : Record), s.core.inbox[n]? = some r → r.since + 2 ^ 20 ≤ s.cyc → r.band ≠ 3 →
    bandHeld s.core r.band = false →
    exec (.recordPromotion n) s =
      .next (s.modCore fun k => { k with inbox := k.inbox.set n { r with band := r.band + 1, since := s.cyc, front := 0 } }).clockUpdate) ∧
  (∀ (c : CtxNo) (r : Record), let x := s.ctxAt c
    x.task = some r → x.phase = .running → x.trapDue = none → 2 ^ wdExp s.core r ≤ wdCount s.cyc x →
    (x.asleep = false → x.stall = none → x.pending = none → exec (.watchdogExpiry c) s =
      .next (s.modCtxAt c fun y => { y with trapDue := some (.watchdog, false, []) })) ∧
    (x.asleep = true ∨ x.stall.isSome = true ∨ x.pending.isSome = true →
      Completes (.watchdogExpiry c) s fun t => (t.ctxAt c).phase = .ending ∧
      t.records = s.records ++ [.fault s.coreId c .watchdog x.pc r.msgid x.committed false [] none])) ∧
  (∀ c : CtxNo, (s.ctxAt c).phase = .ending → (s.ctxAt c).lvDue = false → (s.ctxAt c).chunks = [] →
    Completes (.contextRelease c) s fun t => (t.ctxAt c).phase = .free ∧ (t.ctxAt c).task = none ∧
      t.core.ends = s.core.ends ++ ((s.ctxAt c).task.bind fun r => r.launch).toList ∧ ∀ e, e ≠ c → t.ctxAt e = s.ctxAt e) ∧
  (∀ (c : CtxNo) (code : BitVec 13) (i : BitVec 3) (v : Word), let x := s.ctxAt c
    x.phase = .suspended (.trap code) → x.replaying = false →
    Completes (.supervisorResume c [(i, v)]) s fun t => let y := t.ctxAt c
      y.phase = .running ∧ y.pc = x.pc + 4 ∧ gval y (10 + i.setWidth 5) = v ∧
      (∀ q : Reg, q ≠ 10 + i.setWidth 5 → gval y q = gval x q) ∧ y.v = x.v) ∧
  (∀ (c : CtxNo) (va : Word), let x := s.ctxAt c
    x.phase = .suspended (.pageFault va) →
    Completes (.supervisorResume c []) s fun t => let y := t.ctxAt c
      y.phase = .running ∧ y.pc = x.pc ∧ y.g = x.g ∧ y.v = x.v ∧
      ∀ e : CtxNo, faultedOn (va.toNat / 65536) (x.gen.extractLsb' 0 16) (s.ctxAt e) = true →
        (t.ctxAt e).phase = .running ∧ (t.ctxAt e).pc = (s.ctxAt e).pc) ∧
  (∀ (c : CtxNo) (w : Suspend), let x := s.ctxAt c
    x.phase = .suspended w → x.hoop = [] → x.chunks = [] → x.pending = none →
    (∀ h, (headAt x h).bnd = false ∧ holds s (.head c h) = false) →
    (∀ e ∈ s.core.banks, e.2.taken ≤ s.cyc ∨ ∀ h, e.2.lastBy ≠ some (.head c h)) →
    Completes (.contextSave c) s fun t => let y := t.ctxAt c
      y.phase = .saved w ∧ y.pc = x.pc ∧ y.g = x.g ∧ y.v = x.v ∧ t.core.saves[c.toFin] = some y ∧
      t.records = s.records ++ [.saved s.coreId c]) ∧
  (∀ (c : CtxNo) (va : Word) (r : Ctx), (s.ctxAt c).phase = .saved (.pageFault va) → s.core.saves[c.toFin] = some r →
    Completes (.contextRestore c) s fun t => let y := t.ctxAt c
      y.phase = .running ∧ y.pc = r.pc ∧ y.g = r.g ∧ y.v = r.v ∧ y.latch = r.latch ∧ y.frm = r.frm ∧
      t.core.saves[c.toFin] = none ∧ ∀ h, headAt y h = restoredHead (headAt r h)) ∧
  (∀ (b : BitVec 2) (r : Record) (cause : Cause), trappedHead s.core b = some r → r.trapped = some (cause, false) →
    r.retried = false → (∀ q ∈ s.core.inbox, q ≠ r → q.band = b → q.trapped = none) →
    Completes (.bandRelease b) s fun t => bandHeld t.core b = false ∧ t.records = s.records ∧
      ∃ q ∈ t.core.inbox, q.msgid = r.msgid ∧ q.trapped = none ∧ q.retried = true ∧ q.kept = r.kept) ∧
  (∀ (b : BitVec 2) (r : Record) (cause : Cause) (com : Bool), trappedHead s.core b = some r →
    r.trapped = some (cause, com) → (com = true ∨ r.retried = true) → r.kept = none → r.launch = none →
    Completes (.recordDiscard b) s fun t => t.core.inbox.length + 1 = s.core.inbox.length ∧
      t.records = s.records ++ [.discarded s.coreId (some cause) r.msgid com])

/-- Writes of configuration registers. A layout inside its range that does not overlap the other area, in force or
pending, becomes pending; one out of range or that overlaps it is ignored; and it comes into force once its area is
empty; HEADPRI, SHIFTINJ (a forced offset of 0 or 8 does not arm; what a motion has fired by then shows in FIRED), FRM
(6 and 7 become 0), MXBUDGET (enabling fills the bucket), MXGOV (its EN and LIMIT stand while FORCED); a barrier's
masks and control word (R302, R303) where nobody has arrived and SHED is asked neither with EXITB (R303) nor at a pod
barrier (R399); a queue's control bits; a spray tree entry; a trace ring's control bits and the entries to replay
(R349, R350); an erasure register (CECNT cleared by 1s); a frame tag, where no trace ring is in use; a root; a host
credential (R396). (R75, R193, R207, R224, R243, R244, R302, R303, R327, R329, R349, R350, R365, R369, R372, R396,
R399.) -/
def Obligations.ConfigurationWrites : Prop :=
  ∀ (s : State) (x : Word), let b : BitVec 8 := x.extractLsb' 0 8; let n : BitVec 8 := x.extractLsb' 8 8
  let meets (a : Area) : Prop := (b.toNat < a.base.toNat + a.size.toNat ∧ a.base.toNat < b.toNat + n.toNat) ∨
    ∃ p, a.pend = some p ∧ b.toNat < p.1.toNat + p.2.toNat ∧ p.1.toNat < b.toNat + n.toNat
  (1 ≤ n.toNat → n.toNat ≤ 192 → b.toNat + n.toNat ≤ 192 → ¬ meets s.core.inboxcfg →
    exec (.framecfgWrite x) s = .next (s.modCore fun k => { k with framecfg := { k.framecfg with pend := some (b, n) } })) ∧
  (8 ≤ n.toNat → n.toNat ≤ 192 → b.toNat + n.toNat ≤ 192 → ¬ meets s.core.framecfg →
    exec (.inboxcfgWrite x) s = .next (s.modCore fun k => { k with inboxcfg := { k.inboxcfg with pend := some (b, n) } })) ∧
  (n.toNat < 1 ∨ 192 < n.toNat ∨ 192 < b.toNat + n.toNat ∨ meets s.core.inboxcfg → exec (.framecfgWrite x) s = .next s) ∧
  (n.toNat < 8 ∨ 192 < n.toNat ∨ 192 < b.toNat + n.toNat ∨ meets s.core.framecfg → exec (.inboxcfgWrite x) s = .next s) ∧
  (∀ p, s.core.framecfg.pend = some p → s.core.frames = [] →
    Completes .framecfgApply s fun t => t.core.framecfg = ⟨p.1, p.2, none⟩ ∧ SameBytes s t) ∧
  (∀ p, s.core.inboxcfg.pend = some p → recPlaces s.core = [] →
    exec .inboxcfgApply s = .next (s.modCore fun k => { k with inboxcfg := ⟨p.1, p.2, none⟩ })) ∧
  exec (.headpriWrite x) s = .next (s.modCore fun k => { k with headpri := x.setWidth 8 }) ∧
  (Completes (.shiftinjWrite x) s fun t => let i := t.core.inj
    i.bank = x.extractLsb' 0 8 ∧ i.pos = x.extractLsb' 8 8 ∧ i.ofs = x.extractLsb' 16 4 ∧
    i.arm = (x.getLsbD 20 && decide (i.ofs ≠ 0 ∧ i.ofs ≠ 8)) ∧ i.fired = ((moveBanks s).core.inj.fired && !(x.getLsbD 21))) ∧
  (∀ c : CtxNo, exec (.frmWrite c x) s =
    .next (s.modCtxAt c fun y => { y with frm := if 5 < x.toNat % 8 then 0 else x.setWidth 3 })) ∧
  (Completes (.mxbudgetWrite x) s fun t => let m := t.core.mxbudget
    m.rate = x.extractLsb' 0 16 ∧ m.cap = x.extractLsb' 16 16 ∧ m.en = x.getLsbD 32 ∧
    m.bucket = if x.getLsbD 32 = true ∧ s.core.mxbudget.en = false then m.cap.setWidth 24 else s.core.mxbudget.bucket) ∧
  (Completes (.mxgovWrite x) s fun t => let m := t.core.mxgov
    m.stalled = x.extractLsb' 32 32 ∧ m.begun = s.core.mxgov.begun ∧
    m.limit = (if s.forced then s.core.mxgov.limit else x.extractLsb' 0 16) ∧
    m.en = (if s.forced then s.core.mxgov.en else x.getLsbD 16)) ∧
  (∀ (k : BarKey) (cfg : BarCfg), let m := barNo k
    (s.bar m).came = [] → (s.bar m).podCame = [] → cfg.red = none → (cfg.ctl.getLsbD 1 = true → cfg.ctl.getLsbD 5 = false) →
    (cfg.ctl.getLsbD 1 = true → barScope m ≠ 3) →
    Completes (.barrierConfigWrite k cfg) s fun t => let q := t.bar m
      q.en = cfg.ctl.getLsbD 0 ∧ q.shed = cfg.ctl.getLsbD 1 ∧ q.pclass = cfg.ctl.extractLsb' 2 3 ∧
      q.exitb = cfg.ctl.getLsbD 5 ∧ q.p = (s.bar m).p ∧ q.held = false ∧ q.cmask = cfg.cmask ∧ q.qmask = cfg.qmask ∧
      q.dmask = cfg.dmask ∧ q.pmask = cfg.pmask ∧ ∀ j, j ≠ m → t.bar j = s.bar j) ∧
  (∀ (k : BarKey) (cfg : BarCfg), (s.bar (barNo k)).came ≠ [] ∨ (s.bar (barNo k)).podCame ≠ [] ∨
    (cfg.ctl.getLsbD 1 = true ∧ (cfg.ctl.getLsbD 5 = true ∨ barScope (barNo k) = 3)) →
    exec (.barrierConfigWrite k cfg) s = .next s) ∧
  (∀ (d : BitVec 2) (q : BitVec 16), d ≠ 3 →
    Completes (.queueControlWrite d q x) s fun t => queueAt (t.die d) q.toNat =
      { queueAt (s.die d) q.toNat with en := x.getLsbD 0, sys := x.getLsbD 1, priv := x.getLsbD 2 }) ∧
  (∀ (c : CoreId) (tr : BitVec 6) (m : BitVec 5), c.toNat < 0xC00 → Completes (.sprayTreeWrite c tr (some m)) s fun t =>
    treeMask t ((dieOf c).toNat * 32 + nfld c.toNat 0 5) (nfld c.toNat 5 5) tr.toNat = some m) ∧
  (∀ (p : PortKey) (es : List (BitVec 128)), es ≠ [] → Completes (.traceRingControlWrite p x es) s fun t =>
    let r := tget Ring.reset t.rings (portNo p)
    r.en = x.getLsbD 0 ∧ r.stop = x.getLsbD 1 ∧ r.onlyrem = x.getLsbD 2 ∧ r.replay = x.getLsbD 3 ∧ r.log = es.take 256) ∧
  (∀ rank : BitVec 6, Completes (.erasureRegisterWrite rank x) s fun t => let e := erasureOf s rank.toNat
    erasureOf t rank.toNat = ⟨x.extractLsb' 0 32, e.cecnt &&& ~~~(x.extractLsb' 32 16), e.lastpos⟩) ∧
  (∀ f : BitVec 25, s.rings = [] → Completes (.frameTagWrite f x) s fun t => tget 0 t.ftags f.toNat = x.setWidth 26) ∧
  (∀ (d : BitVec 2) (sp : BitVec 16), d ≠ 3 →
    Completes (.rootTableWrite d sp x) s fun t => tget 0 (t.die d).roots sp.toNat = x) ∧
  (∀ (i : BitVec 3) (e sp : BitVec 16) (g : BitVec 8), Completes (.hostCredentialInstall i e sp g) s fun t =>
    tget none t.creds i.toNat = some ⟨e, sp, g⟩)

/-- Requests at the head of a route are performed at their core and answered. Where the oldest request on a route, unicast
or a spray's copy, is a single one and reaches a live core by a path that stands, with no trace ring in use, no struck
word there, no missing sampler and no core event before it, it is performed there once and its answer leaves on the
way back: a load's bytes, a store's, an atomic's old value, latches, a countdown, a frame increment or release, table
entries, instruction-store bytes, a boot load to the instruction store or the scratchpad, an append to a queue, a
message for a valid entry that finds room. Messages but boot loads, counter messages among them, are taken once boot
is done (R317, R357, log entry 59); a message's record has its head of 64 bytes unwritten before the payload (log
entry 13). (R23, R24, R117, R159, R162, R195, R199, R200, R331, R343, R344, R357, R358.) -/
def Obligations.RequestsArePerformed : Prop :=
  ∀ (s : State) (r : Route) (c : CoreId) (p : Packet) (rest : List Packet) (o : Op), Deliverable s r c p rest o →
  let k := s.coreAt c
  let back (b : Body) (t : State) : Prop := t.net = rest ++ [answerTo p b]
  (∀ as, o = .load as → Completes (.remoteLoad r) s fun t => back (.loadReply (as.map (rd8 k.mem))) t ∧ SameBytes s t) ∧
  (∀ cs, o = .store cs → Completes (.remoteStore r) s fun t => back .ack t ∧ (t.coreAt c).mem = wrCells k.mem cs) ∧
  (∀ a w, o = .slot0 a w → Completes (.remoteStore r) s fun t => back .ack t ∧
    (t.coreAt c).mem = wrBytes k.mem a (leBytes 8 (mergeSlot0 (rdNat k.mem a 8) w.toNat))) ∧
  (∀ fn z a b e, o = .atomic fn z a b e → let n := sizeBytes z; let v := rdNat k.mem a n
    Completes (.remoteAtomic r) s fun t => back (.atomicReply (BitVec.ofNat 64 v)) t ∧
      (t.coreAt c).mem = if fn = 9 ∧ v ≠ e.toNat % 2 ^ (8 * n) then k.mem
        else wrBytes k.mem a (leBytes n (amoNew fn (8 * n) v (b.toNat % 2 ^ (8 * n)) (e.toNat % 2 ^ (8 * n))))) ∧
  (∀ m, o = .sev m → Completes (.sevLatchWrite r) s fun t => back .ack t ∧
    ∀ i : Fin 4, ((t.coreAt c).ctxs[i]).latch = ((k.ctxs[i]).latch || m.getLsbD i)) ∧
  (∀ a n u, o = .cdec a n u → s.booted = true → k.posts = [] → n ≠ 0 → n < nfld (rdNat k.mem a 8) 0 32 →
    Completes (.countdownDecrement r) s fun t => back .ack t ∧
      (t.coreAt c).mem = wrBytes k.mem a (leBytes 4 (nfld (rdNat k.mem a 8) 0 32 - n))) ∧
  (∀ a n, o = .frameInc a n → s.booted = true → sLv (rdNat k.mem a 8) = true → Completes (.frameIncrement r) s fun t => back .ack t ∧
    (t.coreAt c).mem = wrBytes k.mem a (leBytes 8 (sWith (rdNat k.mem a 8) (sLive (rdNat k.mem a 8) + n) true))) ∧
  (∀ a, o = .frameRel a → s.booted = true → k.posts = [] → sLv (rdNat k.mem a 8) = true → 2 ≤ sLive (rdNat k.mem a 8) →
    Completes (.frameRelease r) s fun t => back .ack t ∧
      (t.coreAt c).mem = wrBytes k.mem a (leBytes 8 (sWith (rdNat k.mem a 8) (sLive (rdNat k.mem a 8) - 1) true))) ∧
  (∀ i e, o = .entries [(i, e)] → k.park = none → Completes (.entryTableWrite r) s fun t => back .ack t ∧
    ∀ j, tget ⟨0, 0⟩ (t.coreAt c).entries j = if j = i then e else tget ⟨0, 0⟩ k.entries j) ∧
  (∀ cs, o = .istore cs → Completes (.instructionStoreWrite r) s fun t => back .ack t ∧
    (t.coreAt c).istore = wrCells k.istore cs) ∧
  (∀ m, o = .msg m → m.coded = none → hLt m = 0 →
    (hEntry m = 252 → isSupervisor (hSrc m) = true → m.priv = true → hLen m ≠ 0 →
      let off := leNat (m.payload.take 8); let bs := m.payload.drop 8
      off < 2 ^ 17 → off % 4 = 0 → off + bs.length ≤ 0x10000 →
      Completes (.bootLoad r) s fun t => back .ack t ∧ (t.coreAt c).istore = wrBytes k.istore off bs) ∧
    (hEntry m = 252 → isSupervisor (hSrc m) = true → m.priv = true → hLen m ≠ 0 →
      let off := leNat (m.payload.take 8) - 2 ^ 18; let bs := m.payload.drop 8
      2 ^ 18 ≤ leNat (m.payload.take 8) → off < 2 ^ 17 → off + bs.length ≤ 0x18000 →
      Completes (.bootLoad r) s fun t => back .ack t ∧ (t.coreAt c).mem = wrBytes k.mem off bs) ∧
    (hEntry m = 253 → s.booted = true → hLen m = 2 → hArg m < 65536 → dieOf c ≠ 3 →
      let l : Launch := ⟨takeMsg.recWords m.payload, some (hSrc m), p.tag, 0, 0, 0⟩
      appendFault (s.die (dieOf c)) (hArg m) m.priv false (hSrc m) l = none →
      Completes (.prickingAppend r) s fun t => back .ack t ∧
        (queueAt (t.die (dieOf c)) (hArg m)).recs =
          (queueAt (s.die (dieOf c)) (hArg m)).recs ++ [{ l with id := (s.die (dieOf c)).launchCnt }]) ∧
    (∀ a, s.booted = true → hEntry m ≠ 252 → hEntry m ≠ 253 → m.cls ≠ 6 → let e := entryAt k (hEntry m)
      eValid e = true → entryGranules e ≤ k.framecfg.size.toNat → k.inboxcfg.pend = none →
      findPlace k false (recBytes m.cap.isSome m.payload.length) = some a →
      Completes (.messageAccept r) s fun t => back .ack t ∧ ∃ q : Record, (t.coreAt c).inbox = k.inbox ++ [q] ∧
        q.place = a ∧ q.msgid = hId m ∧ q.src = hSrc m ∧ q.pri = hPri m ∧ q.band = bandOf (hPri m) ∧ q.entry = e ∧
        q.payLen = m.payload.length ∧ q.entryIx = hEntry m ∧ q.cls = m.cls ∧ q.arrived = s.now ∧ q.front = 0 ∧ q.cap = m.cap ∧ q.launch = m.launch ∧
        (m.cap = none → q.payOff = a + 64 ∧ (t.coreAt c).mem = wrBytes k.mem (a + 64) m.payload)))

/-- Landing transforms at the receiving core. A landing whose offset is aligned and whose elements all lie in the
scratchpad is performed there: f32 sums and maxima, bf16 elements added to f32 ones, e4m3 widened to bf16, doublewords
scattered at a stride or transposed in blocks of 8 by 8, doublewords combined by exclusive or; its acknowledgement
leaves. A misaligned one, one with an element outside the scratchpad, or a transposition of other than 64 doublewords
is refused with LANDING_BAD, for every transform, and no byte changes. (R321, R322.) -/
def Obligations.LandingsTransformTheirElements : Prop :=
  ∀ (s : State) (r : Route) (c : CoreId) (p : Packet) (rest : List Packet) (m : Msg), Deliverable s r c p rest (.msg m) →
  m.coded = none → s.booted = true →
  let k := s.coreAt c; let O := nfld (hArg m) 0 17; let P := nfld (hArg m) 17 15; let n := m.payload.length
  let old (a w : Nat) : Nat := leNat ((List.range w).map fun i => rd8 k.mem (a + i))
  let el (w j : Nat) : Nat := leNat ((m.payload.drop (w * j)).take w)
  let f32 (w : Nat) : FVal := fval f32F w 63
  let each (w : Nat) (f : Nat → Nat × List Byte) : List Host.Cell := (List.range (n / w)).flatMap fun j => cellsAt (f j).1 (f j).2
  let fits (cs : List Host.Cell) : Prop := ∀ q ∈ cs, q.1 < 0x18000
  let lands (i : Instr) (lt : Nat) (ok : Bool) (cs : List Host.Cell) : Prop := hLt m = lt →
    (ok = true → fits cs → Completes i s fun t => (t.coreAt c).mem = wrCells k.mem cs ∧ t.net = rest ++ [answerTo p .ack]) ∧
    (¬ (ok = true ∧ fits cs) → Completes i s fun t => SameBytes s t ∧ t.net = rest ++ [answerTo p (.nack 4 (.msg m))])
  lands (.landingF32Add r) 1 (O % 4 == 0)
    (each 4 fun j => (O + 4 * j, leBytes 4 (faddR f32F .rne (f32 (old (O + 4 * j) 4)) (f32 (el 4 j))).bits)) ∧
  lands (.landingBf16Accumulate r) 2 (O % 4 == 0)
    (each 2 fun j => (O + 4 * j, leBytes 4 (faddR f32F .rne (f32 (old (O + 4 * j) 4)) (f32 (el 2 j * 65536))).bits)) ∧
  lands (.landingE4m3Widen r) 3 (O % 2 == 0)
    (each 1 fun j => (O + 2 * j, leBytes 2 (encodeF bf16F (decodeF e4m3F (el 1 j))))) ∧
  lands (.landingStridedScatter r) 4 (O % 8 == 0) (each 8 fun j => (O + 8 * P * j, leBytes 8 (el 8 j))) ∧
  lands (.landingTranspose r) 5 (O % 8 == 0 && n == 512)
    (each 8 fun j => (O + 8 * P * (j % 8) + 8 * (j / 8), leBytes 8 (el 8 j))) ∧
  lands (.landingF32Max r) 6 (O % 4 == 0)
    (each 4 fun j => (O + 4 * j, leBytes 4 (fminmaxR f32F true (f32 (old (O + 4 * j) 4)) (f32 (el 4 j))).bits)) ∧
  lands (.landingXor r) 7 (O % 8 == 0) (each 8 fun j => (O + 8 * j, leBytes 8 (old (O + 8 * j) 8 ^^^ el 8 j)))

/-- Answers, resends, chunks, timeouts. An acknowledgement frees its effect; a load reply or an atomic's old value ends
the stalled instruction with its register; an error packet ends the task that awaits it with a contained ACCESS, its
effect not performed; INBOX_FULL schedules a resend, which leaves once due; a committed chunk is sent, an atomic on
fabric memory once the gather buffer holds no line of its location (R119); a poisoned packet of any class is discarded
with a record that names its source, a core by its id and a channel by the number of its port (the model's code 319,
log entries 55 and 56); the 16th failure in a row takes both directions of a link down (counted as log entry 51 says,
with the model's code 315, log entry 56); a parked message times out into a refusal; a waiting local post for an entry
that is neither 252 nor 253 becomes a record where there is room, with the entry that stands then (log entry 68), a
change of INBOXCFG pending or not (log entry 67) and in the reserve's place too (log entry 13); an old gather line
drains. (R107, R119, R200, R201, R202, R283, R285, R315, R318, R319, R320.) -/
def Obligations.AnswersReachTheirSender : Prop :=
  (∀ (s : State) (r : Route) (c : CoreId) (p : Packet) (rest : List Packet) (b : Body) (i : CtxNo), ReplyAt s r c p rest b →
    let x := (s.coreAt c).ctxs[i.toFin]
    let after (t : State) : Ctx := (t.coreAt c).ctxs[i.toFin]
    p.who = .ctx i → exitBar x = none →
    (b = .ack → (∀ k ∈ x.chunks, ∀ e ∈ k.effs, e.eid = p.eid → e.copies = 1) →
      Completes (.acknowledgement r) s fun t => t.net = rest ∧ (after t).g = x.g ∧ (after t).hoop = x.hoop ∧
        (after t).chunks.flatMap Chunk.effs = (x.chunks.flatMap Chunk.effs).filter fun e => !(decide (e.eid = p.eid))) ∧
    (∀ (bs : List Byte) (d : Reg) (sx : Bool), b = .loadReply bs →
      x.pending = some ⟨p.eid, List.replicate bs.length none, List.range bs.length, [], .g d sx⟩ →
      Completes (.loadReply r) s fun t => t.net = rest ∧ (after t).pending = none ∧ (after t).pc = (nextPc x).pc ∧
        (after t).stall = none ∧ (x.sinceCommit < 511 → (after t).sinceCommit = x.sinceCommit + 1) ∧ (d ≠ 0 → gcount (after t) d = 63 ∧ gval (after t) d =
          if sx then (BitVec.ofNat (8 * bs.length) (leNat bs)).signExtend 64 else BitVec.ofNat 64 (leNat bs)) ∧
        ∀ q, q ≠ d → gval (after t) q = gval x q) ∧
    (∀ (v : Word) (d : Reg), b = .atomicReply v → x.pending = some ⟨p.eid, [], [], [], .amo d⟩ →
      Completes (.atomicReply r) s fun t => t.net = rest ∧ (after t).pending = none ∧ (after t).pc = (nextPc x).pc ∧
        (d ≠ 0 → gval (after t) d = v ∧ gcount (after t) d = 63) ∧ ∀ q, q ≠ d → gval (after t) q = gval x q) ∧
    (∀ (cause : BitVec 8) (m : Option Msg) (u : Option Word) (y : Pending), b = .err cause m u → x.pending = some y → y.eid = p.eid →
      Completes (.errorPacket r) s fun t => t.net = rest ∧ (after t).phase = .ending ∧
        t.records = s.records ++ [.fault c i .access x.pc (Record.id x.task) x.committed true [] (some false)]) ∧
    (∀ m : Msg, b = .nack 2 (.msg m) → m.tries < 17 → ∀ leaf, p.route.src = .core leaf →
      Completes (.nackReceipt r) s fun t => t.net = rest ∧ (t.coreAt c).resend = (s.coreAt c).resend ++
        [⟨.msg { m with tries := m.tries + 1, coded := none, h0 := setFld m.h0 12 3 0 }, false, p.who, p.eid, leaf, false, p.tag, p.va, s.now + 512⟩])) ∧
  (∀ (s : State) (n : Nat) (x : Resend) (o : Msg), s.core.resend[n]? = some x → x.op = .msg o → x.samp = false →
    samplerWaits s.core x.dst = false → x.due ≤ s.now →
    Completes (.nackResend n) s fun t => t.core.resend = s.core.resend.eraseIdx n ∧
      ∃ m, t.net = s.net ++ [⟨⟨.core s.coreId, .core x.dst⟩, x.who, x.eid, x.more, false, x.tag, x.va, .op (.msg m), false⟩] ∧
        (hLen o < 2 → m = o)) ∧
  (∀ (s : State) (c : CtxNo) (e : Effect), (s.ctxAt c).chunks = [⟨[e]⟩] → e.sent = false → e.pkg = none →
    (∀ d, e.dst = .core d → samplerWaits s.core d = false) → (∀ m, e.op = .msg m → hSpray m = false ∧ hLen m < 2) →
    drainsFirst s.core e = false →
    Completes (.chunkSend c) s fun t => (t.ctxAt c).chunks = [⟨[{ e with sent := true }]⟩] ∧ SameBytes s t ∧
      t.net = s.net ++ [⟨⟨.core s.coreId, e.dst⟩, .ctx c, e.eid, false, false, e.tag, e.va, .op e.op, false⟩]) ∧
  (∀ (s : State) (r : Route) (p : Packet) (rest : List Packet), takeFirst (fun q => decide (q.route = r)) s.net = some (p, rest) →
    Completes (.poisonedPacket r) s fun t => t.net = rest ∧ SameBytes s t ∧
      ∃ c, t.records = s.records ++ [.error c 319 (match p.route.src with | .core k => k.toNat | .chan n => portNo (.chan n))]) ∧
  (∀ (s : State) (l : Nat), s.downLinks.contains l = false →
    (tget 0 s.retries l + 1 < 16 → Completes (.linkRetry l) s fun t => tget 0 t.retries l = tget 0 s.retries l + 1 ∧
      t.downLinks = s.downLinks) ∧
    (16 ≤ tget 0 s.retries l + 1 → Completes (.linkRetry l) s fun t => t.downLinks = l :: linkBack l :: s.downLinks ∧
      t.records = s.records ++ [.error 0 315 l])) ∧
  (∀ (s : State) (m : Msg) (p : Packet) (at_ : Nat), s.core.park = some (m, p, at_) → at_ + 4096 ≤ s.now →
    Completes .parkTimeout s fun t => t.core.park = none ∧
      t.net = s.net ++ [answerTo p (.nack 1 (.msg m))]) ∧
  (∀ (s : State) (p : Post) (rest : List Post) (a : Nat), s.core.posts = p :: rest → p.frees = none → s.rings = [] →
    p.entryIx ≠ 252 → p.entryIx ≠ 253 →
    (let e := entryAt s.core p.entryIx
     eValid e = true → entryGranules e ≤ s.core.framecfg.size.toNat →
     findPlace s.core true (recBytes p.cap.isSome p.payload.length) = some a →
     Completes .localPostAccept s fun t => t.core.posts = rest ∧ ∃ q : Record, t.core.inbox = s.core.inbox ++ [q] ∧
       q.cls = p.cls ∧ q.arg = p.arg ∧ q.src = p.src ∧ q.entry = e ∧ q.place = a ∧
       q.pri = p.pri.getD (ePri e) ∧ q.band = bandOf q.pri)) ∧
  (∀ (s : State) (n : Nat) (l : GLine), s.core.gather[n]? = some l → l.drain = none → l.last + 1024 ≤ s.now →
    exec (.gatherDrainTimeout n) s = .next (settleAll (drainLine s n)))

/-- Claims, aligned banks, line transfers, spares. The best claim on a bank is granted where R208 lets it: the former
holder is displaced, and claims again if an operation of it waits, and the bank stops at the position it has reached
and moves to the new head's; a moving bank has reached its position, one position a cycle while the core's clock runs,
and its holder is no longer busy, or goes on to the POS that a steer within a line transfer's occupancy has given its
head; a rewind, once its cycles are over, ends with position 0 under the port and the instruction after RWD next, or
in a track fault with the bank and the position; a transfer of a context is the RDS or WRS it stands at (log entry
19), one of the engine its next block (log entry 18), with no engine fault due, a channel free and nothing due at any
core as its time passes; a remapped bank takes the lowest spare and copies no line (R351 as log entry 42 reads it), or
is failed. That an operation of the engine's head 1 waits for its bank like one of a command is the model's choice
(log entry 87); where a bank stops and what a steer does within a line transfer's occupancy are its reading (log entry
41). (R204, R205, R208, R209, R215, R216, R217, R222, R351, R270.) -/
def Obligations.ShiftStoreEvents : Prop :=
  ∀ (s : State) (bank : BitVec 8), let b := bankAt s.core bank
  (∀ (w : Holder) (n : Nat), bestClaim s.core b.claims = some (w, n) → grantable s b w s.cyc = true → (headOf s w).bank = bank →
    Completes (.headClaimGrant bank) s fun t => let k := bankAt t.core bank
      k.holder = some w ∧ (headOf t w).disp = false ∧ k.counted = reached s.cyc b ∧
      k.moving = (if k.counted = (headOf s w).pos then none else some (headOf s w).pos) ∧
      (∀ o, b.holder = some o → o ≠ w → (headOf t o).disp = true) ∧
      ((∀ o, b.holder = some o → waitsFor s o = false) → k.claims = b.claims.filter fun p => !(decide (p.1 = w))) ∧
      (∀ o, b.holder = some o → o ≠ w → waitsFor s o = true →
        k.claims = (b.claims.filter fun p => !(decide (p.1 = w))) ++ [(o, s.cyc - 1)])) ∧
  (∀ (p : BitVec 8) (w : Holder), enginesRun s.core = true → b.moving = some p → b.holder = some w → b.rewind = false →
    reached s.cyc b = p →
    ((headOf s w).pos = p → Completes (.bankAligned bank) s fun t => (bankAt t.core bank).counted = p ∧
      (bankAt t.core bank).moving = none ∧ (headOf t w).busy = false ∧ t.core.lines = s.core.lines ∧
      (s.core.inj.arm = false → (bankAt t.core bank).track = b.track + ((p.toNat : Int) - b.counted.toNat))) ∧
    ((headOf s w).pos ≠ p → s.cyc ≤ b.taken → Completes (.bankAligned bank) s fun t => (bankAt t.core bank).counted = p ∧
      (bankAt t.core bank).moving = some (headOf s w).pos ∧ t.core.lines = s.core.lines)) ∧
  (∀ (c : CtxNo) (h : BitVec 2) (p : BitVec 8), enginesRun s.core = true → b.moving = some p → b.holder = some (.head c h) →
    b.rewind = true → rewindOver b ≤ s.cyc → (s.ctxAt c).phase = .running → (s.ctxAt c).stall = some (.head h) →
    0 ≤ b.track → Completes (.bankAligned bank) s fun t => (bankAt t.core bank).counted = 0 ∧
      (bankAt t.core bank).track = 0 ∧ (bankAt t.core bank).rewind = false ∧ (headAt (t.ctxAt c) h).pos = 0 ∧
      (headAt (t.ctxAt c) h).busy = false ∧ (t.ctxAt c).pc = (nextPc (s.ctxAt c)).pc) ∧
  (∀ (c : CtxNo) (h : BitVec 2) (p : BitVec 8), enginesRun s.core = true → b.moving = some p → b.holder = some (.head c h) →
    b.rewind = true → rewindOver b ≤ s.cyc → (s.ctxAt c).phase = .running → (s.ctxAt c).stall = some (.head h) →
    b.track < 0 → let x := s.ctxAt c
    Completes (.bankAligned bank) s fun t => (t.ctxAt c).phase = .ending ∧
      t.records = s.records ++ [.fault s.coreId c .track x.pc (Record.id x.task) x.committed false
        [bank.toNat, (headAt x h).pos.toNat] none]) ∧
  (∀ h : BitVec 2, let y := headAt s.ctx h; let k := bankAt s.core y.bank; let a := y.bank.toNat * 256 + y.pos.toNat
    s.ctx.phase = .running → s.ctx.pending = none → s.ctx.trapDue = none → y.bnd = true → k.failed = false → k.claims = [] →
    alignedAt s (cur s h) = true → k.track = (y.pos.toNat : Int) → k.spare = none → s.rings = [] → s.Clean →
    channelFree s = true → Calm s →
    (∀ d : Reg, issueOf s = (.run (.rds d h), s) → Completes (.lineTransfer (.ctx s.core.cur)) s fun t =>
      vval (t.ctxAt s.core.cur) d = tget 0 s.core.lines a ∧ t.core.lines = s.core.lines ∧
      (headAt (t.ctxAt s.core.cur) h).pos = y.pos + y.step.signExtend 8) ∧
    (∀ g : Reg, issueOf s = (.run (.wrs g h), s) → Completes (.lineTransfer (.ctx s.core.cur)) s fun t =>
      t.core.lines = tput 0 s.core.lines a (s.vr g) ∧ (t.ctxAt s.core.cur).v = s.ctx.v ∧
      (headAt (t.ctxAt s.core.cur) h).pos = y.pos + y.step.signExtend 8)) ∧
  (∀ r : CpRun, s.core.cprun = some r → cpIsTrack r.cmd.dw = true →
    exec (.lineTransfer .engine) s = exec .copyCommandStart s) ∧
  (∀ i : Nat, ([0, 1, 2, 3, 4, 5, 6, 7] : List Nat).find? (fun j => s.core.spares.getLsbD j) = some i → b.holder = none →
    Completes (.trackRemap bank) s fun t => (bankAt t.core bank).spare = some (BitVec.ofNat 4 i) ∧
      (bankAt t.core bank).counted = 0 ∧ t.core.spares = s.core.spares &&& ~~~(1#8 <<< i) ∧ t.core.lines = s.core.lines) ∧
  (s.core.spares = 0 → Completes (.trackRemap bank) s fun t => (bankAt t.core bank).failed = true ∧ t.core.lines = s.core.lines)

/-- The matrix unit and the copy engine at work. The split of a command's work into events is the model's (log entry 46
for the matrix unit, log entry 18 for COPY_COMMAND_START, which advances a block too). Where their core lives and its
clock is not paused, no trace ring is in use and no word is struck: the sequencer's pick becomes the running command
with both chains of every cell at 0; the operands of a K-step are fetched where the governor lets it begin, which
counts it; a K-step adds the products with even k to each cell's chain E and those with odd k to O, in order, on the
operands fetched; a finished command leaves before + (E + O) in its accumulator; a block without a valid line waits
from then on, re-reads every 16 cycles and gives up after 4,096 with a record (the model's code 251, log entry 56); a
step held back counts in STALLED when it is first held (log entry 47); a running weight load copies its next line as
an event of its own, and the last event, which copies the lines left, ends the command; the bucket refills up to CAP;
a window begins with no K-step counted. A copy command starts where none runs; a block of a plain copy within the
scratchpad reads its elements and then writes them, in order; a command resumes after a fault, and ends after its last
block, when its blocks count as done. (R79, R235, R236, R237, R242, R243, R244, R250, R251, R266, R272, R275.) -/
def Obligations.EngineEvents : Prop :=
  ∀ s : State, let k := s.core; let at_ (r : MxRun) : Prop := k.mxrun = some r; let run (r : CpRun) : Prop := k.cprun = some r
  (enginesRun k = true → s.rings = [] → s.Clean →
    (∀ (c : CtxNo) (m : MxCmd), k.mxrun = none → mxPick s.govOn k = some (c, m) →
      Completes .matrixCommandStart s fun t => SameBytes s t ∧ ∃ r, t.core.mxrun = some r ∧ r.own = c ∧ r.cmd = m ∧
        r.steps = 0 ∧ r.fetched = none ∧ r.tables = [] ∧
        (isMma m.dw = true → ∀ p ∈ [r.even, r.odd], p = (tileCells (mxMode m.dw)).map fun _ => ⟨0, 63⟩)) ∧
    (∀ r, at_ r → isMma r.cmd.dw = true → isCodebook r.cmd.dw = false → r.steps < kSteps r.cmd.dw → r.fetched = none →
      (govLets s = true → Completes .matrixCommandStart s fun t => t.core.mxgov.begun = k.mxgov.begun + 1 ∧
        t.core.mxrun = some { r with fetched := some (k.mem, k.wbuf), waited := false }) ∧
      (govLets s = false → r.waited = false → Completes .matrixCommandStart s fun t => t.core.mxgov.begun = k.mxgov.begun ∧
        t.core.mxrun = some { r with waited := true } ∧ t.core.mxgov.stalled =
          if k.mxgov.stalled = BitVec.allOnes 32 then k.mxgov.stalled else k.mxgov.stalled + 1)) ∧
    (∀ r m w, at_ r → r.fetched = some (m, w) → stepReady r = true →
      Completes .kStepComplete s fun t => SameBytes s t ∧ ∃ q, t.core.mxrun = some q ∧ q.steps = r.steps + 1 ∧
        q.own = r.own ∧ q.cmd = r.cmd ∧ q.before = r.before ∧ ∀ i row col, (tileCells (mxMode r.cmd.dw))[i]? = some (row, col) →
          let f := accFmt (mxMode r.cmd.dw)
          let add (e : Chain) (j : Nat) : Chain := chainAdd f (chainVal f e)
            (prodV (fmtP f) (elemA m r.cmd row j) (elemB m w k.lattice r.cmd.dw r.tables j col))
          q.even[i]? = some (((List.range 16).map fun j => 32 * r.steps + 2 * j).foldl add (r.even.getD i zeroChain)) ∧
          q.odd[i]? = some (((List.range 16).map fun j => 32 * r.steps + 2 * j + 1).foldl add (r.odd.getD i zeroChain))) ∧
    (∀ r, at_ r → isMma r.cmd.dw = true → kSteps r.cmd.dw ≤ r.steps → mxCd r.cmd.dw = false →
      Completes .matrixCommandComplete s fun t => t.core.mxrun = none ∧ SameBytes s t ∧
        (let d := r.cmd.dw; let f := accFmt (mxMode d)
         ∀ row col, row < 16 → col < accCols (mxMode d) →
          let i := row * accCols (mxMode d) + col
          let c := chainAdd f (chainVal f (r.before.getD i zeroChain)) (chainVal f
            (chainAdd f (chainVal f (r.even.getD i zeroChain)) (chainVal f (r.odd.getD i zeroChain))))
          if mxMode d = 3 then tget zeroCell64 t.core.tiles (tileKey (mxAcc d) row col) = ⟨c.bits, c.count⟩
          else tget zeroCell t.core.acc (cellKey (mxAcc d) row col) = ⟨c.bits.setWidth 40, c.count⟩)) ∧
    (∀ r l, at_ r → isCodebook r.cmd.dw = true → r.steps < kSteps r.cmd.dw → r.tables.length < 8 → r.stall = none →
      r.ahead = some l → lineValid l = false →
      Completes .matrixCommandStart s fun t => SameBytes s t ∧ t.core.mxrun = some { r with stall := some s.cyc, reread := 0 }) ∧
    (∀ r c, at_ r → r.stall = some c →
      let l := tableLine k r r.tables.length; let may : Prop := r.fetched.isSome = true ∨ govLets s = true
      let n := 16 * (r.reread + 1)
      r.tables.length < 8 → isMma r.cmd.dw = true →
      (r.reread < 4096 → c + n ≤ s.cyc → lineValid l = false →
        Completes .tableReread s fun t => t.core.mxrun = some { r with ahead := some l, reread := r.reread + 1 }) ∧
      (r.reread < 4096 → c + n ≤ s.cyc → lineValid l = true → may →
        Completes .tableReread s fun t => ∃ q, t.core.mxrun = some q ∧ q.tables = r.tables ++ [l] ∧ q.stall = none ∧
          q.steps = r.steps ∧ q.tstall = r.tstall + n) ∧
      (4096 ≤ r.reread → may → Completes .tableGiveUp s fun t => ∃ q x, t.core.mxrun = some q ∧ q.stall = none ∧
        q.steps = r.steps ∧ q.tables = r.tables ++ [x] ∧ (∀ j, j < 16 → bookEntry x j = 0x7FC0) ∧
        q.tstall = r.tstall + 16 * r.reread ∧ t.records = s.records ++ [.error s.coreId 251
          ((r.cmd.dw[7]).toNat * 2 ^ 16 + 8 * r.steps + r.tables.length)])) ∧
    (∀ r, at_ r → mxKind r.cmd.dw = 2 → 64 * r.steps < mxLen r.cmd.dw →
      Completes .matrixCommandStart s fun t => t.core.mxrun = some { r with steps := r.steps + 1 } ∧
        t.core.mem = k.mem ∧ t.core.wbuf = wrBytes k.wbuf (mxWofs r.cmd.dw + 64 * r.steps)
          (rdBytes k.mem (mxOff r.cmd.dw + 64 * r.steps) 64)) ∧
    (∀ r, at_ r → mxKind r.cmd.dw = 2 → r.steps = 0 → mxCd r.cmd.dw = false →
      Completes .matrixCommandComplete s fun t => t.core.mxrun = none ∧ t.core.mem = k.mem ∧
        t.core.wbuf = wrBytes k.wbuf (mxWofs r.cmd.dw) (rdBytes k.mem (mxOff r.cmd.dw) (mxLen r.cmd.dw))) ∧
    (∀ r (src dst : Nat → Nat), run r → r.fault = none → r.waits = [] → r.block < cpBlocks r.cmd.dw →
      let d := r.cmd.dw
      cpKind d = 1 → cpPad d = false → cpGuarded d = false →
      (∀ x ∈ cpElems d r.block, ∃ a b, srcAddr k d x = some a ∧ dstAddr k d x = .addr b ∧ OwnAt a (src x) ∧ OwnAt b (dst x)) →
      Completes .copyCommandStart s fun t => (∃ q, t.core.cprun = some q ∧ q.block = r.block + 1 ∧ q.cmd = r.cmd) ∧
        t.core.cpdone = k.cpdone ∧ ∀ a, rd8 t.core.mem a =
          rd8 (wrCells k.mem ((cpElems d r.block).flatMap fun x => cellsAt (dst x) (rdBytes k.mem (src x) (cpDstSize d)))) a)) ∧
  (enginesRun k = true → Completes .bucketRefill s fun t => let b := k.mxbudget; let v := b.bucket.toInt
    t.core.mxbudget.cap = b.cap ∧ (b.cap.toNat ≤ v → t.core.mxbudget.bucket = b.bucket) ∧
    (v < b.cap.toNat → t.core.mxbudget.bucket = BitVec.ofInt 24 (min (b.cap.toNat : Int) (v + b.rate.toNat)))) ∧
  (Completes .governorWindow s fun t => t.core.mxgov = { k.mxgov with begun := 0 }) ∧
  (∀ (c : CtxNo) (m : CpCmd), enginesRun k = true → k.cprun = none → cpPick k = some (c, m) →
    Completes .copyCommandStart s fun t => SameBytes s t ∧ ∃ r, t.core.cprun = some r ∧ r.own = c ∧ r.cmd = m ∧ r.block = 0) ∧
  (∀ r va, run r → r.fault = some va → r.waits = [] → Completes .copyFaultResume s fun t =>
    t.core.cprun = some { r with fault := none, got := [], checked := false } ∧ SameBytes s t) ∧
  (∀ r, run r → enginesRun k = true → r.fault = none → r.waits = [] → cpBlocks r.cmd.dw ≤ r.block → cpCd r.cmd.dw = false →
    Completes .copyCommandComplete s fun t => t.core.cprun = none ∧ t.core.cpdone[r.own.toFin] = cpBlocks r.cmd.dw ∧
      SameBytes s t ∧ t.net = s.net)

/-- Barriers, the pricking, loss, reset and memory. A complete barrier inverts its phase; a selection makes the start
messages of its placement, which are sent one by one with ascending ids, coded where that is shorter (R326), and its
record stays in the queue meanwhile; an ended task is reported; a killed core stays killed and is counted; a package
reset leaves the reset state, DRAM emptied (log entry 1) but for the model's own counters (log entry 6); a replay
without a match ends with a record (the model's code 350, log entry 56); a whole half line written holds its bytes and
no poison; a codeword, of data, metadata or tags, named by an address (the model's numbering, log entry 48), read with
errors, those it holds and those found now, is corrected and counted, or reads as poison; scrubbed, it is rewritten
with its errors gone, or as poison with a record (the model's code 368, log entry 56); a walk that finds a leaf fills
the TLB and the translation cache. (R305, R333, R338, R340, R350, R352, R357, R366, R367, R368, R370, R371.) -/
def Obligations.PackageEvents : Prop :=
  ∀ s : State,
  (∀ k : BarKey, let n := barNo k; let b := s.bar n
    b.en = true → allCame s n = true → b.held = false → b.told = false → barScope n ≠ 3 → b.exitb = false →
    Completes (.barrierCompletion k) s fun t => (t.bar n).p = !b.p ∧ (t.bar n).came = [] ∧ (t.bar n).en = true ∧
      ∀ m, m ≠ n → t.bar m = s.bar m) ∧
  (∀ (d : BitVec 2) (q : Nat) (cs : List CoreId) (l : Launch) (rest : List Launch), d ≠ 3 → s.stopped = false →
    (s.die d).placing = none → (s.die d).starts = [] → pickQueue s d = some (q, cs) →
    (queueAt (s.die d) q).recs = l :: rest → placeHeld s d q = false →
    Completes (.prickingSelection d) s fun t => (t.die d).starts = startsOf d l cs ∧ SameBytes s t ∧
      (t.die d).placing = some (BitVec.ofNat 16 q, l.id) ∧ (queueAt (t.die d) q).recs.length = rest.length + 1) ∧
  (∀ (d : BitVec 2) (x : Start) (rest : List Start), d ≠ 3 → (s.die d).incs = [] → (s.die d).starts = x :: rest →
    Completes (.startMessageSend d) s fun t => (t.die d).starts = rest ∧ (t.die d).msgCnt = nextId (s.die d).msgCnt ∧
      t.net = s.net ++ [⟨⟨.core (supOf d), .core x.dst⟩, .pricking, s.eids, false, false, ⟨0, 0, true⟩, 0,
        .op (.msg (codeFrom s (supOf d) x.dst { x.msg with h1 := (nextId (s.die d).msgCnt).setWidth 64 }).1), false⟩]) ∧
  (∀ (r : LaunchRef) (rest : List LaunchRef), s.core.ends = r :: rest →
    Completes .taskEndReport s fun t => t.core.ends = rest ∧ SameBytes s t) ∧
  (s.core.killed = false → visible s.coreId = true → Completes .coreKill s fun t => t.core.killed = true ∧
    t.topoev = s.topoev + 1 ∧ t.count = s.count - 1) ∧
  (s.core.killed = true → exec .coreKill s = .next s) ∧
  exec .packageReset s = .next { State.reset with eids := s.eids, free := s.free, agenda := s.agenda } ∧
  (∀ p : PortKey, let r := tget Ring.reset s.rings (portNo p)
    r.replay = true → r.since + 2 ^ 17 ≤ s.now → Completes (.traceReplayTimeout p) s fun t =>
      tget Ring.reset t.rings (portNo p) = { r with replay := false, lost := true, since := s.now } ∧
      t.records = s.records ++ [.error 0 350 (portNo p)]) ∧
  (∀ (pa : Nat) (bs : List Byte), pa % 64 = 0 → bs.length = 64 → pa + 64 ≤ memTop → s.rings = [] → s.symErrs = [] → s.badWords = [] →
    Completes (.memoryLineWrite pa bs) s fun t => (∀ i (h : i < bs.length), t.byteAt (.dram (pa + i)) = bs[i]) ∧
      poisoned t pa = false ∧ ∀ a, a / 64 ≠ pa / 64 → t.byteAt (.dram a) = s.byteAt (.dram a) ∧ poisoned t a = poisoned s a) ∧
  (∀ (pa : Nat) (errs : List (BitVec 7)), let w := codewordAt pa; let e := erasureOf s (cwRank w)
    let all := symbolsOf (cwErrs s w ++ errs)
    cwPoison s w = false → s.rings = [] →
    (decodes e all = true →
      (Completes (.memoryLineRead pa errs) s fun t => erasureOf t (cwRank w) = countCorrected e all ∧
        cwErrs t w = all ∧ SameBytes s t ∧ t.poison = s.poison ∧ t.badWords = s.badWords) ∧
      (Completes (.patrolScrub pa errs) s fun t => erasureOf t (cwRank w) = countCorrected e all ∧
        cwErrs t w = [] ∧ SameBytes s t ∧ t.poison = s.poison ∧ t.records = s.records)) ∧
    (decodes e all = false →
      (Completes (.memoryLineRead pa errs) s fun t => erasureOf t (cwRank w) = e ∧ cwOk t w = false ∧ SameBytes s t) ∧
      (Completes (.patrolScrub pa errs) s fun t => SameBytes s t ∧ t.records = s.records ++ [.error 0 368 pa] ∧
        (∀ h, w = .half h → ∀ d ∈ halvesIn s h, poisoned t (64 * d) = true) ∧
        ((∀ h, w ≠ .half h) → t.badWords.contains w = true)))) ∧
  (∀ (va : Word) (acc : Access) (l : Leaf), let tg := ctxTag s.ctx
    s.rings = [] → homeOf va.toNat = s.pkgNo → va.toNat < 2 ^ 56 → findLeaf s.core.tlb tg va.toNat = none →
    findLeaf (s.die (dieOf s.coreId)).tcache tg va.toNat = none → walkRoot s (dieOf s.coreId) tg va.toNat = .leaf l →
    frameOk s tg (l.pa + va.toNat % 2 ^ l.bits) = true →
    Completes (.pageWalk va acc) s fun t => l ∈ t.core.tlb ∧
      l ∈ (t.die (dieOf s.coreId)).tcache ∧ SameBytes s t)

/-- The power controller's events. A stretched cycle is counted and passes no core cycle (how long the next one lasts is a
free value, log entry 88); the thermal trip, with a record (the model's code 377, log entry 56), and its end mark the
die; a valid new telemetry frame is taken, one with a wrong CRC only counted, a repeated one discarded; a missing
frame restarts the counts; 200 us without a frame enters failsafe, whose ticks each take the target from the first
points; a window of 100 us closes with the energy of each core divided by its own cycles (R4) in which it issued for
each class, the rest in BASE (its rounding is log entry 78), and the cycles of the next one are counted from then on;
a class is slowed a millisecond after it was shed and restored after 20 ms of headroom, HWHOLD is cleared after 20 ms
of good bus voltage, frames not missing; the firmware's kick, its expiry and update; PCAP, CLASSFLOOR and the curves
as R381 and R382 write them, with the status R379 returns. (R376, R377, R378, R379, R381, R382, R383, R385, R386,
R387, R388.) -/
def Obligations.PowerEvents : Prop :=
  ∀ s : State, let p := s.power
  let first : BitVec 16 := BitVec.ofInt 16 ((p.capReg.toNat : Int) * min ((p.vcurve[0]).2.toNat : Int) ((p.fcurve[0]).2.toNat : Int) / 1024)
  (∀ i ∈ [Instr.cycleStretch, Instr.currentLimit], Completes i s fun t => t.core.stretch = s.core.stretch + 1 ∧ t.cyc = s.cyc ∧
    t.core.clock = (if s.core.clock = .run then .stretched else s.core.clock)) ∧
  (∀ d : BitVec 2, d ≠ 3 →
    (Completes (.thermalTrip d) s fun t => (t.die d).hot = true ∧ t.records = s.records ++ [.error (supOf d) 377 d.toNat]) ∧
    (Completes (.thermalClear d) s fun t => (t.die d).hot = false ∧ t.records = s.records)) ∧
  (∀ f : BitVec 128,
    (frameCrcOk f = false → Completes (.telemetryFrame f) s fun t => t.power.badFrames = p.badFrames + 1 ∧
      t.power.target = p.target ∧
      t.power.lastFrame = p.lastFrame ∧ t.power.restoreAt = none ∧ t.power.holdAt = p.holdAt) ∧
    (frameCrcOk f = true → p.fseq = some (f.extractLsb' 80 16) →
      exec (.telemetryFrame f) s = .next (s.modPower fun q => { q with restoreAt := none })) ∧
    (frameCrcOk f = true → p.fseq ≠ some (f.extractLsb' 80 16) → Completes (.telemetryFrame f) s fun t =>
      t.power.fseq = some (f.extractLsb' 80 16) ∧ t.power.lastFrame = s.now ∧ t.power.failsafe = false ∧
      t.power.headroom = f.extractLsb' 64 16 ∧ (nfld f.toNat 32 32 < p.vfloor.toNat → t.power.hwhold = 0xFE) ∧ t.power.capForce = p.capReg ∧
      t.power.target = BitVec.ofInt 16 ((p.capReg.toNat : Int) *
        min (fracAt p.vcurve ((nfld f.toNat 32 32 : Int) - p.nomv.toNat))
          (fracAt p.fcurve ((nfld f.toNat 0 32 : Int) - p.nomf.toNat)) / 1024))) ∧
  (p.lastFrame + 4000 * (40 + 20 * p.missed) < s.now → exec .telemetryFrameMissing s =
    .next (s.modPower fun q => { q with restoreAt := none, holdAt := none, missed := q.missed + 1 })) ∧
  (p.failsafe = false → p.lastFrame + 800000 ≤ s.now → Completes .failsafeEntry s fun t =>
    t.power.failsafe = true ∧ t.power.tickAt = s.now ∧ t.power.target = first ∧ t.power.restoreAt = none) ∧
  (p.failsafe = true → p.tickAt + 80000 ≤ s.now → Completes .failsafeTick s fun t =>
    t.power.failsafe = true ∧ t.power.tickAt = s.now ∧ t.power.target = first ∧ t.power.restoreAt = none) ∧
  (∀ (base : Nat) (cores : List (CoreId × Nat)) (off : Vector Nat 48), p.windowAt + 400000 ≤ s.now →
    let cycles (c : CoreId) (k : Nat) : Nat := (tget (Vector.replicate 8 0) p.issued c.toNat).toArray.getD k 0
    let part (e : CoreId × Nat) (k : Nat) : Nat := e.2 * cycles e.1 k / windowCycles s e.1
    Completes (.measuringWindowClose base cores off) s fun t => t.power.windowAt = s.now ∧ t.power.issued = [] ∧
      t.power.marks = cycleMarks s ∧ (t.power.shares.map Prod.fst) = some (base +
        (cores.map fun e => e.2 - ((List.range 8).map (part e)).sum).sum / 1000) ∧
      (∀ k, k < 8 → shareOf t.power k = (cores.map fun e => part e k).sum / 1000) ∧
      ∀ i : Fin 48, t.power.regions[i] = (off[i] +
        (cores.map fun e => if (dieOf e.1).toNat * 16 + regionOf e.1 = i.val then e.2 else 0).sum) / 1000) ∧
  (∀ c : BitVec 3, isShed p c.toNat = true → p.slowing.getLsbD c.toNat = false →
    p.shedAt.toArray.getD c.toNat 0 + 4000000 ≤ s.now → Completes (.classSlowdown c) s fun t =>
      t.power.slowing = p.slowing ||| (1#8 <<< c.toNat) ∧ t.power.shed = p.shed) ∧
  (∀ k at_, lowestShed p = some k → p.restoreAt = some at_ → frameMissing s = false → p.fwfail = false → p.failsafe = false →
    at_ + 80000000 ≤ s.now → Completes .classRestore s fun t => t.power.shed = p.shed &&& ~~~(1#8 <<< k) ∧
      t.power.slowing = p.slowing &&& ~~~(1#8 <<< k) ∧ t.power.restoreAt = none) ∧
  (∀ at_, p.holdAt = some at_ → frameMissing s = false → p.hwhold ≠ 0 → at_ + 80000000 ≤ s.now → Completes .hwholdClear s fun t =>
    t.power.hwhold = 0 ∧ t.power.shed = p.shed) ∧
  (p.fwfail = false → p.kickAt + 40000000 ≤ s.now → Completes .firmwareWatchdogExpiry s fun t =>
    t.power.fwfail = true ∧ t.forced = true) ∧
  (p.updating = false → Completes .firmwareKick s fun t => t.power.kickAt = s.now ∧ t.forced = false) ∧
  (Completes (.firmwareUpdate true) s fun t => t.power.updating = true ∧ t.forced = true) ∧
  (p.updating = true → Completes (.firmwareUpdate false) s fun t => t.power.updating = false ∧ t.power.fwfail = false) ∧
  (∀ x : Word, powerBusy p = false → let cap := min (nfld x.toNat 0 16) 2400
    p.idleFloor.toNat ≤ cap → floorSum p.floors ≤ cap →
    exec (.pcapWrite x) s = .next (s.modPower fun q => { q with capReg := BitVec.ofNat 16 cap, status := 0 })) ∧
  (∀ x : Word, powerBusy p = false → nfld x.toNat 0 16 < p.idleFloor.toNat → p.idleFloor.toNat ≤ 2400 →
    exec (.pcapWrite x) s = .next (s.modPower fun q => { q with status := 1 })) ∧
  (∀ (x : Word) (y : BitVec 128) (z : BitVec 1024), powerBusy p = true →
    ∀ i ∈ [Instr.pcapWrite x, .classfloorWrite y, .vcurveWrite z, .fcurveWrite z],
      exec i s = .next (s.modPower fun q => { q with status := 4 })) ∧
  (∀ x : BitVec 128, powerBusy p = false → ((List.range 8).map fun i => nfld x.toNat (16 * i) 16).sum ≤ p.capForce.toNat →
    Completes (.classfloorWrite x) s fun t => t.power.status = 0 ∧ ∀ i : Fin 8, t.power.floors[i] = x.extractLsb' (16 * i.val) 16) ∧
  (∀ x : BitVec 1024, powerBusy p = false → curveOk (curveOf x) = true →
    exec (.vcurveWrite x) s = .next (s.modPower fun q => { q with vcurve := curveOf x, status := 0 }) ∧
    exec (.fcurveWrite x) s = .next (s.modPower fun q => { q with fcurve := curveOf x, status := 0 }))

/-- Operations of an authenticated host. A request of an endpoint with a credential, which the transport carries, with a
well-formed header and no trace ring in use is performed and answered with status 0: a load with its bytes, a store,
an atomic with the old value, an append to a queue that takes it, an accumulation, a register read or written; a load
whose address is homed elsewhere is answered with status 9, one without page, right or generation with 10 and a record
(the model's code 398, log entry 56), one of poison with 11; a host's accesses are translated by the root table of die
0, an ACCUMULATE of LEN elements' bytes carries 8 more (R397), and a record that a host appends counts as privileged
(log entry 7); a header with reserved bits, a status or a length above 1,024 with 8. A register write is answered 4
while the power controller is busy, 1 for a PCAP below IDLEFLOOR, 2 where the floors do not fit, 3 for a curve that
R379 refuses, 8 for an unknown register. Whatever it asks, a packet of an endpoint without a credential, or of a
service or semantics that is not carried, is dropped and counted. (R332, R379, R380, R381, R393, R394, R396, R397,
R398.) -/
def Obligations.HostOperations : Prop :=
  ∀ (s : State) (q : HostReq) (c : Credential),
  let all : List Instr := [.load q, .store q, .atomic q, .launchAppend q, .accumulate q, .regRead q, .regWrite q]
  ((credOf s q.endpoint = none ∨ carried q = false) → ∀ i ∈ all,
    exec i s = .next { s with podDrop := if s.podDrop = 0xFFFFFFFF then s.podDrop else s.podDrop + 1 }) ∧
  (q.service = .unreliable ∨ q.sem = .other ∨ (q.sem = .write ∧ qOp q ≠ 2) ∨ (q.sem = .read ∧ qOp q ≠ 1) ∨
    (q.service = .unordered ∧ qOp q ≠ 1 ∧ qOp q ≠ 2) → carried q = false) ∧
  (credOf s q.endpoint = some c → carried q = true → (nfld q.hdr.toNat 27 5 ≠ 0 ∨ nfld q.hdr.toNat 8 8 ≠ 0 ∨ 1024 < qLen q) →
    ∀ i ∈ all, exec i s = .next (respond s q 8 [])) ∧
  (credOf s q.endpoint = some c → carried q = true → nfld q.hdr.toNat 27 5 = 0 → nfld q.hdr.toNat 8 8 = 0 → qLen q ≤ 1024 →
    s.rings = [] →
    (qArg q / 2 ^ 56 = 0 → homeOf (qArg q) = s.pkgNo → ∀ u : State,
     (qOp q = 1 → qArg q % 8 = 0 → qLen q % 8 = 0 → q.data = [] →
       let x := rangeXlate s (credTag c) .read (qArg q) (qLen q)
       (∀ pas bs, x = (.inl pas, u) → chanRead u pas = some bs → exec (.load q) s = .next (respond (countReads u pas) q 0 bs)) ∧
       (∀ pas, x = (.inl pas, u) → chanRead u pas = none → exec (.load q) s = .next (respond u q 11 [])) ∧
       (∀ e, x = (.inr e, u) → e ≠ .held →
         exec (.load q) s = .next (respond (u.report (.error (supOf 0) 398 (qArg q))) q 10 []))) ∧
     (∀ pas, qOp q = 2 → qArg q % 8 = 0 → qLen q % 8 = 0 → q.data.length = qLen q →
       rangeXlate s (credTag c) .write (qArg q) (qLen q) = (.inl pas, u) →
       exec (.store q) s = .next (respond (chanWrite u (pas.zip q.data)) q 0 [])) ∧
     (let dw (i : Nat) : Nat := leNat ((q.data.drop (8 * i)).take 8)
      let z : Size := if nbit (dw 2) 4 then .d else .w
      ∀ pas v w, qOp q = 3 → q.data.length = 24 → qLen q = 24 → qArg q % sizeBytes z = 0 → dw 2 % 16 ≤ 10 → dw 2 < 32 →
       rangeXlate s (credTag c) .atomic (qArg q) (sizeBytes z) = (.inl pas, u) →
       outsideAtomic u pas (BitVec.ofNat 4 (dw 2)) z (BitVec.ofNat 64 (dw 0)) (BitVec.ofNat 64 (dw 1)) = some (v, w) →
       exec (.atomic q) s = .next (respond v q 0 (leBytes 8 w))) ∧
     (∀ pas old cs, qOp q = 5 → qArg q % 8 = 0 → q.data.length = 8 + qLen q →
       let lt := nfld (leNat (q.data.take 8)) 0 4
       (lt = 1 ∨ lt = 6 ∨ lt = 7) → (qLen q) % (if lt = 7 then 8 else 4) = 0 →
       rangeXlate s (credTag c) .atomic (qArg q) (qLen q) = (.inl pas, u) → chanRead u pas = some old →
       landCells (fun i => old.getD i 0) old.length lt 0 0 (q.data.drop 8) = some cs →
       exec (.accumulate q) s =
         .next (respond (chanUpdate u pas (cs.map fun x => (pas.getD x.1 0, x.2))) q 0 []))) ∧
    (qOp q = 1 → qArg q % 8 = 0 → qLen q % 8 = 0 → q.data = [] → qArg q / 2 ^ 56 = 0 → homeOf (qArg q) ≠ s.pkgNo →
      exec (.load q) s = .next (respond s q 9 [])) ∧
    (let d : BitVec 2 := BitVec.ofNat 2 (nfld (qArg q) 16 2); let n := nfld (qArg q) 0 16
     let l : Launch := ⟨Vector.ofFn fun i => BitVec.ofNat 64 (leNat ((q.data.drop (8 * i.val)).take 8)), none, credTag c, 0, 0, 0⟩
     qOp q = 4 → d ≠ 3 → q.data.length = 64 → qLen q = 64 → appendFault (s.die d) n true true (supOf d) l = none →
     exec (.launchAppend q) s = .next (respond (appendRecord s d n l) q 0 [])) ∧
    (∀ bs, qOp q = 7 → q.data = [] → regValue s (nfld (qArg q) 0 8) (nfld (qArg q) 24 2) (nfld (qArg q) 8 16) = some bs →
      exec (.regRead q) s = .next (respond s q 0 bs)) ∧
    (qOp q = 8 → q.data.length = qLen q → let r := nfld (qArg q) 0 8; let x := leNat q.data; let p := s.power
     let ends (f : State → State) (st : Nat) : Prop := exec (.regWrite q) s = .next (respond (f s) q st [])
     let put (f : Power → Power) : Prop := ends (fun t => t.modPower f) 0
     (r = 1 ∨ 9 ≤ r → ends id 8) ∧
     (powerBusy p = true → (r ∈ [0, 3, 4, 5] ∧ qLen q = 8) ∨ (r = 2 ∧ qLen q = 16) ∨ (r ∈ [6, 7] ∧ qLen q = 128) → ends id 4) ∧
     (r = 8 → qLen q = 8 → ends (fun t => { t with podcfg := BitVec.ofNat 10 x }) 0) ∧
     (powerBusy p = false →
       (r = 3 → qLen q = 8 → put fun k => { k with nomv := BitVec.ofNat 32 x }) ∧
       (r = 4 → qLen q = 8 → put fun k => { k with nomf := BitVec.ofNat 32 x }) ∧
       (r = 5 → qLen q = 8 → put fun k => { k with vfloor := BitVec.ofNat 32 x }) ∧
       (r = 0 → qLen q = 8 → let w : Word := BitVec.ofNat 64 x; let cap := min (nfld w.toNat 0 16) 2400
         (cap < p.idleFloor.toNat → ends id 1) ∧
         (p.idleFloor.toNat ≤ cap → cap < floorSum p.floors → w.getLsbD 16 = false → ends id 2) ∧
         (p.idleFloor.toNat ≤ cap → floorSum p.floors ≤ cap → put fun k => { k with capReg := BitVec.ofNat 16 cap })) ∧
       (r = 2 → qLen q = 16 → let fs : Vector (BitVec 16) 8 := Vector.ofFn fun i => (BitVec.ofNat 128 x).extractLsb' (16 * i.val) 16
         (p.capForce.toNat < floorSum fs → ends id 2) ∧ (floorSum fs ≤ p.capForce.toNat → put fun k => { k with floors := fs })) ∧
       (r = 6 ∨ r = 7 → qLen q = 128 → let k := curveOf (BitVec.ofNat 1024 x)
         (curveOk k = false → ends id 3) ∧
         (curveOk k = true → put fun m => if r = 7 then { m with fcurve := k } else { m with vcurve := k })))))

/-- Barriers and accesses between packages. At the root of a pod barrier an arrival is noted, and the last one completes
the phase there and sends the completion, with the combined values, to every other package of it; a completion inverts
the phase at a package that waits for it. A read, a fetch or a write of another package at an 8-aligned address homed
here, of at most 1,024 bytes in doublewords, is performed, by the root table of die 0 (the model's choice, log entry
7), and answered with a header of its OP, STATUS, LEN and TAG that echoes its ARG (log entry 97); a read that is not
of this form is answered with BAD_OP, one homed elsewhere with BAD_HOME, one of a stale generation with FAULT and a
record (its code is the model's, log entry 56); the doubleword of an answer, of which the load takes the bytes it
names, ends the load of the context that awaits them; a packet of a service or semantics that R393 does not list is
dropped and counted. (R305, R373, R393, R394, R395, R397, R398, R399, R400.) -/
def Obligations.PodEvents : Prop :=
  ∀ s : State, (exec (.podRemoteAccess .unsupported) s = .next { s with podDrop := if s.podDrop = 0xFFFFFFFF then s.podDrop else s.podDrop + 1 }) ∧
  (s.podEn = true → s.rings = [] →
  (∀ (id : BitVec 4) (pkg : BitVec 9) (x : Word), let n := podBarNo id; let b := s.bar n; let r := s.red (barId n)
    let acc : Word := if r.lt = 0 then 0 else BitVec.ofNat 64 (land64 r.lt.toNat (r.acc.getD (redUnit r.lt)).toNat x.toNat)
    b.en = true → b.pmask.getLsbD pkg.toNat = true → b.podCame.contains pkg = false → pkg ≠ s.pkgNo →
    (podPkgs b).head? = some s.pkgNo →
    ((∃ o ∈ podPkgs b, o ≠ pkg ∧ b.podCame.contains o = false) →
      Completes (.podBarrierArrival id pkg x) s fun t => (t.bar n).podCame = b.podCame ++ [pkg] ∧ (t.bar n).p = b.p ∧
        (t.red (barId n)).acc = some acc ∧ t.podOut = s.podOut) ∧
    ((∀ o ∈ podPkgs b, o = pkg ∨ b.podCame.contains o = true) → b.exitb = false →
      Completes (.podBarrierArrival id pkg x) s fun t => (t.bar n).p = !b.p ∧ (t.bar n).podCame = [] ∧ (t.bar n).came = [] ∧
        (t.red (barId n)).acc = none ∧ t.podOut = s.podOut ++ ((podPkgs b).filter fun p => !(decide (p = s.pkgNo))).map fun p =>
          podBarrier (barId n) r.lt p acc true)) ∧
  (∀ (id : BitVec 4) (x : Word), let n := podBarNo id; let b := s.bar n
    b.en = true → b.told = true → (podPkgs b).head? ≠ some s.pkgNo → b.exitb = false →
    Completes (.podBarrierCompletion id x) s fun t => (t.bar n).p = !b.p ∧ (t.bar n).came = [] ∧ (t.bar n).told = false) ∧
  (∀ (src : PodSource) (tag : BitVec 32) (va : Word) (u : State) (pas : List Nat), let tg : Tag := ⟨src.space, src.gen, src.priv⟩
    let ask (op : PodOp) : Instr := .podRemoteAccess (.request src tag va op)
    let answer (op : BitVec 8) (status len : Nat) (a : PodAnswer) : List PodOut :=
      s.podOut ++ [.reply (some (opHdr op status len tag.toNat va.toNat)) src.pkg a]
    (∀ n, va.toNat % 8 ≠ 0 ∨ n % 8 ≠ 0 ∨ 1024 < n ∨ 2 ^ 56 ≤ va.toNat →
      exec (ask (.read n)) s = .next { s with podOut := answer 1 8 0 (.access false) }) ∧
    (va.toNat % 8 = 0 → va.toNat < 2 ^ 56 →
    (∀ n, n ≤ 1024 → n % 8 = 0 → homeOf va.toNat ≠ s.pkgNo →
      exec (ask (.read n)) s = .next { s with podOut := answer 1 9 0 (.access false) }) ∧
    (homeOf va.toNat = s.pkgNo →
    (∀ n bs, n ≤ 1024 → n % 8 = 0 → chanRead u pas = some bs →
      (rangeXlate s tg .read va.toNat n = (.inl pas, u) → Completes (ask (.read n)) s fun t =>
        SameBytes s t ∧ t.podOut = answer 1 0 bs.length (.data bs)) ∧
      (rangeXlate s tg .fetch va.toNat n = (.inl pas, u) → Completes (ask (.fetch n)) s fun t =>
        SameBytes s t ∧ t.podOut = answer 1 0 bs.length (.data bs))) ∧
    (∀ bs, bs.length ≤ 1024 → bs.length % 8 = 0 → rangeXlate s tg .write va.toNat bs.length = (.inl pas, u) →
      Completes (ask (.write bs)) s fun t => t.dram = (chanWrite u (pas.zip bs)).dram ∧ t.podOut = answer 2 0 0 (.data [])) ∧
    (∀ n, n ≤ 1024 → n % 8 = 0 → rangeXlate s tg .read va.toNat n = (.inr .stale, u) →
      Completes (ask (.read n)) s fun t => SameBytes s t ∧ t.podOut = answer 1 10 0 .staleGen ∧
        t.records = u.records ++ [.error (supOf 0) 398 va.toNat])))) ∧
  (∀ (hdr : BitVec 128) (i : CtxNo) (e va : Nat) (tg : Tag) (pkg : BitVec 9) (as : List Nat) (more : Bool) (rest : List PodOut) (bs : List Byte)
    (d : Reg) (sx : Bool) (a n : Nat), let x := s.ctxAt i; let got := (bs.drop (a % 8)).take n
    takeAway s.coreId i pkg s.podOut = some (.access hdr s.coreId i e va tg pkg (.load as) more, rest) → s.core.killed = false →
    as = (List.range n).map (fun j => a + j) → 0 < n → a % 8 + n ≤ 8 → bs.length = 8 →
    s.core.cprun = none → (s.die (dieOf s.coreId)).incs.contains e = false → exitBar x = none →
    x.pending = some ⟨e, List.replicate n none, List.range n, [], .g d sx⟩ →
    Completes (.podRemoteAccess (.answer s.coreId i pkg (.data bs))) s fun t => t.podOut = rest ∧ (t.ctxAt i).pending = none ∧
      (t.ctxAt i).pc = (nextPc x).pc ∧ (d ≠ 0 → gcount (t.ctxAt i) d = 63 ∧ gval (t.ctxAt i) d =
        if sx then (BitVec.ofNat (8 * n) (leNat got)).signExtend 64 else BitVec.ofNat 64 (leNat got))))
end

