-- ==== Sys2Proof/Laws/Encode.lean ====
section
/-! SUPPORT. The fields of an encoded word, format by format: bits [lo+n-1:lo] of the word are the operand the
encoder put there (R34-R55). -/

set_option Elab.async false
namespace Sys2Proof

@[simp] theorem encRR_0_11 (op : BitVec 6) (d : BitVec 5) (a : BitVec 5) (b : BitVec 5) (fn : BitVec 11) :
    fld (encRR op d a b fn) 0 11 = fn := by
  unfold fld encRR; rw [BitVec.extractLsb'_cast]
  rw [BitVec.extractLsb'_append_eq_of_add_le (by decide)]
  exact BitVec.extractLsb'_eq_self

@[simp] theorem encRR_11_5 (op : BitVec 6) (d : BitVec 5) (a : BitVec 5) (b : BitVec 5) (fn : BitVec 11) :
    fld (encRR op d a b fn) 11 5 = b := by
  unfold fld encRR; rw [BitVec.extractLsb'_cast]
  rw [BitVec.extractLsb'_append_eq_of_le (by decide),
    BitVec.extractLsb'_append_eq_of_add_le (by decide)]
  exact BitVec.extractLsb'_eq_self

@[simp] theorem encRR_16_5 (op : BitVec 6) (d : BitVec 5) (a : BitVec 5) (b : BitVec 5) (fn : BitVec 11) :
    fld (encRR op d a b fn) 16 5 = a := by
  unfold fld encRR; rw [BitVec.extractLsb'_cast]
  rw [BitVec.extractLsb'_append_eq_of_le (by decide),
    BitVec.extractLsb'_append_eq_of_le (by decide),
    BitVec.extractLsb'_append_eq_of_add_le (by decide)]
  exact BitVec.extractLsb'_eq_self

@[simp] theorem encRR_21_5 (op : BitVec 6) (d : BitVec 5) (a : BitVec 5) (b : BitVec 5) (fn : BitVec 11) :
    fld (encRR op d a b fn) 21 5 = d := by
  unfold fld encRR; rw [BitVec.extractLsb'_cast]
  rw [BitVec.extractLsb'_append_eq_of_le (by decide),
    BitVec.extractLsb'_append_eq_of_le (by decide),
    BitVec.extractLsb'_append_eq_of_le (by decide),
    BitVec.extractLsb'_append_eq_of_add_le (by decide)]
  exact BitVec.extractLsb'_eq_self

@[simp] theorem encRR_26_6 (op : BitVec 6) (d : BitVec 5) (a : BitVec 5) (b : BitVec 5) (fn : BitVec 11) :
    fld (encRR op d a b fn) 26 6 = op := by
  unfold fld encRR; rw [BitVec.extractLsb'_cast]
  rw [BitVec.extractLsb'_append_eq_of_le (by decide),
    BitVec.extractLsb'_append_eq_of_le (by decide),
    BitVec.extractLsb'_append_eq_of_le (by decide),
    BitVec.extractLsb'_append_eq_of_le (by decide)]
  exact BitVec.extractLsb'_eq_self

@[simp] theorem encRI_0_16 (op : BitVec 6) (d : BitVec 5) (a : BitVec 5) (imm : BitVec 16) :
    fld (encRI op d a imm) 0 16 = imm := by
  unfold fld encRI; rw [BitVec.extractLsb'_cast]
  rw [BitVec.extractLsb'_append_eq_of_add_le (by decide)]
  exact BitVec.extractLsb'_eq_self

@[simp] theorem encRI_0_26 (op : BitVec 6) (d : BitVec 5) (a : BitVec 5) (imm : BitVec 16) :
    fld (encRI op d a imm) 0 26 = d ++ a ++ imm := by
  apply BitVec.eq_of_getLsbD_eq; intro i hi
  simp only [fld, encRI, BitVec.getLsbD_extractLsb', BitVec.getLsbD_cast, BitVec.getLsbD_append]
  simp only [hi, decide_true, Bool.true_and]
  repeat' split
  all_goals first | omega | rfl | (congr 1; omega)

@[simp] theorem encRI_16_5 (op : BitVec 6) (d : BitVec 5) (a : BitVec 5) (imm : BitVec 16) :
    fld (encRI op d a imm) 16 5 = a := by
  unfold fld encRI; rw [BitVec.extractLsb'_cast]
  rw [BitVec.extractLsb'_append_eq_of_le (by decide),
    BitVec.extractLsb'_append_eq_of_add_le (by decide)]
  exact BitVec.extractLsb'_eq_self

@[simp] theorem encRI_21_5 (op : BitVec 6) (d : BitVec 5) (a : BitVec 5) (imm : BitVec 16) :
    fld (encRI op d a imm) 21 5 = d := by
  unfold fld encRI; rw [BitVec.extractLsb'_cast]
  rw [BitVec.extractLsb'_append_eq_of_le (by decide),
    BitVec.extractLsb'_append_eq_of_le (by decide),
    BitVec.extractLsb'_append_eq_of_add_le (by decide)]
  exact BitVec.extractLsb'_eq_self

@[simp] theorem encRI_26_6 (op : BitVec 6) (d : BitVec 5) (a : BitVec 5) (imm : BitVec 16) :
    fld (encRI op d a imm) 26 6 = op := by
  unfold fld encRI; rw [BitVec.extractLsb'_cast]
  rw [BitVec.extractLsb'_append_eq_of_le (by decide),
    BitVec.extractLsb'_append_eq_of_le (by decide),
    BitVec.extractLsb'_append_eq_of_le (by decide)]
  exact BitVec.extractLsb'_eq_self

@[simp] theorem encJL_0_26 (op : BitVec 6) (x : BitVec 26) :
    fld (encJL op x) 0 26 = x := by
  unfold fld encJL; rw [BitVec.extractLsb'_cast]
  rw [BitVec.extractLsb'_append_eq_of_add_le (by decide)]
  exact BitVec.extractLsb'_eq_self

@[simp] theorem encJL_26_6 (op : BitVec 6) (x : BitVec 26) :
    fld (encJL op x) 26 6 = op := by
  unfold fld encJL; rw [BitVec.extractLsb'_cast]
  rw [BitVec.extractLsb'_append_eq_of_le (by decide)]
  exact BitVec.extractLsb'_eq_self

@[simp] theorem encBS_0_15 (op : BitVec 6) (a : BitVec 5) (t : BitVec 6) (x : BitVec 15) :
    fld (encBS op a t x) 0 15 = x := by
  unfold fld encBS; rw [BitVec.extractLsb'_cast]
  rw [BitVec.extractLsb'_append_eq_of_add_le (by decide)]
  exact BitVec.extractLsb'_eq_self

@[simp] theorem encBS_0_26 (op : BitVec 6) (a : BitVec 5) (t : BitVec 6) (x : BitVec 15) :
    fld (encBS op a t x) 0 26 = a ++ t ++ x := by
  apply BitVec.eq_of_getLsbD_eq; intro i hi
  simp only [fld, encBS, BitVec.getLsbD_extractLsb', BitVec.getLsbD_cast, BitVec.getLsbD_append]
  simp only [hi, decide_true, Bool.true_and]
  repeat' split
  all_goals first | omega | rfl | (congr 1; omega)

@[simp] theorem encBS_15_6 (op : BitVec 6) (a : BitVec 5) (t : BitVec 6) (x : BitVec 15) :
    fld (encBS op a t x) 15 6 = t := by
  unfold fld encBS; rw [BitVec.extractLsb'_cast]
  rw [BitVec.extractLsb'_append_eq_of_le (by decide),
    BitVec.extractLsb'_append_eq_of_add_le (by decide)]
  exact BitVec.extractLsb'_eq_self

@[simp] theorem encBS_21_5 (op : BitVec 6) (a : BitVec 5) (t : BitVec 6) (x : BitVec 15) :
    fld (encBS op a t x) 21 5 = a := by
  unfold fld encBS; rw [BitVec.extractLsb'_cast]
  rw [BitVec.extractLsb'_append_eq_of_le (by decide),
    BitVec.extractLsb'_append_eq_of_le (by decide),
    BitVec.extractLsb'_append_eq_of_add_le (by decide)]
  exact BitVec.extractLsb'_eq_self

@[simp] theorem encBS_26_6 (op : BitVec 6) (a : BitVec 5) (t : BitVec 6) (x : BitVec 15) :
    fld (encBS op a t x) 26 6 = op := by
  unfold fld encBS; rw [BitVec.extractLsb'_cast]
  rw [BitVec.extractLsb'_append_eq_of_le (by decide),
    BitVec.extractLsb'_append_eq_of_le (by decide),
    BitVec.extractLsb'_append_eq_of_le (by decide)]
  exact BitVec.extractLsb'_eq_self

@[simp] theorem encBM_0_18 (op : BitVec 6) (v : BitVec 5) (c : BitVec 3) (x : BitVec 18) :
    fld (encBM op v c x) 0 18 = x := by
  unfold fld encBM; rw [BitVec.extractLsb'_cast]
  rw [BitVec.extractLsb'_append_eq_of_add_le (by decide)]
  exact BitVec.extractLsb'_eq_self

@[simp] theorem encBM_18_3 (op : BitVec 6) (v : BitVec 5) (c : BitVec 3) (x : BitVec 18) :
    fld (encBM op v c x) 18 3 = c := by
  unfold fld encBM; rw [BitVec.extractLsb'_cast]
  rw [BitVec.extractLsb'_append_eq_of_le (by decide),
    BitVec.extractLsb'_append_eq_of_add_le (by decide)]
  exact BitVec.extractLsb'_eq_self

@[simp] theorem encBM_21_5 (op : BitVec 6) (v : BitVec 5) (c : BitVec 3) (x : BitVec 18) :
    fld (encBM op v c x) 21 5 = v := by
  unfold fld encBM; rw [BitVec.extractLsb'_cast]
  rw [BitVec.extractLsb'_append_eq_of_le (by decide),
    BitVec.extractLsb'_append_eq_of_le (by decide),
    BitVec.extractLsb'_append_eq_of_add_le (by decide)]
  exact BitVec.extractLsb'_eq_self

@[simp] theorem encBM_26_6 (op : BitVec 6) (v : BitVec 5) (c : BitVec 3) (x : BitVec 18) :
    fld (encBM op v c x) 26 6 = op := by
  unfold fld encBM; rw [BitVec.extractLsb'_cast]
  rw [BitVec.extractLsb'_append_eq_of_le (by decide),
    BitVec.extractLsb'_append_eq_of_le (by decide),
    BitVec.extractLsb'_append_eq_of_le (by decide)]
  exact BitVec.extractLsb'_eq_self

@[simp] theorem encShi_0_6 (op : BitVec 6) (d : BitVec 5) (a : BitVec 5) (z : BitVec 8) (k : BitVec 2) (n : BitVec 6) :
    fld (encShi op d a z k n) 0 6 = n := by
  unfold fld encShi; rw [BitVec.extractLsb'_cast]
  rw [BitVec.extractLsb'_append_eq_of_add_le (by decide)]
  exact BitVec.extractLsb'_eq_self

@[simp] theorem encShi_6_2 (op : BitVec 6) (d : BitVec 5) (a : BitVec 5) (z : BitVec 8) (k : BitVec 2) (n : BitVec 6) :
    fld (encShi op d a z k n) 6 2 = k := by
  unfold fld encShi; rw [BitVec.extractLsb'_cast]
  rw [BitVec.extractLsb'_append_eq_of_le (by decide),
    BitVec.extractLsb'_append_eq_of_add_le (by decide)]
  exact BitVec.extractLsb'_eq_self

@[simp] theorem encShi_8_8 (op : BitVec 6) (d : BitVec 5) (a : BitVec 5) (z : BitVec 8) (k : BitVec 2) (n : BitVec 6) :
    fld (encShi op d a z k n) 8 8 = z := by
  unfold fld encShi; rw [BitVec.extractLsb'_cast]
  rw [BitVec.extractLsb'_append_eq_of_le (by decide),
    BitVec.extractLsb'_append_eq_of_le (by decide),
    BitVec.extractLsb'_append_eq_of_add_le (by decide)]
  exact BitVec.extractLsb'_eq_self

@[simp] theorem encShi_16_5 (op : BitVec 6) (d : BitVec 5) (a : BitVec 5) (z : BitVec 8) (k : BitVec 2) (n : BitVec 6) :
    fld (encShi op d a z k n) 16 5 = a := by
  unfold fld encShi; rw [BitVec.extractLsb'_cast]
  rw [BitVec.extractLsb'_append_eq_of_le (by decide),
    BitVec.extractLsb'_append_eq_of_le (by decide),
    BitVec.extractLsb'_append_eq_of_le (by decide),
    BitVec.extractLsb'_append_eq_of_add_le (by decide)]
  exact BitVec.extractLsb'_eq_self

@[simp] theorem encShi_21_5 (op : BitVec 6) (d : BitVec 5) (a : BitVec 5) (z : BitVec 8) (k : BitVec 2) (n : BitVec 6) :
    fld (encShi op d a z k n) 21 5 = d := by
  unfold fld encShi; rw [BitVec.extractLsb'_cast]
  rw [BitVec.extractLsb'_append_eq_of_le (by decide),
    BitVec.extractLsb'_append_eq_of_le (by decide),
    BitVec.extractLsb'_append_eq_of_le (by decide),
    BitVec.extractLsb'_append_eq_of_le (by decide),
    BitVec.extractLsb'_append_eq_of_add_le (by decide)]
  exact BitVec.extractLsb'_eq_self

@[simp] theorem encShi_26_6 (op : BitVec 6) (d : BitVec 5) (a : BitVec 5) (z : BitVec 8) (k : BitVec 2) (n : BitVec 6) :
    fld (encShi op d a z k n) 26 6 = op := by
  unfold fld encShi; rw [BitVec.extractLsb'_cast]
  rw [BitVec.extractLsb'_append_eq_of_le (by decide),
    BitVec.extractLsb'_append_eq_of_le (by decide),
    BitVec.extractLsb'_append_eq_of_le (by decide),
    BitVec.extractLsb'_append_eq_of_le (by decide),
    BitVec.extractLsb'_append_eq_of_le (by decide)]
  exact BitVec.extractLsb'_eq_self

@[simp] theorem encLi_0_16 (op : BitVec 6) (d : BitVec 5) (k : BitVec 1) (z : BitVec 2) (q : BitVec 2) (imm : BitVec 16) :
    fld (encLi op d k z q imm) 0 16 = imm := by
  unfold fld encLi; rw [BitVec.extractLsb'_cast]
  rw [BitVec.extractLsb'_append_eq_of_add_le (by decide)]
  exact BitVec.extractLsb'_eq_self

@[simp] theorem encLi_16_2 (op : BitVec 6) (d : BitVec 5) (k : BitVec 1) (z : BitVec 2) (q : BitVec 2) (imm : BitVec 16) :
    fld (encLi op d k z q imm) 16 2 = q := by
  unfold fld encLi; rw [BitVec.extractLsb'_cast]
  rw [BitVec.extractLsb'_append_eq_of_le (by decide),
    BitVec.extractLsb'_append_eq_of_add_le (by decide)]
  exact BitVec.extractLsb'_eq_self

@[simp] theorem encLi_18_2 (op : BitVec 6) (d : BitVec 5) (k : BitVec 1) (z : BitVec 2) (q : BitVec 2) (imm : BitVec 16) :
    fld (encLi op d k z q imm) 18 2 = z := by
  unfold fld encLi; rw [BitVec.extractLsb'_cast]
  rw [BitVec.extractLsb'_append_eq_of_le (by decide),
    BitVec.extractLsb'_append_eq_of_le (by decide),
    BitVec.extractLsb'_append_eq_of_add_le (by decide)]
  exact BitVec.extractLsb'_eq_self

@[simp] theorem encLi_20_1 (op : BitVec 6) (d : BitVec 5) (k : BitVec 1) (z : BitVec 2) (q : BitVec 2) (imm : BitVec 16) :
    fld (encLi op d k z q imm) 20 1 = k := by
  unfold fld encLi; rw [BitVec.extractLsb'_cast]
  rw [BitVec.extractLsb'_append_eq_of_le (by decide),
    BitVec.extractLsb'_append_eq_of_le (by decide),
    BitVec.extractLsb'_append_eq_of_le (by decide),
    BitVec.extractLsb'_append_eq_of_add_le (by decide)]
  exact BitVec.extractLsb'_eq_self

@[simp] theorem encLi_21_5 (op : BitVec 6) (d : BitVec 5) (k : BitVec 1) (z : BitVec 2) (q : BitVec 2) (imm : BitVec 16) :
    fld (encLi op d k z q imm) 21 5 = d := by
  unfold fld encLi; rw [BitVec.extractLsb'_cast]
  rw [BitVec.extractLsb'_append_eq_of_le (by decide),
    BitVec.extractLsb'_append_eq_of_le (by decide),
    BitVec.extractLsb'_append_eq_of_le (by decide),
    BitVec.extractLsb'_append_eq_of_le (by decide),
    BitVec.extractLsb'_append_eq_of_add_le (by decide)]
  exact BitVec.extractLsb'_eq_self

@[simp] theorem encLi_26_6 (op : BitVec 6) (d : BitVec 5) (k : BitVec 1) (z : BitVec 2) (q : BitVec 2) (imm : BitVec 16) :
    fld (encLi op d k z q imm) 26 6 = op := by
  unfold fld encLi; rw [BitVec.extractLsb'_cast]
  rw [BitVec.extractLsb'_append_eq_of_le (by decide),
    BitVec.extractLsb'_append_eq_of_le (by decide),
    BitVec.extractLsb'_append_eq_of_le (by decide),
    BitVec.extractLsb'_append_eq_of_le (by decide),
    BitVec.extractLsb'_append_eq_of_le (by decide)]
  exact BitVec.extractLsb'_eq_self

@[simp] theorem encFP_0_2 (op : BitVec 6) (d : BitVec 5) (a : BitVec 5) (b : BitVec 5) (fn : BitVec 5) (p : BitVec 1) (r : BitVec 3) (z : BitVec 2) :
    fld (encFP op d a b fn p r z) 0 2 = z := by
  unfold fld encFP; rw [BitVec.extractLsb'_cast]
  rw [BitVec.extractLsb'_append_eq_of_add_le (by decide)]
  exact BitVec.extractLsb'_eq_self

@[simp] theorem encFP_2_3 (op : BitVec 6) (d : BitVec 5) (a : BitVec 5) (b : BitVec 5) (fn : BitVec 5) (p : BitVec 1) (r : BitVec 3) (z : BitVec 2) :
    fld (encFP op d a b fn p r z) 2 3 = r := by
  unfold fld encFP; rw [BitVec.extractLsb'_cast]
  rw [BitVec.extractLsb'_append_eq_of_le (by decide),
    BitVec.extractLsb'_append_eq_of_add_le (by decide)]
  exact BitVec.extractLsb'_eq_self

@[simp] theorem encFP_5_1 (op : BitVec 6) (d : BitVec 5) (a : BitVec 5) (b : BitVec 5) (fn : BitVec 5) (p : BitVec 1) (r : BitVec 3) (z : BitVec 2) :
    fld (encFP op d a b fn p r z) 5 1 = p := by
  unfold fld encFP; rw [BitVec.extractLsb'_cast]
  rw [BitVec.extractLsb'_append_eq_of_le (by decide),
    BitVec.extractLsb'_append_eq_of_le (by decide),
    BitVec.extractLsb'_append_eq_of_add_le (by decide)]
  exact BitVec.extractLsb'_eq_self

@[simp] theorem encFP_6_5 (op : BitVec 6) (d : BitVec 5) (a : BitVec 5) (b : BitVec 5) (fn : BitVec 5) (p : BitVec 1) (r : BitVec 3) (z : BitVec 2) :
    fld (encFP op d a b fn p r z) 6 5 = fn := by
  unfold fld encFP; rw [BitVec.extractLsb'_cast]
  rw [BitVec.extractLsb'_append_eq_of_le (by decide),
    BitVec.extractLsb'_append_eq_of_le (by decide),
    BitVec.extractLsb'_append_eq_of_le (by decide),
    BitVec.extractLsb'_append_eq_of_add_le (by decide)]
  exact BitVec.extractLsb'_eq_self

@[simp] theorem encFP_11_5 (op : BitVec 6) (d : BitVec 5) (a : BitVec 5) (b : BitVec 5) (fn : BitVec 5) (p : BitVec 1) (r : BitVec 3) (z : BitVec 2) :
    fld (encFP op d a b fn p r z) 11 5 = b := by
  unfold fld encFP; rw [BitVec.extractLsb'_cast]
  rw [BitVec.extractLsb'_append_eq_of_le (by decide),
    BitVec.extractLsb'_append_eq_of_le (by decide),
    BitVec.extractLsb'_append_eq_of_le (by decide),
    BitVec.extractLsb'_append_eq_of_le (by decide),
    BitVec.extractLsb'_append_eq_of_add_le (by decide)]
  exact BitVec.extractLsb'_eq_self

@[simp] theorem encFP_16_5 (op : BitVec 6) (d : BitVec 5) (a : BitVec 5) (b : BitVec 5) (fn : BitVec 5) (p : BitVec 1) (r : BitVec 3) (z : BitVec 2) :
    fld (encFP op d a b fn p r z) 16 5 = a := by
  unfold fld encFP; rw [BitVec.extractLsb'_cast]
  rw [BitVec.extractLsb'_append_eq_of_le (by decide),
    BitVec.extractLsb'_append_eq_of_le (by decide),
    BitVec.extractLsb'_append_eq_of_le (by decide),
    BitVec.extractLsb'_append_eq_of_le (by decide),
    BitVec.extractLsb'_append_eq_of_le (by decide),
    BitVec.extractLsb'_append_eq_of_add_le (by decide)]
  exact BitVec.extractLsb'_eq_self

@[simp] theorem encFP_21_5 (op : BitVec 6) (d : BitVec 5) (a : BitVec 5) (b : BitVec 5) (fn : BitVec 5) (p : BitVec 1) (r : BitVec 3) (z : BitVec 2) :
    fld (encFP op d a b fn p r z) 21 5 = d := by
  unfold fld encFP; rw [BitVec.extractLsb'_cast]
  rw [BitVec.extractLsb'_append_eq_of_le (by decide),
    BitVec.extractLsb'_append_eq_of_le (by decide),
    BitVec.extractLsb'_append_eq_of_le (by decide),
    BitVec.extractLsb'_append_eq_of_le (by decide),
    BitVec.extractLsb'_append_eq_of_le (by decide),
    BitVec.extractLsb'_append_eq_of_le (by decide),
    BitVec.extractLsb'_append_eq_of_add_le (by decide)]
  exact BitVec.extractLsb'_eq_self

@[simp] theorem encFP_26_6 (op : BitVec 6) (d : BitVec 5) (a : BitVec 5) (b : BitVec 5) (fn : BitVec 5) (p : BitVec 1) (r : BitVec 3) (z : BitVec 2) :
    fld (encFP op d a b fn p r z) 26 6 = op := by
  unfold fld encFP; rw [BitVec.extractLsb'_cast]
  rw [BitVec.extractLsb'_append_eq_of_le (by decide),
    BitVec.extractLsb'_append_eq_of_le (by decide),
    BitVec.extractLsb'_append_eq_of_le (by decide),
    BitVec.extractLsb'_append_eq_of_le (by decide),
    BitVec.extractLsb'_append_eq_of_le (by decide),
    BitVec.extractLsb'_append_eq_of_le (by decide),
    BitVec.extractLsb'_append_eq_of_le (by decide)]
  exact BitVec.extractLsb'_eq_self

@[simp] theorem encFM_0_11 (op : BitVec 6) (d : BitVec 5) (n : BitVec 2) (fn : BitVec 3) (z : BitVec 5) (s : BitVec 11) :
    fld (encFM op d n fn z s) 0 11 = s := by
  unfold fld encFM; rw [BitVec.extractLsb'_cast]
  rw [BitVec.extractLsb'_append_eq_of_add_le (by decide)]
  exact BitVec.extractLsb'_eq_self

@[simp] theorem encFM_0_16 (op : BitVec 6) (d : BitVec 5) (n : BitVec 2) (fn : BitVec 3) (z : BitVec 5) (s : BitVec 11) :
    fld (encFM op d n fn z s) 0 16 = z ++ s := by
  apply BitVec.eq_of_getLsbD_eq; intro i hi
  simp only [fld, encFM, BitVec.getLsbD_extractLsb', BitVec.getLsbD_cast, BitVec.getLsbD_append]
  simp only [hi, decide_true, Bool.true_and]
  repeat' split
  all_goals first | omega | rfl | (congr 1; omega)

@[simp] theorem encFM_11_5 (op : BitVec 6) (d : BitVec 5) (n : BitVec 2) (fn : BitVec 3) (z : BitVec 5) (s : BitVec 11) :
    fld (encFM op d n fn z s) 11 5 = z := by
  unfold fld encFM; rw [BitVec.extractLsb'_cast]
  rw [BitVec.extractLsb'_append_eq_of_le (by decide),
    BitVec.extractLsb'_append_eq_of_add_le (by decide)]
  exact BitVec.extractLsb'_eq_self

@[simp] theorem encFM_16_3 (op : BitVec 6) (d : BitVec 5) (n : BitVec 2) (fn : BitVec 3) (z : BitVec 5) (s : BitVec 11) :
    fld (encFM op d n fn z s) 16 3 = fn := by
  unfold fld encFM; rw [BitVec.extractLsb'_cast]
  rw [BitVec.extractLsb'_append_eq_of_le (by decide),
    BitVec.extractLsb'_append_eq_of_le (by decide),
    BitVec.extractLsb'_append_eq_of_add_le (by decide)]
  exact BitVec.extractLsb'_eq_self

@[simp] theorem encFM_19_2 (op : BitVec 6) (d : BitVec 5) (n : BitVec 2) (fn : BitVec 3) (z : BitVec 5) (s : BitVec 11) :
    fld (encFM op d n fn z s) 19 2 = n := by
  unfold fld encFM; rw [BitVec.extractLsb'_cast]
  rw [BitVec.extractLsb'_append_eq_of_le (by decide),
    BitVec.extractLsb'_append_eq_of_le (by decide),
    BitVec.extractLsb'_append_eq_of_le (by decide),
    BitVec.extractLsb'_append_eq_of_add_le (by decide)]
  exact BitVec.extractLsb'_eq_self

@[simp] theorem encFM_21_5 (op : BitVec 6) (d : BitVec 5) (n : BitVec 2) (fn : BitVec 3) (z : BitVec 5) (s : BitVec 11) :
    fld (encFM op d n fn z s) 21 5 = d := by
  unfold fld encFM; rw [BitVec.extractLsb'_cast]
  rw [BitVec.extractLsb'_append_eq_of_le (by decide),
    BitVec.extractLsb'_append_eq_of_le (by decide),
    BitVec.extractLsb'_append_eq_of_le (by decide),
    BitVec.extractLsb'_append_eq_of_le (by decide),
    BitVec.extractLsb'_append_eq_of_add_le (by decide)]
  exact BitVec.extractLsb'_eq_self

@[simp] theorem encFM_26_6 (op : BitVec 6) (d : BitVec 5) (n : BitVec 2) (fn : BitVec 3) (z : BitVec 5) (s : BitVec 11) :
    fld (encFM op d n fn z s) 26 6 = op := by
  unfold fld encFM; rw [BitVec.extractLsb'_cast]
  rw [BitVec.extractLsb'_append_eq_of_le (by decide),
    BitVec.extractLsb'_append_eq_of_le (by decide),
    BitVec.extractLsb'_append_eq_of_le (by decide),
    BitVec.extractLsb'_append_eq_of_le (by decide),
    BitVec.extractLsb'_append_eq_of_le (by decide)]
  exact BitVec.extractLsb'_eq_self

@[simp] theorem encFP4_0_3 (op : BitVec 6) (d : BitVec 5) (a : BitVec 5) (b : BitVec 5) (c : BitVec 5) (neg : BitVec 2) (p : BitVec 1) (r : BitVec 3) :
    fld (encFP4 op d a b c neg p r) 0 3 = r := by
  unfold fld encFP4; rw [BitVec.extractLsb'_cast]
  rw [BitVec.extractLsb'_append_eq_of_add_le (by decide)]
  exact BitVec.extractLsb'_eq_self

@[simp] theorem encFP4_3_1 (op : BitVec 6) (d : BitVec 5) (a : BitVec 5) (b : BitVec 5) (c : BitVec 5) (neg : BitVec 2) (p : BitVec 1) (r : BitVec 3) :
    fld (encFP4 op d a b c neg p r) 3 1 = p := by
  unfold fld encFP4; rw [BitVec.extractLsb'_cast]
  rw [BitVec.extractLsb'_append_eq_of_le (by decide),
    BitVec.extractLsb'_append_eq_of_add_le (by decide)]
  exact BitVec.extractLsb'_eq_self

@[simp] theorem encFP4_4_2 (op : BitVec 6) (d : BitVec 5) (a : BitVec 5) (b : BitVec 5) (c : BitVec 5) (neg : BitVec 2) (p : BitVec 1) (r : BitVec 3) :
    fld (encFP4 op d a b c neg p r) 4 2 = neg := by
  unfold fld encFP4; rw [BitVec.extractLsb'_cast]
  rw [BitVec.extractLsb'_append_eq_of_le (by decide),
    BitVec.extractLsb'_append_eq_of_le (by decide),
    BitVec.extractLsb'_append_eq_of_add_le (by decide)]
  exact BitVec.extractLsb'_eq_self

@[simp] theorem encFP4_6_5 (op : BitVec 6) (d : BitVec 5) (a : BitVec 5) (b : BitVec 5) (c : BitVec 5) (neg : BitVec 2) (p : BitVec 1) (r : BitVec 3) :
    fld (encFP4 op d a b c neg p r) 6 5 = c := by
  unfold fld encFP4; rw [BitVec.extractLsb'_cast]
  rw [BitVec.extractLsb'_append_eq_of_le (by decide),
    BitVec.extractLsb'_append_eq_of_le (by decide),
    BitVec.extractLsb'_append_eq_of_le (by decide),
    BitVec.extractLsb'_append_eq_of_add_le (by decide)]
  exact BitVec.extractLsb'_eq_self

@[simp] theorem encFP4_11_5 (op : BitVec 6) (d : BitVec 5) (a : BitVec 5) (b : BitVec 5) (c : BitVec 5) (neg : BitVec 2) (p : BitVec 1) (r : BitVec 3) :
    fld (encFP4 op d a b c neg p r) 11 5 = b := by
  unfold fld encFP4; rw [BitVec.extractLsb'_cast]
  rw [BitVec.extractLsb'_append_eq_of_le (by decide),
    BitVec.extractLsb'_append_eq_of_le (by decide),
    BitVec.extractLsb'_append_eq_of_le (by decide),
    BitVec.extractLsb'_append_eq_of_le (by decide),
    BitVec.extractLsb'_append_eq_of_add_le (by decide)]
  exact BitVec.extractLsb'_eq_self

@[simp] theorem encFP4_16_5 (op : BitVec 6) (d : BitVec 5) (a : BitVec 5) (b : BitVec 5) (c : BitVec 5) (neg : BitVec 2) (p : BitVec 1) (r : BitVec 3) :
    fld (encFP4 op d a b c neg p r) 16 5 = a := by
  unfold fld encFP4; rw [BitVec.extractLsb'_cast]
  rw [BitVec.extractLsb'_append_eq_of_le (by decide),
    BitVec.extractLsb'_append_eq_of_le (by decide),
    BitVec.extractLsb'_append_eq_of_le (by decide),
    BitVec.extractLsb'_append_eq_of_le (by decide),
    BitVec.extractLsb'_append_eq_of_le (by decide),
    BitVec.extractLsb'_append_eq_of_add_le (by decide)]
  exact BitVec.extractLsb'_eq_self

@[simp] theorem encFP4_21_5 (op : BitVec 6) (d : BitVec 5) (a : BitVec 5) (b : BitVec 5) (c : BitVec 5) (neg : BitVec 2) (p : BitVec 1) (r : BitVec 3) :
    fld (encFP4 op d a b c neg p r) 21 5 = d := by
  unfold fld encFP4; rw [BitVec.extractLsb'_cast]
  rw [BitVec.extractLsb'_append_eq_of_le (by decide),
    BitVec.extractLsb'_append_eq_of_le (by decide),
    BitVec.extractLsb'_append_eq_of_le (by decide),
    BitVec.extractLsb'_append_eq_of_le (by decide),
    BitVec.extractLsb'_append_eq_of_le (by decide),
    BitVec.extractLsb'_append_eq_of_le (by decide),
    BitVec.extractLsb'_append_eq_of_add_le (by decide)]
  exact BitVec.extractLsb'_eq_self

@[simp] theorem encFP4_26_6 (op : BitVec 6) (d : BitVec 5) (a : BitVec 5) (b : BitVec 5) (c : BitVec 5) (neg : BitVec 2) (p : BitVec 1) (r : BitVec 3) :
    fld (encFP4 op d a b c neg p r) 26 6 = op := by
  unfold fld encFP4; rw [BitVec.extractLsb'_cast]
  rw [BitVec.extractLsb'_append_eq_of_le (by decide),
    BitVec.extractLsb'_append_eq_of_le (by decide),
    BitVec.extractLsb'_append_eq_of_le (by decide),
    BitVec.extractLsb'_append_eq_of_le (by decide),
    BitVec.extractLsb'_append_eq_of_le (by decide),
    BitVec.extractLsb'_append_eq_of_le (by decide),
    BitVec.extractLsb'_append_eq_of_le (by decide)]
  exact BitVec.extractLsb'_eq_self

@[simp] theorem encVV_0_4 (op : BitVec 6) (d : BitVec 5) (a : BitVec 5) (b : BitVec 5) (s : BitVec 1) (m : BitVec 2) (u : BitVec 1) (t : BitVec 3) (fn : BitVec 4) :
    fld (encVV op d a b s m u t fn) 0 4 = fn := by
  unfold fld encVV; rw [BitVec.extractLsb'_cast]
  rw [BitVec.extractLsb'_append_eq_of_add_le (by decide)]
  exact BitVec.extractLsb'_eq_self

@[simp] theorem encVV_4_3 (op : BitVec 6) (d : BitVec 5) (a : BitVec 5) (b : BitVec 5) (s : BitVec 1) (m : BitVec 2) (u : BitVec 1) (t : BitVec 3) (fn : BitVec 4) :
    fld (encVV op d a b s m u t fn) 4 3 = t := by
  unfold fld encVV; rw [BitVec.extractLsb'_cast]
  rw [BitVec.extractLsb'_append_eq_of_le (by decide),
    BitVec.extractLsb'_append_eq_of_add_le (by decide)]
  exact BitVec.extractLsb'_eq_self

@[simp] theorem encVV_7_1 (op : BitVec 6) (d : BitVec 5) (a : BitVec 5) (b : BitVec 5) (s : BitVec 1) (m : BitVec 2) (u : BitVec 1) (t : BitVec 3) (fn : BitVec 4) :
    fld (encVV op d a b s m u t fn) 7 1 = u := by
  unfold fld encVV; rw [BitVec.extractLsb'_cast]
  rw [BitVec.extractLsb'_append_eq_of_le (by decide),
    BitVec.extractLsb'_append_eq_of_le (by decide),
    BitVec.extractLsb'_append_eq_of_add_le (by decide)]
  exact BitVec.extractLsb'_eq_self

@[simp] theorem encVV_7_3 (op : BitVec 6) (d : BitVec 5) (a : BitVec 5) (b : BitVec 5) (s : BitVec 1) (m : BitVec 2) (u : BitVec 1) (t : BitVec 3) (fn : BitVec 4) :
    fld (encVV op d a b s m u t fn) 7 3 = m ++ u := by
  apply BitVec.eq_of_getLsbD_eq; intro i hi
  simp only [fld, encVV, BitVec.getLsbD_extractLsb', BitVec.getLsbD_cast, BitVec.getLsbD_append]
  simp only [hi, decide_true, Bool.true_and]
  repeat' split
  all_goals first | omega | rfl | (congr 1; omega)

@[simp] theorem encVV_8_2 (op : BitVec 6) (d : BitVec 5) (a : BitVec 5) (b : BitVec 5) (s : BitVec 1) (m : BitVec 2) (u : BitVec 1) (t : BitVec 3) (fn : BitVec 4) :
    fld (encVV op d a b s m u t fn) 8 2 = m := by
  unfold fld encVV; rw [BitVec.extractLsb'_cast]
  rw [BitVec.extractLsb'_append_eq_of_le (by decide),
    BitVec.extractLsb'_append_eq_of_le (by decide),
    BitVec.extractLsb'_append_eq_of_le (by decide),
    BitVec.extractLsb'_append_eq_of_add_le (by decide)]
  exact BitVec.extractLsb'_eq_self

@[simp] theorem encVV_10_1 (op : BitVec 6) (d : BitVec 5) (a : BitVec 5) (b : BitVec 5) (s : BitVec 1) (m : BitVec 2) (u : BitVec 1) (t : BitVec 3) (fn : BitVec 4) :
    fld (encVV op d a b s m u t fn) 10 1 = s := by
  unfold fld encVV; rw [BitVec.extractLsb'_cast]
  rw [BitVec.extractLsb'_append_eq_of_le (by decide),
    BitVec.extractLsb'_append_eq_of_le (by decide),
    BitVec.extractLsb'_append_eq_of_le (by decide),
    BitVec.extractLsb'_append_eq_of_le (by decide),
    BitVec.extractLsb'_append_eq_of_add_le (by decide)]
  exact BitVec.extractLsb'_eq_self

@[simp] theorem encVV_10_6 (op : BitVec 6) (d : BitVec 5) (a : BitVec 5) (b : BitVec 5) (s : BitVec 1) (m : BitVec 2) (u : BitVec 1) (t : BitVec 3) (fn : BitVec 4) :
    fld (encVV op d a b s m u t fn) 10 6 = b ++ s := by
  apply BitVec.eq_of_getLsbD_eq; intro i hi
  simp only [fld, encVV, BitVec.getLsbD_extractLsb', BitVec.getLsbD_cast, BitVec.getLsbD_append]
  simp only [hi, decide_true, Bool.true_and]
  repeat' split
  all_goals first | omega | rfl | (congr 1; omega)

@[simp] theorem encVV_11_5 (op : BitVec 6) (d : BitVec 5) (a : BitVec 5) (b : BitVec 5) (s : BitVec 1) (m : BitVec 2) (u : BitVec 1) (t : BitVec 3) (fn : BitVec 4) :
    fld (encVV op d a b s m u t fn) 11 5 = b := by
  unfold fld encVV; rw [BitVec.extractLsb'_cast]
  rw [BitVec.extractLsb'_append_eq_of_le (by decide),
    BitVec.extractLsb'_append_eq_of_le (by decide),
    BitVec.extractLsb'_append_eq_of_le (by decide),
    BitVec.extractLsb'_append_eq_of_le (by decide),
    BitVec.extractLsb'_append_eq_of_le (by decide),
    BitVec.extractLsb'_append_eq_of_add_le (by decide)]
  exact BitVec.extractLsb'_eq_self

@[simp] theorem encVV_16_5 (op : BitVec 6) (d : BitVec 5) (a : BitVec 5) (b : BitVec 5) (s : BitVec 1) (m : BitVec 2) (u : BitVec 1) (t : BitVec 3) (fn : BitVec 4) :
    fld (encVV op d a b s m u t fn) 16 5 = a := by
  unfold fld encVV; rw [BitVec.extractLsb'_cast]
  rw [BitVec.extractLsb'_append_eq_of_le (by decide),
    BitVec.extractLsb'_append_eq_of_le (by decide),
    BitVec.extractLsb'_append_eq_of_le (by decide),
    BitVec.extractLsb'_append_eq_of_le (by decide),
    BitVec.extractLsb'_append_eq_of_le (by decide),
    BitVec.extractLsb'_append_eq_of_le (by decide),
    BitVec.extractLsb'_append_eq_of_add_le (by decide)]
  exact BitVec.extractLsb'_eq_self

@[simp] theorem encVV_21_5 (op : BitVec 6) (d : BitVec 5) (a : BitVec 5) (b : BitVec 5) (s : BitVec 1) (m : BitVec 2) (u : BitVec 1) (t : BitVec 3) (fn : BitVec 4) :
    fld (encVV op d a b s m u t fn) 21 5 = d := by
  unfold fld encVV; rw [BitVec.extractLsb'_cast]
  rw [BitVec.extractLsb'_append_eq_of_le (by decide),
    BitVec.extractLsb'_append_eq_of_le (by decide),
    BitVec.extractLsb'_append_eq_of_le (by decide),
    BitVec.extractLsb'_append_eq_of_le (by decide),
    BitVec.extractLsb'_append_eq_of_le (by decide),
    BitVec.extractLsb'_append_eq_of_le (by decide),
    BitVec.extractLsb'_append_eq_of_le (by decide),
    BitVec.extractLsb'_append_eq_of_add_le (by decide)]
  exact BitVec.extractLsb'_eq_self

@[simp] theorem encVV_26_6 (op : BitVec 6) (d : BitVec 5) (a : BitVec 5) (b : BitVec 5) (s : BitVec 1) (m : BitVec 2) (u : BitVec 1) (t : BitVec 3) (fn : BitVec 4) :
    fld (encVV op d a b s m u t fn) 26 6 = op := by
  unfold fld encVV; rw [BitVec.extractLsb'_cast]
  rw [BitVec.extractLsb'_append_eq_of_le (by decide),
    BitVec.extractLsb'_append_eq_of_le (by decide),
    BitVec.extractLsb'_append_eq_of_le (by decide),
    BitVec.extractLsb'_append_eq_of_le (by decide),
    BitVec.extractLsb'_append_eq_of_le (by decide),
    BitVec.extractLsb'_append_eq_of_le (by decide),
    BitVec.extractLsb'_append_eq_of_le (by decide),
    BitVec.extractLsb'_append_eq_of_le (by decide)]
  exact BitVec.extractLsb'_eq_self

@[simp] theorem encXA_0_2 (op : BitVec 6) (d : BitVec 5) (a : BitVec 5) (b : BitVec 5) (fn : BitVec 4) (s : BitVec 3) (o : BitVec 2) (z : BitVec 2) :
    fld (encXA op d a b fn s o z) 0 2 = z := by
  unfold fld encXA; rw [BitVec.extractLsb'_cast]
  rw [BitVec.extractLsb'_append_eq_of_add_le (by decide)]
  exact BitVec.extractLsb'_eq_self

@[simp] theorem encXA_2_2 (op : BitVec 6) (d : BitVec 5) (a : BitVec 5) (b : BitVec 5) (fn : BitVec 4) (s : BitVec 3) (o : BitVec 2) (z : BitVec 2) :
    fld (encXA op d a b fn s o z) 2 2 = o := by
  unfold fld encXA; rw [BitVec.extractLsb'_cast]
  rw [BitVec.extractLsb'_append_eq_of_le (by decide),
    BitVec.extractLsb'_append_eq_of_add_le (by decide)]
  exact BitVec.extractLsb'_eq_self

@[simp] theorem encXA_4_3 (op : BitVec 6) (d : BitVec 5) (a : BitVec 5) (b : BitVec 5) (fn : BitVec 4) (s : BitVec 3) (o : BitVec 2) (z : BitVec 2) :
    fld (encXA op d a b fn s o z) 4 3 = s := by
  unfold fld encXA; rw [BitVec.extractLsb'_cast]
  rw [BitVec.extractLsb'_append_eq_of_le (by decide),
    BitVec.extractLsb'_append_eq_of_le (by decide),
    BitVec.extractLsb'_append_eq_of_add_le (by decide)]
  exact BitVec.extractLsb'_eq_self

@[simp] theorem encXA_7_4 (op : BitVec 6) (d : BitVec 5) (a : BitVec 5) (b : BitVec 5) (fn : BitVec 4) (s : BitVec 3) (o : BitVec 2) (z : BitVec 2) :
    fld (encXA op d a b fn s o z) 7 4 = fn := by
  unfold fld encXA; rw [BitVec.extractLsb'_cast]
  rw [BitVec.extractLsb'_append_eq_of_le (by decide),
    BitVec.extractLsb'_append_eq_of_le (by decide),
    BitVec.extractLsb'_append_eq_of_le (by decide),
    BitVec.extractLsb'_append_eq_of_add_le (by decide)]
  exact BitVec.extractLsb'_eq_self

@[simp] theorem encXA_11_5 (op : BitVec 6) (d : BitVec 5) (a : BitVec 5) (b : BitVec 5) (fn : BitVec 4) (s : BitVec 3) (o : BitVec 2) (z : BitVec 2) :
    fld (encXA op d a b fn s o z) 11 5 = b := by
  unfold fld encXA; rw [BitVec.extractLsb'_cast]
  rw [BitVec.extractLsb'_append_eq_of_le (by decide),
    BitVec.extractLsb'_append_eq_of_le (by decide),
    BitVec.extractLsb'_append_eq_of_le (by decide),
    BitVec.extractLsb'_append_eq_of_le (by decide),
    BitVec.extractLsb'_append_eq_of_add_le (by decide)]
  exact BitVec.extractLsb'_eq_self

@[simp] theorem encXA_16_5 (op : BitVec 6) (d : BitVec 5) (a : BitVec 5) (b : BitVec 5) (fn : BitVec 4) (s : BitVec 3) (o : BitVec 2) (z : BitVec 2) :
    fld (encXA op d a b fn s o z) 16 5 = a := by
  unfold fld encXA; rw [BitVec.extractLsb'_cast]
  rw [BitVec.extractLsb'_append_eq_of_le (by decide),
    BitVec.extractLsb'_append_eq_of_le (by decide),
    BitVec.extractLsb'_append_eq_of_le (by decide),
    BitVec.extractLsb'_append_eq_of_le (by decide),
    BitVec.extractLsb'_append_eq_of_le (by decide),
    BitVec.extractLsb'_append_eq_of_add_le (by decide)]
  exact BitVec.extractLsb'_eq_self

@[simp] theorem encXA_21_5 (op : BitVec 6) (d : BitVec 5) (a : BitVec 5) (b : BitVec 5) (fn : BitVec 4) (s : BitVec 3) (o : BitVec 2) (z : BitVec 2) :
    fld (encXA op d a b fn s o z) 21 5 = d := by
  unfold fld encXA; rw [BitVec.extractLsb'_cast]
  rw [BitVec.extractLsb'_append_eq_of_le (by decide),
    BitVec.extractLsb'_append_eq_of_le (by decide),
    BitVec.extractLsb'_append_eq_of_le (by decide),
    BitVec.extractLsb'_append_eq_of_le (by decide),
    BitVec.extractLsb'_append_eq_of_le (by decide),
    BitVec.extractLsb'_append_eq_of_le (by decide),
    BitVec.extractLsb'_append_eq_of_add_le (by decide)]
  exact BitVec.extractLsb'_eq_self

@[simp] theorem encXA_26_6 (op : BitVec 6) (d : BitVec 5) (a : BitVec 5) (b : BitVec 5) (fn : BitVec 4) (s : BitVec 3) (o : BitVec 2) (z : BitVec 2) :
    fld (encXA op d a b fn s o z) 26 6 = op := by
  unfold fld encXA; rw [BitVec.extractLsb'_cast]
  rw [BitVec.extractLsb'_append_eq_of_le (by decide),
    BitVec.extractLsb'_append_eq_of_le (by decide),
    BitVec.extractLsb'_append_eq_of_le (by decide),
    BitVec.extractLsb'_append_eq_of_le (by decide),
    BitVec.extractLsb'_append_eq_of_le (by decide),
    BitVec.extractLsb'_append_eq_of_le (by decide),
    BitVec.extractLsb'_append_eq_of_le (by decide)]
  exact BitVec.extractLsb'_eq_self

@[simp] theorem encXT_0_14 (op : BitVec 6) (d : BitVec 5) (a : BitVec 5) (fn : BitVec 2) (imm : BitVec 14) :
    fld (encXT op d a fn imm) 0 14 = imm := by
  unfold fld encXT; rw [BitVec.extractLsb'_cast]
  rw [BitVec.extractLsb'_append_eq_of_add_le (by decide)]
  exact BitVec.extractLsb'_eq_self

@[simp] theorem encXT_14_2 (op : BitVec 6) (d : BitVec 5) (a : BitVec 5) (fn : BitVec 2) (imm : BitVec 14) :
    fld (encXT op d a fn imm) 14 2 = fn := by
  unfold fld encXT; rw [BitVec.extractLsb'_cast]
  rw [BitVec.extractLsb'_append_eq_of_le (by decide),
    BitVec.extractLsb'_append_eq_of_add_le (by decide)]
  exact BitVec.extractLsb'_eq_self

@[simp] theorem encXT_16_5 (op : BitVec 6) (d : BitVec 5) (a : BitVec 5) (fn : BitVec 2) (imm : BitVec 14) :
    fld (encXT op d a fn imm) 16 5 = a := by
  unfold fld encXT; rw [BitVec.extractLsb'_cast]
  rw [BitVec.extractLsb'_append_eq_of_le (by decide),
    BitVec.extractLsb'_append_eq_of_le (by decide),
    BitVec.extractLsb'_append_eq_of_add_le (by decide)]
  exact BitVec.extractLsb'_eq_self

@[simp] theorem encXT_16_10 (op : BitVec 6) (d : BitVec 5) (a : BitVec 5) (fn : BitVec 2) (imm : BitVec 14) :
    fld (encXT op d a fn imm) 16 10 = d ++ a := by
  apply BitVec.eq_of_getLsbD_eq; intro i hi
  simp only [fld, encXT, BitVec.getLsbD_extractLsb', BitVec.getLsbD_cast, BitVec.getLsbD_append]
  simp only [hi, decide_true, Bool.true_and]
  repeat' split
  all_goals first | omega | rfl | (congr 1; omega)

@[simp] theorem encXT_21_5 (op : BitVec 6) (d : BitVec 5) (a : BitVec 5) (fn : BitVec 2) (imm : BitVec 14) :
    fld (encXT op d a fn imm) 21 5 = d := by
  unfold fld encXT; rw [BitVec.extractLsb'_cast]
  rw [BitVec.extractLsb'_append_eq_of_le (by decide),
    BitVec.extractLsb'_append_eq_of_le (by decide),
    BitVec.extractLsb'_append_eq_of_le (by decide),
    BitVec.extractLsb'_append_eq_of_add_le (by decide)]
  exact BitVec.extractLsb'_eq_self

@[simp] theorem encXT_26_6 (op : BitVec 6) (d : BitVec 5) (a : BitVec 5) (fn : BitVec 2) (imm : BitVec 14) :
    fld (encXT op d a fn imm) 26 6 = op := by
  unfold fld encXT; rw [BitVec.extractLsb'_cast]
  rw [BitVec.extractLsb'_append_eq_of_le (by decide),
    BitVec.extractLsb'_append_eq_of_le (by decide),
    BitVec.extractLsb'_append_eq_of_le (by decide),
    BitVec.extractLsb'_append_eq_of_le (by decide)]
  exact BitVec.extractLsb'_eq_self

@[simp] theorem encXM_0_3 (op : BitVec 6) (d : BitVec 5) (a : BitVec 5) (b : BitVec 5) (c : BitVec 5) (fn : BitVec 3) (f : BitVec 3) :
    fld (encXM op d a b c fn f) 0 3 = f := by
  unfold fld encXM; rw [BitVec.extractLsb'_cast]
  rw [BitVec.extractLsb'_append_eq_of_add_le (by decide)]
  exact BitVec.extractLsb'_eq_self

@[simp] theorem encXM_3_3 (op : BitVec 6) (d : BitVec 5) (a : BitVec 5) (b : BitVec 5) (c : BitVec 5) (fn : BitVec 3) (f : BitVec 3) :
    fld (encXM op d a b c fn f) 3 3 = fn := by
  unfold fld encXM; rw [BitVec.extractLsb'_cast]
  rw [BitVec.extractLsb'_append_eq_of_le (by decide),
    BitVec.extractLsb'_append_eq_of_add_le (by decide)]
  exact BitVec.extractLsb'_eq_self

@[simp] theorem encXM_6_5 (op : BitVec 6) (d : BitVec 5) (a : BitVec 5) (b : BitVec 5) (c : BitVec 5) (fn : BitVec 3) (f : BitVec 3) :
    fld (encXM op d a b c fn f) 6 5 = c := by
  unfold fld encXM; rw [BitVec.extractLsb'_cast]
  rw [BitVec.extractLsb'_append_eq_of_le (by decide),
    BitVec.extractLsb'_append_eq_of_le (by decide),
    BitVec.extractLsb'_append_eq_of_add_le (by decide)]
  exact BitVec.extractLsb'_eq_self

@[simp] theorem encXM_6_10 (op : BitVec 6) (d : BitVec 5) (a : BitVec 5) (b : BitVec 5) (c : BitVec 5) (fn : BitVec 3) (f : BitVec 3) :
    fld (encXM op d a b c fn f) 6 10 = b ++ c := by
  apply BitVec.eq_of_getLsbD_eq; intro i hi
  simp only [fld, encXM, BitVec.getLsbD_extractLsb', BitVec.getLsbD_cast, BitVec.getLsbD_append]
  simp only [hi, decide_true, Bool.true_and]
  repeat' split
  all_goals first | omega | rfl | (congr 1; omega)

@[simp] theorem encXM_6_20 (op : BitVec 6) (d : BitVec 5) (a : BitVec 5) (b : BitVec 5) (c : BitVec 5) (fn : BitVec 3) (f : BitVec 3) :
    fld (encXM op d a b c fn f) 6 20 = d ++ a ++ b ++ c := by
  apply BitVec.eq_of_getLsbD_eq; intro i hi
  simp only [fld, encXM, BitVec.getLsbD_extractLsb', BitVec.getLsbD_cast, BitVec.getLsbD_append]
  simp only [hi, decide_true, Bool.true_and]
  repeat' split
  all_goals first | omega | rfl | (congr 1; omega)

@[simp] theorem encXM_11_5 (op : BitVec 6) (d : BitVec 5) (a : BitVec 5) (b : BitVec 5) (c : BitVec 5) (fn : BitVec 3) (f : BitVec 3) :
    fld (encXM op d a b c fn f) 11 5 = b := by
  unfold fld encXM; rw [BitVec.extractLsb'_cast]
  rw [BitVec.extractLsb'_append_eq_of_le (by decide),
    BitVec.extractLsb'_append_eq_of_le (by decide),
    BitVec.extractLsb'_append_eq_of_le (by decide),
    BitVec.extractLsb'_append_eq_of_add_le (by decide)]
  exact BitVec.extractLsb'_eq_self

@[simp] theorem encXM_16_5 (op : BitVec 6) (d : BitVec 5) (a : BitVec 5) (b : BitVec 5) (c : BitVec 5) (fn : BitVec 3) (f : BitVec 3) :
    fld (encXM op d a b c fn f) 16 5 = a := by
  unfold fld encXM; rw [BitVec.extractLsb'_cast]
  rw [BitVec.extractLsb'_append_eq_of_le (by decide),
    BitVec.extractLsb'_append_eq_of_le (by decide),
    BitVec.extractLsb'_append_eq_of_le (by decide),
    BitVec.extractLsb'_append_eq_of_le (by decide),
    BitVec.extractLsb'_append_eq_of_add_le (by decide)]
  exact BitVec.extractLsb'_eq_self

@[simp] theorem encXM_21_5 (op : BitVec 6) (d : BitVec 5) (a : BitVec 5) (b : BitVec 5) (c : BitVec 5) (fn : BitVec 3) (f : BitVec 3) :
    fld (encXM op d a b c fn f) 21 5 = d := by
  unfold fld encXM; rw [BitVec.extractLsb'_cast]
  rw [BitVec.extractLsb'_append_eq_of_le (by decide),
    BitVec.extractLsb'_append_eq_of_le (by decide),
    BitVec.extractLsb'_append_eq_of_le (by decide),
    BitVec.extractLsb'_append_eq_of_le (by decide),
    BitVec.extractLsb'_append_eq_of_le (by decide),
    BitVec.extractLsb'_append_eq_of_add_le (by decide)]
  exact BitVec.extractLsb'_eq_self

@[simp] theorem encXM_26_6 (op : BitVec 6) (d : BitVec 5) (a : BitVec 5) (b : BitVec 5) (c : BitVec 5) (fn : BitVec 3) (f : BitVec 3) :
    fld (encXM op d a b c fn f) 26 6 = op := by
  unfold fld encXM; rw [BitVec.extractLsb'_cast]
  rw [BitVec.extractLsb'_append_eq_of_le (by decide),
    BitVec.extractLsb'_append_eq_of_le (by decide),
    BitVec.extractLsb'_append_eq_of_le (by decide),
    BitVec.extractLsb'_append_eq_of_le (by decide),
    BitVec.extractLsb'_append_eq_of_le (by decide),
    BitVec.extractLsb'_append_eq_of_le (by decide)]
  exact BitVec.extractLsb'_eq_self

@[simp] theorem encXS_0_4 (op : BitVec 6) (d : BitVec 5) (a : BitVec 5) (fn : BitVec 3) (s : BitVec 3) (i : BitVec 6) (k : BitVec 4) :
    fld (encXS op d a fn s i k) 0 4 = k := by
  unfold fld encXS; rw [BitVec.extractLsb'_cast]
  rw [BitVec.extractLsb'_append_eq_of_add_le (by decide)]
  exact BitVec.extractLsb'_eq_self

@[simp] theorem encXS_0_13 (op : BitVec 6) (d : BitVec 5) (a : BitVec 5) (fn : BitVec 3) (s : BitVec 3) (i : BitVec 6) (k : BitVec 4) :
    fld (encXS op d a fn s i k) 0 13 = s ++ i ++ k := by
  apply BitVec.eq_of_getLsbD_eq; intro i hi
  simp only [fld, encXS, BitVec.getLsbD_extractLsb', BitVec.getLsbD_cast, BitVec.getLsbD_append]
  simp only [hi, decide_true, Bool.true_and]
  repeat' split
  all_goals first | omega | rfl | (congr 1; omega)

@[simp] theorem encXS_4_6 (op : BitVec 6) (d : BitVec 5) (a : BitVec 5) (fn : BitVec 3) (s : BitVec 3) (i : BitVec 6) (k : BitVec 4) :
    fld (encXS op d a fn s i k) 4 6 = i := by
  unfold fld encXS; rw [BitVec.extractLsb'_cast]
  rw [BitVec.extractLsb'_append_eq_of_le (by decide),
    BitVec.extractLsb'_append_eq_of_add_le (by decide)]
  exact BitVec.extractLsb'_eq_self

@[simp] theorem encXS_4_9 (op : BitVec 6) (d : BitVec 5) (a : BitVec 5) (fn : BitVec 3) (s : BitVec 3) (i : BitVec 6) (k : BitVec 4) :
    fld (encXS op d a fn s i k) 4 9 = s ++ i := by
  apply BitVec.eq_of_getLsbD_eq; intro i hi
  simp only [fld, encXS, BitVec.getLsbD_extractLsb', BitVec.getLsbD_cast, BitVec.getLsbD_append]
  simp only [hi, decide_true, Bool.true_and]
  repeat' split
  all_goals first | omega | rfl | (congr 1; omega)

@[simp] theorem encXS_10_3 (op : BitVec 6) (d : BitVec 5) (a : BitVec 5) (fn : BitVec 3) (s : BitVec 3) (i : BitVec 6) (k : BitVec 4) :
    fld (encXS op d a fn s i k) 10 3 = s := by
  unfold fld encXS; rw [BitVec.extractLsb'_cast]
  rw [BitVec.extractLsb'_append_eq_of_le (by decide),
    BitVec.extractLsb'_append_eq_of_le (by decide),
    BitVec.extractLsb'_append_eq_of_add_le (by decide)]
  exact BitVec.extractLsb'_eq_self

@[simp] theorem encXS_13_3 (op : BitVec 6) (d : BitVec 5) (a : BitVec 5) (fn : BitVec 3) (s : BitVec 3) (i : BitVec 6) (k : BitVec 4) :
    fld (encXS op d a fn s i k) 13 3 = fn := by
  unfold fld encXS; rw [BitVec.extractLsb'_cast]
  rw [BitVec.extractLsb'_append_eq_of_le (by decide),
    BitVec.extractLsb'_append_eq_of_le (by decide),
    BitVec.extractLsb'_append_eq_of_le (by decide),
    BitVec.extractLsb'_append_eq_of_add_le (by decide)]
  exact BitVec.extractLsb'_eq_self

@[simp] theorem encXS_16_5 (op : BitVec 6) (d : BitVec 5) (a : BitVec 5) (fn : BitVec 3) (s : BitVec 3) (i : BitVec 6) (k : BitVec 4) :
    fld (encXS op d a fn s i k) 16 5 = a := by
  unfold fld encXS; rw [BitVec.extractLsb'_cast]
  rw [BitVec.extractLsb'_append_eq_of_le (by decide),
    BitVec.extractLsb'_append_eq_of_le (by decide),
    BitVec.extractLsb'_append_eq_of_le (by decide),
    BitVec.extractLsb'_append_eq_of_le (by decide),
    BitVec.extractLsb'_append_eq_of_add_le (by decide)]
  exact BitVec.extractLsb'_eq_self

@[simp] theorem encXS_16_10 (op : BitVec 6) (d : BitVec 5) (a : BitVec 5) (fn : BitVec 3) (s : BitVec 3) (i : BitVec 6) (k : BitVec 4) :
    fld (encXS op d a fn s i k) 16 10 = d ++ a := by
  apply BitVec.eq_of_getLsbD_eq; intro i hi
  simp only [fld, encXS, BitVec.getLsbD_extractLsb', BitVec.getLsbD_cast, BitVec.getLsbD_append]
  simp only [hi, decide_true, Bool.true_and]
  repeat' split
  all_goals first | omega | rfl | (congr 1; omega)

@[simp] theorem encXS_21_5 (op : BitVec 6) (d : BitVec 5) (a : BitVec 5) (fn : BitVec 3) (s : BitVec 3) (i : BitVec 6) (k : BitVec 4) :
    fld (encXS op d a fn s i k) 21 5 = d := by
  unfold fld encXS; rw [BitVec.extractLsb'_cast]
  rw [BitVec.extractLsb'_append_eq_of_le (by decide),
    BitVec.extractLsb'_append_eq_of_le (by decide),
    BitVec.extractLsb'_append_eq_of_le (by decide),
    BitVec.extractLsb'_append_eq_of_le (by decide),
    BitVec.extractLsb'_append_eq_of_le (by decide),
    BitVec.extractLsb'_append_eq_of_add_le (by decide)]
  exact BitVec.extractLsb'_eq_self

@[simp] theorem encXS_26_6 (op : BitVec 6) (d : BitVec 5) (a : BitVec 5) (fn : BitVec 3) (s : BitVec 3) (i : BitVec 6) (k : BitVec 4) :
    fld (encXS op d a fn s i k) 26 6 = op := by
  unfold fld encXS; rw [BitVec.extractLsb'_cast]
  rw [BitVec.extractLsb'_append_eq_of_le (by decide),
    BitVec.extractLsb'_append_eq_of_le (by decide),
    BitVec.extractLsb'_append_eq_of_le (by decide),
    BitVec.extractLsb'_append_eq_of_le (by decide),
    BitVec.extractLsb'_append_eq_of_le (by decide),
    BitVec.extractLsb'_append_eq_of_le (by decide)]
  exact BitVec.extractLsb'_eq_self

@[simp] theorem encXQ_0_6 (op : BitVec 6) (d : BitVec 5) (a : BitVec 5) (z : BitVec 5) (q : BitVec 2) (fn : BitVec 3) (y : BitVec 6) :
    fld (encXQ op d a z q fn y) 0 6 = y := by
  unfold fld encXQ; rw [BitVec.extractLsb'_cast]
  rw [BitVec.extractLsb'_append_eq_of_add_le (by decide)]
  exact BitVec.extractLsb'_eq_self

@[simp] theorem encXQ_6_3 (op : BitVec 6) (d : BitVec 5) (a : BitVec 5) (z : BitVec 5) (q : BitVec 2) (fn : BitVec 3) (y : BitVec 6) :
    fld (encXQ op d a z q fn y) 6 3 = fn := by
  unfold fld encXQ; rw [BitVec.extractLsb'_cast]
  rw [BitVec.extractLsb'_append_eq_of_le (by decide),
    BitVec.extractLsb'_append_eq_of_add_le (by decide)]
  exact BitVec.extractLsb'_eq_self

@[simp] theorem encXQ_9_2 (op : BitVec 6) (d : BitVec 5) (a : BitVec 5) (z : BitVec 5) (q : BitVec 2) (fn : BitVec 3) (y : BitVec 6) :
    fld (encXQ op d a z q fn y) 9 2 = q := by
  unfold fld encXQ; rw [BitVec.extractLsb'_cast]
  rw [BitVec.extractLsb'_append_eq_of_le (by decide),
    BitVec.extractLsb'_append_eq_of_le (by decide),
    BitVec.extractLsb'_append_eq_of_add_le (by decide)]
  exact BitVec.extractLsb'_eq_self

@[simp] theorem encXQ_11_5 (op : BitVec 6) (d : BitVec 5) (a : BitVec 5) (z : BitVec 5) (q : BitVec 2) (fn : BitVec 3) (y : BitVec 6) :
    fld (encXQ op d a z q fn y) 11 5 = z := by
  unfold fld encXQ; rw [BitVec.extractLsb'_cast]
  rw [BitVec.extractLsb'_append_eq_of_le (by decide),
    BitVec.extractLsb'_append_eq_of_le (by decide),
    BitVec.extractLsb'_append_eq_of_le (by decide),
    BitVec.extractLsb'_append_eq_of_add_le (by decide)]
  exact BitVec.extractLsb'_eq_self

@[simp] theorem encXQ_16_5 (op : BitVec 6) (d : BitVec 5) (a : BitVec 5) (z : BitVec 5) (q : BitVec 2) (fn : BitVec 3) (y : BitVec 6) :
    fld (encXQ op d a z q fn y) 16 5 = a := by
  unfold fld encXQ; rw [BitVec.extractLsb'_cast]
  rw [BitVec.extractLsb'_append_eq_of_le (by decide),
    BitVec.extractLsb'_append_eq_of_le (by decide),
    BitVec.extractLsb'_append_eq_of_le (by decide),
    BitVec.extractLsb'_append_eq_of_le (by decide),
    BitVec.extractLsb'_append_eq_of_add_le (by decide)]
  exact BitVec.extractLsb'_eq_self

@[simp] theorem encXQ_21_5 (op : BitVec 6) (d : BitVec 5) (a : BitVec 5) (z : BitVec 5) (q : BitVec 2) (fn : BitVec 3) (y : BitVec 6) :
    fld (encXQ op d a z q fn y) 21 5 = d := by
  unfold fld encXQ; rw [BitVec.extractLsb'_cast]
  rw [BitVec.extractLsb'_append_eq_of_le (by decide),
    BitVec.extractLsb'_append_eq_of_le (by decide),
    BitVec.extractLsb'_append_eq_of_le (by decide),
    BitVec.extractLsb'_append_eq_of_le (by decide),
    BitVec.extractLsb'_append_eq_of_le (by decide),
    BitVec.extractLsb'_append_eq_of_add_le (by decide)]
  exact BitVec.extractLsb'_eq_self

@[simp] theorem encXQ_26_6 (op : BitVec 6) (d : BitVec 5) (a : BitVec 5) (z : BitVec 5) (q : BitVec 2) (fn : BitVec 3) (y : BitVec 6) :
    fld (encXQ op d a z q fn y) 26 6 = op := by
  unfold fld encXQ; rw [BitVec.extractLsb'_cast]
  rw [BitVec.extractLsb'_append_eq_of_le (by decide),
    BitVec.extractLsb'_append_eq_of_le (by decide),
    BitVec.extractLsb'_append_eq_of_le (by decide),
    BitVec.extractLsb'_append_eq_of_le (by decide),
    BitVec.extractLsb'_append_eq_of_le (by decide),
    BitVec.extractLsb'_append_eq_of_le (by decide)]
  exact BitVec.extractLsb'_eq_self

@[simp] theorem encXH_0_11 (op : BitVec 6) (d : BitVec 5) (a : BitVec 5) (h : BitVec 2) (fn : BitVec 3) (z : BitVec 11) :
    fld (encXH op d a h fn z) 0 11 = z := by
  unfold fld encXH; rw [BitVec.extractLsb'_cast]
  rw [BitVec.extractLsb'_append_eq_of_add_le (by decide)]
  exact BitVec.extractLsb'_eq_self

@[simp] theorem encXH_11_3 (op : BitVec 6) (d : BitVec 5) (a : BitVec 5) (h : BitVec 2) (fn : BitVec 3) (z : BitVec 11) :
    fld (encXH op d a h fn z) 11 3 = fn := by
  unfold fld encXH; rw [BitVec.extractLsb'_cast]
  rw [BitVec.extractLsb'_append_eq_of_le (by decide),
    BitVec.extractLsb'_append_eq_of_add_le (by decide)]
  exact BitVec.extractLsb'_eq_self

@[simp] theorem encXH_14_2 (op : BitVec 6) (d : BitVec 5) (a : BitVec 5) (h : BitVec 2) (fn : BitVec 3) (z : BitVec 11) :
    fld (encXH op d a h fn z) 14 2 = h := by
  unfold fld encXH; rw [BitVec.extractLsb'_cast]
  rw [BitVec.extractLsb'_append_eq_of_le (by decide),
    BitVec.extractLsb'_append_eq_of_le (by decide),
    BitVec.extractLsb'_append_eq_of_add_le (by decide)]
  exact BitVec.extractLsb'_eq_self

@[simp] theorem encXH_16_5 (op : BitVec 6) (d : BitVec 5) (a : BitVec 5) (h : BitVec 2) (fn : BitVec 3) (z : BitVec 11) :
    fld (encXH op d a h fn z) 16 5 = a := by
  unfold fld encXH; rw [BitVec.extractLsb'_cast]
  rw [BitVec.extractLsb'_append_eq_of_le (by decide),
    BitVec.extractLsb'_append_eq_of_le (by decide),
    BitVec.extractLsb'_append_eq_of_le (by decide),
    BitVec.extractLsb'_append_eq_of_add_le (by decide)]
  exact BitVec.extractLsb'_eq_self

@[simp] theorem encXH_16_10 (op : BitVec 6) (d : BitVec 5) (a : BitVec 5) (h : BitVec 2) (fn : BitVec 3) (z : BitVec 11) :
    fld (encXH op d a h fn z) 16 10 = d ++ a := by
  apply BitVec.eq_of_getLsbD_eq; intro i hi
  simp only [fld, encXH, BitVec.getLsbD_extractLsb', BitVec.getLsbD_cast, BitVec.getLsbD_append]
  simp only [hi, decide_true, Bool.true_and]
  repeat' split
  all_goals first | omega | rfl | (congr 1; omega)

@[simp] theorem encXH_21_5 (op : BitVec 6) (d : BitVec 5) (a : BitVec 5) (h : BitVec 2) (fn : BitVec 3) (z : BitVec 11) :
    fld (encXH op d a h fn z) 21 5 = d := by
  unfold fld encXH; rw [BitVec.extractLsb'_cast]
  rw [BitVec.extractLsb'_append_eq_of_le (by decide),
    BitVec.extractLsb'_append_eq_of_le (by decide),
    BitVec.extractLsb'_append_eq_of_le (by decide),
    BitVec.extractLsb'_append_eq_of_le (by decide),
    BitVec.extractLsb'_append_eq_of_add_le (by decide)]
  exact BitVec.extractLsb'_eq_self

@[simp] theorem encXH_26_6 (op : BitVec 6) (d : BitVec 5) (a : BitVec 5) (h : BitVec 2) (fn : BitVec 3) (z : BitVec 11) :
    fld (encXH op d a h fn z) 26 6 = op := by
  unfold fld encXH; rw [BitVec.extractLsb'_cast]
  rw [BitVec.extractLsb'_append_eq_of_le (by decide),
    BitVec.extractLsb'_append_eq_of_le (by decide),
    BitVec.extractLsb'_append_eq_of_le (by decide),
    BitVec.extractLsb'_append_eq_of_le (by decide),
    BitVec.extractLsb'_append_eq_of_le (by decide)]
  exact BitVec.extractLsb'_eq_self

@[simp] theorem encMXR_0_1 (op : BitVec 6) (d : BitVec 5) (a : BitVec 5) (fn : BitVec 2) (c : BitVec 3) (r : BitVec 4) (h : BitVec 1) (f : BitVec 1) (e : BitVec 1) (b : BitVec 3) (z : BitVec 1) :
    fld (encMXR op d a fn c r h f e b z) 0 1 = z := by
  unfold fld encMXR; rw [BitVec.extractLsb'_cast]
  rw [BitVec.extractLsb'_append_eq_of_add_le (by decide)]
  exact BitVec.extractLsb'_eq_self

@[simp] theorem encMXR_1_3 (op : BitVec 6) (d : BitVec 5) (a : BitVec 5) (fn : BitVec 2) (c : BitVec 3) (r : BitVec 4) (h : BitVec 1) (f : BitVec 1) (e : BitVec 1) (b : BitVec 3) (z : BitVec 1) :
    fld (encMXR op d a fn c r h f e b z) 1 3 = b := by
  unfold fld encMXR; rw [BitVec.extractLsb'_cast]
  rw [BitVec.extractLsb'_append_eq_of_le (by decide),
    BitVec.extractLsb'_append_eq_of_add_le (by decide)]
  exact BitVec.extractLsb'_eq_self

@[simp] theorem encMXR_4_1 (op : BitVec 6) (d : BitVec 5) (a : BitVec 5) (fn : BitVec 2) (c : BitVec 3) (r : BitVec 4) (h : BitVec 1) (f : BitVec 1) (e : BitVec 1) (b : BitVec 3) (z : BitVec 1) :
    fld (encMXR op d a fn c r h f e b z) 4 1 = e := by
  unfold fld encMXR; rw [BitVec.extractLsb'_cast]
  rw [BitVec.extractLsb'_append_eq_of_le (by decide),
    BitVec.extractLsb'_append_eq_of_le (by decide),
    BitVec.extractLsb'_append_eq_of_add_le (by decide)]
  exact BitVec.extractLsb'_eq_self

@[simp] theorem encMXR_5_1 (op : BitVec 6) (d : BitVec 5) (a : BitVec 5) (fn : BitVec 2) (c : BitVec 3) (r : BitVec 4) (h : BitVec 1) (f : BitVec 1) (e : BitVec 1) (b : BitVec 3) (z : BitVec 1) :
    fld (encMXR op d a fn c r h f e b z) 5 1 = f := by
  unfold fld encMXR; rw [BitVec.extractLsb'_cast]
  rw [BitVec.extractLsb'_append_eq_of_le (by decide),
    BitVec.extractLsb'_append_eq_of_le (by decide),
    BitVec.extractLsb'_append_eq_of_le (by decide),
    BitVec.extractLsb'_append_eq_of_add_le (by decide)]
  exact BitVec.extractLsb'_eq_self

@[simp] theorem encMXR_6_1 (op : BitVec 6) (d : BitVec 5) (a : BitVec 5) (fn : BitVec 2) (c : BitVec 3) (r : BitVec 4) (h : BitVec 1) (f : BitVec 1) (e : BitVec 1) (b : BitVec 3) (z : BitVec 1) :
    fld (encMXR op d a fn c r h f e b z) 6 1 = h := by
  unfold fld encMXR; rw [BitVec.extractLsb'_cast]
  rw [BitVec.extractLsb'_append_eq_of_le (by decide),
    BitVec.extractLsb'_append_eq_of_le (by decide),
    BitVec.extractLsb'_append_eq_of_le (by decide),
    BitVec.extractLsb'_append_eq_of_le (by decide),
    BitVec.extractLsb'_append_eq_of_add_le (by decide)]
  exact BitVec.extractLsb'_eq_self

@[simp] theorem encMXR_7_4 (op : BitVec 6) (d : BitVec 5) (a : BitVec 5) (fn : BitVec 2) (c : BitVec 3) (r : BitVec 4) (h : BitVec 1) (f : BitVec 1) (e : BitVec 1) (b : BitVec 3) (z : BitVec 1) :
    fld (encMXR op d a fn c r h f e b z) 7 4 = r := by
  unfold fld encMXR; rw [BitVec.extractLsb'_cast]
  rw [BitVec.extractLsb'_append_eq_of_le (by decide),
    BitVec.extractLsb'_append_eq_of_le (by decide),
    BitVec.extractLsb'_append_eq_of_le (by decide),
    BitVec.extractLsb'_append_eq_of_le (by decide),
    BitVec.extractLsb'_append_eq_of_le (by decide),
    BitVec.extractLsb'_append_eq_of_add_le (by decide)]
  exact BitVec.extractLsb'_eq_self

@[simp] theorem encMXR_11_3 (op : BitVec 6) (d : BitVec 5) (a : BitVec 5) (fn : BitVec 2) (c : BitVec 3) (r : BitVec 4) (h : BitVec 1) (f : BitVec 1) (e : BitVec 1) (b : BitVec 3) (z : BitVec 1) :
    fld (encMXR op d a fn c r h f e b z) 11 3 = c := by
  unfold fld encMXR; rw [BitVec.extractLsb'_cast]
  rw [BitVec.extractLsb'_append_eq_of_le (by decide),
    BitVec.extractLsb'_append_eq_of_le (by decide),
    BitVec.extractLsb'_append_eq_of_le (by decide),
    BitVec.extractLsb'_append_eq_of_le (by decide),
    BitVec.extractLsb'_append_eq_of_le (by decide),
    BitVec.extractLsb'_append_eq_of_le (by decide),
    BitVec.extractLsb'_append_eq_of_add_le (by decide)]
  exact BitVec.extractLsb'_eq_self

@[simp] theorem encMXR_14_2 (op : BitVec 6) (d : BitVec 5) (a : BitVec 5) (fn : BitVec 2) (c : BitVec 3) (r : BitVec 4) (h : BitVec 1) (f : BitVec 1) (e : BitVec 1) (b : BitVec 3) (z : BitVec 1) :
    fld (encMXR op d a fn c r h f e b z) 14 2 = fn := by
  unfold fld encMXR; rw [BitVec.extractLsb'_cast]
  rw [BitVec.extractLsb'_append_eq_of_le (by decide),
    BitVec.extractLsb'_append_eq_of_le (by decide),
    BitVec.extractLsb'_append_eq_of_le (by decide),
    BitVec.extractLsb'_append_eq_of_le (by decide),
    BitVec.extractLsb'_append_eq_of_le (by decide),
    BitVec.extractLsb'_append_eq_of_le (by decide),
    BitVec.extractLsb'_append_eq_of_le (by decide),
    BitVec.extractLsb'_append_eq_of_add_le (by decide)]
  exact BitVec.extractLsb'_eq_self

@[simp] theorem encMXR_16_5 (op : BitVec 6) (d : BitVec 5) (a : BitVec 5) (fn : BitVec 2) (c : BitVec 3) (r : BitVec 4) (h : BitVec 1) (f : BitVec 1) (e : BitVec 1) (b : BitVec 3) (z : BitVec 1) :
    fld (encMXR op d a fn c r h f e b z) 16 5 = a := by
  unfold fld encMXR; rw [BitVec.extractLsb'_cast]
  rw [BitVec.extractLsb'_append_eq_of_le (by decide),
    BitVec.extractLsb'_append_eq_of_le (by decide),
    BitVec.extractLsb'_append_eq_of_le (by decide),
    BitVec.extractLsb'_append_eq_of_le (by decide),
    BitVec.extractLsb'_append_eq_of_le (by decide),
    BitVec.extractLsb'_append_eq_of_le (by decide),
    BitVec.extractLsb'_append_eq_of_le (by decide),
    BitVec.extractLsb'_append_eq_of_le (by decide),
    BitVec.extractLsb'_append_eq_of_add_le (by decide)]
  exact BitVec.extractLsb'_eq_self

@[simp] theorem encMXR_21_5 (op : BitVec 6) (d : BitVec 5) (a : BitVec 5) (fn : BitVec 2) (c : BitVec 3) (r : BitVec 4) (h : BitVec 1) (f : BitVec 1) (e : BitVec 1) (b : BitVec 3) (z : BitVec 1) :
    fld (encMXR op d a fn c r h f e b z) 21 5 = d := by
  unfold fld encMXR; rw [BitVec.extractLsb'_cast]
  rw [BitVec.extractLsb'_append_eq_of_le (by decide),
    BitVec.extractLsb'_append_eq_of_le (by decide),
    BitVec.extractLsb'_append_eq_of_le (by decide),
    BitVec.extractLsb'_append_eq_of_le (by decide),
    BitVec.extractLsb'_append_eq_of_le (by decide),
    BitVec.extractLsb'_append_eq_of_le (by decide),
    BitVec.extractLsb'_append_eq_of_le (by decide),
    BitVec.extractLsb'_append_eq_of_le (by decide),
    BitVec.extractLsb'_append_eq_of_le (by decide),
    BitVec.extractLsb'_append_eq_of_add_le (by decide)]
  exact BitVec.extractLsb'_eq_self

@[simp] theorem encMXR_26_6 (op : BitVec 6) (d : BitVec 5) (a : BitVec 5) (fn : BitVec 2) (c : BitVec 3) (r : BitVec 4) (h : BitVec 1) (f : BitVec 1) (e : BitVec 1) (b : BitVec 3) (z : BitVec 1) :
    fld (encMXR op d a fn c r h f e b z) 26 6 = op := by
  unfold fld encMXR; rw [BitVec.extractLsb'_cast]
  rw [BitVec.extractLsb'_append_eq_of_le (by decide),
    BitVec.extractLsb'_append_eq_of_le (by decide),
    BitVec.extractLsb'_append_eq_of_le (by decide),
    BitVec.extractLsb'_append_eq_of_le (by decide),
    BitVec.extractLsb'_append_eq_of_le (by decide),
    BitVec.extractLsb'_append_eq_of_le (by decide),
    BitVec.extractLsb'_append_eq_of_le (by decide),
    BitVec.extractLsb'_append_eq_of_le (by decide),
    BitVec.extractLsb'_append_eq_of_le (by decide),
    BitVec.extractLsb'_append_eq_of_le (by decide)]
  exact BitVec.extractLsb'_eq_self

@[simp] theorem encMXW_0_10 (op : BitVec 6) (d : BitVec 5) (a : BitVec 5) (fn : BitVec 2) (c : BitVec 3) (l : BitVec 1) (z : BitVec 10) :
    fld (encMXW op d a fn c l z) 0 10 = z := by
  unfold fld encMXW; rw [BitVec.extractLsb'_cast]
  rw [BitVec.extractLsb'_append_eq_of_add_le (by decide)]
  exact BitVec.extractLsb'_eq_self

@[simp] theorem encMXW_0_11 (op : BitVec 6) (d : BitVec 5) (a : BitVec 5) (fn : BitVec 2) (c : BitVec 3) (l : BitVec 1) (z : BitVec 10) :
    fld (encMXW op d a fn c l z) 0 11 = l ++ z := by
  apply BitVec.eq_of_getLsbD_eq; intro i hi
  simp only [fld, encMXW, BitVec.getLsbD_extractLsb', BitVec.getLsbD_cast, BitVec.getLsbD_append]
  simp only [hi, decide_true, Bool.true_and]
  repeat' split
  all_goals first | omega | rfl | (congr 1; omega)

@[simp] theorem encMXW_0_14 (op : BitVec 6) (d : BitVec 5) (a : BitVec 5) (fn : BitVec 2) (c : BitVec 3) (l : BitVec 1) (z : BitVec 10) :
    fld (encMXW op d a fn c l z) 0 14 = c ++ l ++ z := by
  apply BitVec.eq_of_getLsbD_eq; intro i hi
  simp only [fld, encMXW, BitVec.getLsbD_extractLsb', BitVec.getLsbD_cast, BitVec.getLsbD_append]
  simp only [hi, decide_true, Bool.true_and]
  repeat' split
  all_goals first | omega | rfl | (congr 1; omega)

@[simp] theorem encMXW_10_1 (op : BitVec 6) (d : BitVec 5) (a : BitVec 5) (fn : BitVec 2) (c : BitVec 3) (l : BitVec 1) (z : BitVec 10) :
    fld (encMXW op d a fn c l z) 10 1 = l := by
  unfold fld encMXW; rw [BitVec.extractLsb'_cast]
  rw [BitVec.extractLsb'_append_eq_of_le (by decide),
    BitVec.extractLsb'_append_eq_of_add_le (by decide)]
  exact BitVec.extractLsb'_eq_self

@[simp] theorem encMXW_11_3 (op : BitVec 6) (d : BitVec 5) (a : BitVec 5) (fn : BitVec 2) (c : BitVec 3) (l : BitVec 1) (z : BitVec 10) :
    fld (encMXW op d a fn c l z) 11 3 = c := by
  unfold fld encMXW; rw [BitVec.extractLsb'_cast]
  rw [BitVec.extractLsb'_append_eq_of_le (by decide),
    BitVec.extractLsb'_append_eq_of_le (by decide),
    BitVec.extractLsb'_append_eq_of_add_le (by decide)]
  exact BitVec.extractLsb'_eq_self

@[simp] theorem encMXW_14_2 (op : BitVec 6) (d : BitVec 5) (a : BitVec 5) (fn : BitVec 2) (c : BitVec 3) (l : BitVec 1) (z : BitVec 10) :
    fld (encMXW op d a fn c l z) 14 2 = fn := by
  unfold fld encMXW; rw [BitVec.extractLsb'_cast]
  rw [BitVec.extractLsb'_append_eq_of_le (by decide),
    BitVec.extractLsb'_append_eq_of_le (by decide),
    BitVec.extractLsb'_append_eq_of_le (by decide),
    BitVec.extractLsb'_append_eq_of_add_le (by decide)]
  exact BitVec.extractLsb'_eq_self

@[simp] theorem encMXW_16_5 (op : BitVec 6) (d : BitVec 5) (a : BitVec 5) (fn : BitVec 2) (c : BitVec 3) (l : BitVec 1) (z : BitVec 10) :
    fld (encMXW op d a fn c l z) 16 5 = a := by
  unfold fld encMXW; rw [BitVec.extractLsb'_cast]
  rw [BitVec.extractLsb'_append_eq_of_le (by decide),
    BitVec.extractLsb'_append_eq_of_le (by decide),
    BitVec.extractLsb'_append_eq_of_le (by decide),
    BitVec.extractLsb'_append_eq_of_le (by decide),
    BitVec.extractLsb'_append_eq_of_add_le (by decide)]
  exact BitVec.extractLsb'_eq_self

@[simp] theorem encMXW_16_10 (op : BitVec 6) (d : BitVec 5) (a : BitVec 5) (fn : BitVec 2) (c : BitVec 3) (l : BitVec 1) (z : BitVec 10) :
    fld (encMXW op d a fn c l z) 16 10 = d ++ a := by
  apply BitVec.eq_of_getLsbD_eq; intro i hi
  simp only [fld, encMXW, BitVec.getLsbD_extractLsb', BitVec.getLsbD_cast, BitVec.getLsbD_append]
  simp only [hi, decide_true, Bool.true_and]
  repeat' split
  all_goals first | omega | rfl | (congr 1; omega)

@[simp] theorem encMXW_21_5 (op : BitVec 6) (d : BitVec 5) (a : BitVec 5) (fn : BitVec 2) (c : BitVec 3) (l : BitVec 1) (z : BitVec 10) :
    fld (encMXW op d a fn c l z) 21 5 = d := by
  unfold fld encMXW; rw [BitVec.extractLsb'_cast]
  rw [BitVec.extractLsb'_append_eq_of_le (by decide),
    BitVec.extractLsb'_append_eq_of_le (by decide),
    BitVec.extractLsb'_append_eq_of_le (by decide),
    BitVec.extractLsb'_append_eq_of_le (by decide),
    BitVec.extractLsb'_append_eq_of_le (by decide),
    BitVec.extractLsb'_append_eq_of_add_le (by decide)]
  exact BitVec.extractLsb'_eq_self

@[simp] theorem encMXW_26_6 (op : BitVec 6) (d : BitVec 5) (a : BitVec 5) (fn : BitVec 2) (c : BitVec 3) (l : BitVec 1) (z : BitVec 10) :
    fld (encMXW op d a fn c l z) 26 6 = op := by
  unfold fld encMXW; rw [BitVec.extractLsb'_cast]
  rw [BitVec.extractLsb'_append_eq_of_le (by decide),
    BitVec.extractLsb'_append_eq_of_le (by decide),
    BitVec.extractLsb'_append_eq_of_le (by decide),
    BitVec.extractLsb'_append_eq_of_le (by decide),
    BitVec.extractLsb'_append_eq_of_le (by decide),
    BitVec.extractLsb'_append_eq_of_le (by decide)]
  exact BitVec.extractLsb'_eq_self

@[simp] theorem encXP_0_2 (op : BitVec 6) (c : BitVec 5) (l : BitVec 4) (d : BitVec 5) (a : BitVec 5) (b : BitVec 5) (z : BitVec 2) :
    fld (encXP op c l d a b z) 0 2 = z := by
  unfold fld encXP; rw [BitVec.extractLsb'_cast]
  rw [BitVec.extractLsb'_append_eq_of_add_le (by decide)]
  exact BitVec.extractLsb'_eq_self

@[simp] theorem encXP_0_26 (op : BitVec 6) (c : BitVec 5) (l : BitVec 4) (d : BitVec 5) (a : BitVec 5) (b : BitVec 5) (z : BitVec 2) :
    fld (encXP op c l d a b z) 0 26 = c ++ l ++ d ++ a ++ b ++ z := by
  apply BitVec.eq_of_getLsbD_eq; intro i hi
  simp only [fld, encXP, BitVec.getLsbD_extractLsb', BitVec.getLsbD_cast, BitVec.getLsbD_append]
  simp only [hi, decide_true, Bool.true_and]
  repeat' split
  all_goals first | omega | rfl | (congr 1; omega)

@[simp] theorem encXP_2_5 (op : BitVec 6) (c : BitVec 5) (l : BitVec 4) (d : BitVec 5) (a : BitVec 5) (b : BitVec 5) (z : BitVec 2) :
    fld (encXP op c l d a b z) 2 5 = b := by
  unfold fld encXP; rw [BitVec.extractLsb'_cast]
  rw [BitVec.extractLsb'_append_eq_of_le (by decide),
    BitVec.extractLsb'_append_eq_of_add_le (by decide)]
  exact BitVec.extractLsb'_eq_self

@[simp] theorem encXP_7_5 (op : BitVec 6) (c : BitVec 5) (l : BitVec 4) (d : BitVec 5) (a : BitVec 5) (b : BitVec 5) (z : BitVec 2) :
    fld (encXP op c l d a b z) 7 5 = a := by
  unfold fld encXP; rw [BitVec.extractLsb'_cast]
  rw [BitVec.extractLsb'_append_eq_of_le (by decide),
    BitVec.extractLsb'_append_eq_of_le (by decide),
    BitVec.extractLsb'_append_eq_of_add_le (by decide)]
  exact BitVec.extractLsb'_eq_self

@[simp] theorem encXP_12_5 (op : BitVec 6) (c : BitVec 5) (l : BitVec 4) (d : BitVec 5) (a : BitVec 5) (b : BitVec 5) (z : BitVec 2) :
    fld (encXP op c l d a b z) 12 5 = d := by
  unfold fld encXP; rw [BitVec.extractLsb'_cast]
  rw [BitVec.extractLsb'_append_eq_of_le (by decide),
    BitVec.extractLsb'_append_eq_of_le (by decide),
    BitVec.extractLsb'_append_eq_of_le (by decide),
    BitVec.extractLsb'_append_eq_of_add_le (by decide)]
  exact BitVec.extractLsb'_eq_self

@[simp] theorem encXP_17_4 (op : BitVec 6) (c : BitVec 5) (l : BitVec 4) (d : BitVec 5) (a : BitVec 5) (b : BitVec 5) (z : BitVec 2) :
    fld (encXP op c l d a b z) 17 4 = l := by
  unfold fld encXP; rw [BitVec.extractLsb'_cast]
  rw [BitVec.extractLsb'_append_eq_of_le (by decide),
    BitVec.extractLsb'_append_eq_of_le (by decide),
    BitVec.extractLsb'_append_eq_of_le (by decide),
    BitVec.extractLsb'_append_eq_of_le (by decide),
    BitVec.extractLsb'_append_eq_of_add_le (by decide)]
  exact BitVec.extractLsb'_eq_self

@[simp] theorem encXP_21_5 (op : BitVec 6) (c : BitVec 5) (l : BitVec 4) (d : BitVec 5) (a : BitVec 5) (b : BitVec 5) (z : BitVec 2) :
    fld (encXP op c l d a b z) 21 5 = c := by
  unfold fld encXP; rw [BitVec.extractLsb'_cast]
  rw [BitVec.extractLsb'_append_eq_of_le (by decide),
    BitVec.extractLsb'_append_eq_of_le (by decide),
    BitVec.extractLsb'_append_eq_of_le (by decide),
    BitVec.extractLsb'_append_eq_of_le (by decide),
    BitVec.extractLsb'_append_eq_of_le (by decide),
    BitVec.extractLsb'_append_eq_of_add_le (by decide)]
  exact BitVec.extractLsb'_eq_self

@[simp] theorem encXP_26_6 (op : BitVec 6) (c : BitVec 5) (l : BitVec 4) (d : BitVec 5) (a : BitVec 5) (b : BitVec 5) (z : BitVec 2) :
    fld (encXP op c l d a b z) 26 6 = op := by
  unfold fld encXP; rw [BitVec.extractLsb'_cast]
  rw [BitVec.extractLsb'_append_eq_of_le (by decide),
    BitVec.extractLsb'_append_eq_of_le (by decide),
    BitVec.extractLsb'_append_eq_of_le (by decide),
    BitVec.extractLsb'_append_eq_of_le (by decide),
    BitVec.extractLsb'_append_eq_of_le (by decide),
    BitVec.extractLsb'_append_eq_of_le (by decide)]
  exact BitVec.extractLsb'_eq_self

@[simp] theorem encXY_0_13 (op : BitVec 6) (d : BitVec 5) (a : BitVec 5) (fn : BitVec 3) (s : BitVec 13) :
    fld (encXY op d a fn s) 0 13 = s := by
  unfold fld encXY; rw [BitVec.extractLsb'_cast]
  rw [BitVec.extractLsb'_append_eq_of_add_le (by decide)]
  exact BitVec.extractLsb'_eq_self

@[simp] theorem encXY_13_3 (op : BitVec 6) (d : BitVec 5) (a : BitVec 5) (fn : BitVec 3) (s : BitVec 13) :
    fld (encXY op d a fn s) 13 3 = fn := by
  unfold fld encXY; rw [BitVec.extractLsb'_cast]
  rw [BitVec.extractLsb'_append_eq_of_le (by decide),
    BitVec.extractLsb'_append_eq_of_add_le (by decide)]
  exact BitVec.extractLsb'_eq_self

@[simp] theorem encXY_16_5 (op : BitVec 6) (d : BitVec 5) (a : BitVec 5) (fn : BitVec 3) (s : BitVec 13) :
    fld (encXY op d a fn s) 16 5 = a := by
  unfold fld encXY; rw [BitVec.extractLsb'_cast]
  rw [BitVec.extractLsb'_append_eq_of_le (by decide),
    BitVec.extractLsb'_append_eq_of_le (by decide),
    BitVec.extractLsb'_append_eq_of_add_le (by decide)]
  exact BitVec.extractLsb'_eq_self

@[simp] theorem encXY_16_10 (op : BitVec 6) (d : BitVec 5) (a : BitVec 5) (fn : BitVec 3) (s : BitVec 13) :
    fld (encXY op d a fn s) 16 10 = d ++ a := by
  apply BitVec.eq_of_getLsbD_eq; intro i hi
  simp only [fld, encXY, BitVec.getLsbD_extractLsb', BitVec.getLsbD_cast, BitVec.getLsbD_append]
  simp only [hi, decide_true, Bool.true_and]
  repeat' split
  all_goals first | omega | rfl | (congr 1; omega)

@[simp] theorem encXY_21_5 (op : BitVec 6) (d : BitVec 5) (a : BitVec 5) (fn : BitVec 3) (s : BitVec 13) :
    fld (encXY op d a fn s) 21 5 = d := by
  unfold fld encXY; rw [BitVec.extractLsb'_cast]
  rw [BitVec.extractLsb'_append_eq_of_le (by decide),
    BitVec.extractLsb'_append_eq_of_le (by decide),
    BitVec.extractLsb'_append_eq_of_le (by decide),
    BitVec.extractLsb'_append_eq_of_add_le (by decide)]
  exact BitVec.extractLsb'_eq_self

@[simp] theorem encXY_26_6 (op : BitVec 6) (d : BitVec 5) (a : BitVec 5) (fn : BitVec 3) (s : BitVec 13) :
    fld (encXY op d a fn s) 26 6 = op := by
  unfold fld encXY; rw [BitVec.extractLsb'_cast]
  rw [BitVec.extractLsb'_append_eq_of_le (by decide),
    BitVec.extractLsb'_append_eq_of_le (by decide),
    BitVec.extractLsb'_append_eq_of_le (by decide),
    BitVec.extractLsb'_append_eq_of_le (by decide)]
  exact BitVec.extractLsb'_eq_self

@[simp] theorem encXV_0_3 (op : BitVec 6) (v : BitVec 5) (a : BitVec 5) (b : BitVec 5) (fn : BitVec 2) (m : BitVec 2) (u : BitVec 1) (z : BitVec 2) (e : BitVec 1) (n : BitVec 3) :
    fld (encXV op v a b fn m u z e n) 0 3 = n := by
  unfold fld encXV; rw [BitVec.extractLsb'_cast]
  rw [BitVec.extractLsb'_append_eq_of_add_le (by decide)]
  exact BitVec.extractLsb'_eq_self

@[simp] theorem encXV_0_4 (op : BitVec 6) (v : BitVec 5) (a : BitVec 5) (b : BitVec 5) (fn : BitVec 2) (m : BitVec 2) (u : BitVec 1) (z : BitVec 2) (e : BitVec 1) (n : BitVec 3) :
    fld (encXV op v a b fn m u z e n) 0 4 = e ++ n := by
  apply BitVec.eq_of_getLsbD_eq; intro i hi
  simp only [fld, encXV, BitVec.getLsbD_extractLsb', BitVec.getLsbD_cast, BitVec.getLsbD_append]
  simp only [hi, decide_true, Bool.true_and]
  repeat' split
  all_goals first | omega | rfl | (congr 1; omega)

@[simp] theorem encXV_3_1 (op : BitVec 6) (v : BitVec 5) (a : BitVec 5) (b : BitVec 5) (fn : BitVec 2) (m : BitVec 2) (u : BitVec 1) (z : BitVec 2) (e : BitVec 1) (n : BitVec 3) :
    fld (encXV op v a b fn m u z e n) 3 1 = e := by
  unfold fld encXV; rw [BitVec.extractLsb'_cast]
  rw [BitVec.extractLsb'_append_eq_of_le (by decide),
    BitVec.extractLsb'_append_eq_of_add_le (by decide)]
  exact BitVec.extractLsb'_eq_self

@[simp] theorem encXV_4_2 (op : BitVec 6) (v : BitVec 5) (a : BitVec 5) (b : BitVec 5) (fn : BitVec 2) (m : BitVec 2) (u : BitVec 1) (z : BitVec 2) (e : BitVec 1) (n : BitVec 3) :
    fld (encXV op v a b fn m u z e n) 4 2 = z := by
  unfold fld encXV; rw [BitVec.extractLsb'_cast]
  rw [BitVec.extractLsb'_append_eq_of_le (by decide),
    BitVec.extractLsb'_append_eq_of_le (by decide),
    BitVec.extractLsb'_append_eq_of_add_le (by decide)]
  exact BitVec.extractLsb'_eq_self

@[simp] theorem encXV_6_1 (op : BitVec 6) (v : BitVec 5) (a : BitVec 5) (b : BitVec 5) (fn : BitVec 2) (m : BitVec 2) (u : BitVec 1) (z : BitVec 2) (e : BitVec 1) (n : BitVec 3) :
    fld (encXV op v a b fn m u z e n) 6 1 = u := by
  unfold fld encXV; rw [BitVec.extractLsb'_cast]
  rw [BitVec.extractLsb'_append_eq_of_le (by decide),
    BitVec.extractLsb'_append_eq_of_le (by decide),
    BitVec.extractLsb'_append_eq_of_le (by decide),
    BitVec.extractLsb'_append_eq_of_add_le (by decide)]
  exact BitVec.extractLsb'_eq_self

@[simp] theorem encXV_7_2 (op : BitVec 6) (v : BitVec 5) (a : BitVec 5) (b : BitVec 5) (fn : BitVec 2) (m : BitVec 2) (u : BitVec 1) (z : BitVec 2) (e : BitVec 1) (n : BitVec 3) :
    fld (encXV op v a b fn m u z e n) 7 2 = m := by
  unfold fld encXV; rw [BitVec.extractLsb'_cast]
  rw [BitVec.extractLsb'_append_eq_of_le (by decide),
    BitVec.extractLsb'_append_eq_of_le (by decide),
    BitVec.extractLsb'_append_eq_of_le (by decide),
    BitVec.extractLsb'_append_eq_of_le (by decide),
    BitVec.extractLsb'_append_eq_of_add_le (by decide)]
  exact BitVec.extractLsb'_eq_self

@[simp] theorem encXV_9_2 (op : BitVec 6) (v : BitVec 5) (a : BitVec 5) (b : BitVec 5) (fn : BitVec 2) (m : BitVec 2) (u : BitVec 1) (z : BitVec 2) (e : BitVec 1) (n : BitVec 3) :
    fld (encXV op v a b fn m u z e n) 9 2 = fn := by
  unfold fld encXV; rw [BitVec.extractLsb'_cast]
  rw [BitVec.extractLsb'_append_eq_of_le (by decide),
    BitVec.extractLsb'_append_eq_of_le (by decide),
    BitVec.extractLsb'_append_eq_of_le (by decide),
    BitVec.extractLsb'_append_eq_of_le (by decide),
    BitVec.extractLsb'_append_eq_of_le (by decide),
    BitVec.extractLsb'_append_eq_of_add_le (by decide)]
  exact BitVec.extractLsb'_eq_self

@[simp] theorem encXV_11_5 (op : BitVec 6) (v : BitVec 5) (a : BitVec 5) (b : BitVec 5) (fn : BitVec 2) (m : BitVec 2) (u : BitVec 1) (z : BitVec 2) (e : BitVec 1) (n : BitVec 3) :
    fld (encXV op v a b fn m u z e n) 11 5 = b := by
  unfold fld encXV; rw [BitVec.extractLsb'_cast]
  rw [BitVec.extractLsb'_append_eq_of_le (by decide),
    BitVec.extractLsb'_append_eq_of_le (by decide),
    BitVec.extractLsb'_append_eq_of_le (by decide),
    BitVec.extractLsb'_append_eq_of_le (by decide),
    BitVec.extractLsb'_append_eq_of_le (by decide),
    BitVec.extractLsb'_append_eq_of_le (by decide),
    BitVec.extractLsb'_append_eq_of_add_le (by decide)]
  exact BitVec.extractLsb'_eq_self

@[simp] theorem encXV_16_5 (op : BitVec 6) (v : BitVec 5) (a : BitVec 5) (b : BitVec 5) (fn : BitVec 2) (m : BitVec 2) (u : BitVec 1) (z : BitVec 2) (e : BitVec 1) (n : BitVec 3) :
    fld (encXV op v a b fn m u z e n) 16 5 = a := by
  unfold fld encXV; rw [BitVec.extractLsb'_cast]
  rw [BitVec.extractLsb'_append_eq_of_le (by decide),
    BitVec.extractLsb'_append_eq_of_le (by decide),
    BitVec.extractLsb'_append_eq_of_le (by decide),
    BitVec.extractLsb'_append_eq_of_le (by decide),
    BitVec.extractLsb'_append_eq_of_le (by decide),
    BitVec.extractLsb'_append_eq_of_le (by decide),
    BitVec.extractLsb'_append_eq_of_le (by decide),
    BitVec.extractLsb'_append_eq_of_add_le (by decide)]
  exact BitVec.extractLsb'_eq_self

@[simp] theorem encXV_21_5 (op : BitVec 6) (v : BitVec 5) (a : BitVec 5) (b : BitVec 5) (fn : BitVec 2) (m : BitVec 2) (u : BitVec 1) (z : BitVec 2) (e : BitVec 1) (n : BitVec 3) :
    fld (encXV op v a b fn m u z e n) 21 5 = v := by
  unfold fld encXV; rw [BitVec.extractLsb'_cast]
  rw [BitVec.extractLsb'_append_eq_of_le (by decide),
    BitVec.extractLsb'_append_eq_of_le (by decide),
    BitVec.extractLsb'_append_eq_of_le (by decide),
    BitVec.extractLsb'_append_eq_of_le (by decide),
    BitVec.extractLsb'_append_eq_of_le (by decide),
    BitVec.extractLsb'_append_eq_of_le (by decide),
    BitVec.extractLsb'_append_eq_of_le (by decide),
    BitVec.extractLsb'_append_eq_of_le (by decide),
    BitVec.extractLsb'_append_eq_of_add_le (by decide)]
  exact BitVec.extractLsb'_eq_self

@[simp] theorem encXV_26_6 (op : BitVec 6) (v : BitVec 5) (a : BitVec 5) (b : BitVec 5) (fn : BitVec 2) (m : BitVec 2) (u : BitVec 1) (z : BitVec 2) (e : BitVec 1) (n : BitVec 3) :
    fld (encXV op v a b fn m u z e n) 26 6 = op := by
  unfold fld encXV; rw [BitVec.extractLsb'_cast]
  rw [BitVec.extractLsb'_append_eq_of_le (by decide),
    BitVec.extractLsb'_append_eq_of_le (by decide),
    BitVec.extractLsb'_append_eq_of_le (by decide),
    BitVec.extractLsb'_append_eq_of_le (by decide),
    BitVec.extractLsb'_append_eq_of_le (by decide),
    BitVec.extractLsb'_append_eq_of_le (by decide),
    BitVec.extractLsb'_append_eq_of_le (by decide),
    BitVec.extractLsb'_append_eq_of_le (by decide),
    BitVec.extractLsb'_append_eq_of_le (by decide)]
  exact BitVec.extractLsb'_eq_self

@[simp] theorem encXVP_0_3 (op : BitVec 6) (v : BitVec 5) (y : BitVec 2) (p : BitVec 3) (b : BitVec 5) (fn : BitVec 2) (m : BitVec 2) (u : BitVec 1) (z : BitVec 2) (e : BitVec 1) (n : BitVec 3) :
    fld (encXVP op v y p b fn m u z e n) 0 3 = n := by
  unfold fld encXVP; rw [BitVec.extractLsb'_cast]
  rw [BitVec.extractLsb'_append_eq_of_add_le (by decide)]
  exact BitVec.extractLsb'_eq_self

@[simp] theorem encXVP_0_4 (op : BitVec 6) (v : BitVec 5) (y : BitVec 2) (p : BitVec 3) (b : BitVec 5) (fn : BitVec 2) (m : BitVec 2) (u : BitVec 1) (z : BitVec 2) (e : BitVec 1) (n : BitVec 3) :
    fld (encXVP op v y p b fn m u z e n) 0 4 = e ++ n := by
  apply BitVec.eq_of_getLsbD_eq; intro i hi
  simp only [fld, encXVP, BitVec.getLsbD_extractLsb', BitVec.getLsbD_cast, BitVec.getLsbD_append]
  simp only [hi, decide_true, Bool.true_and]
  repeat' split
  all_goals first | omega | rfl | (congr 1; omega)

@[simp] theorem encXVP_3_1 (op : BitVec 6) (v : BitVec 5) (y : BitVec 2) (p : BitVec 3) (b : BitVec 5) (fn : BitVec 2) (m : BitVec 2) (u : BitVec 1) (z : BitVec 2) (e : BitVec 1) (n : BitVec 3) :
    fld (encXVP op v y p b fn m u z e n) 3 1 = e := by
  unfold fld encXVP; rw [BitVec.extractLsb'_cast]
  rw [BitVec.extractLsb'_append_eq_of_le (by decide),
    BitVec.extractLsb'_append_eq_of_add_le (by decide)]
  exact BitVec.extractLsb'_eq_self

@[simp] theorem encXVP_4_2 (op : BitVec 6) (v : BitVec 5) (y : BitVec 2) (p : BitVec 3) (b : BitVec 5) (fn : BitVec 2) (m : BitVec 2) (u : BitVec 1) (z : BitVec 2) (e : BitVec 1) (n : BitVec 3) :
    fld (encXVP op v y p b fn m u z e n) 4 2 = z := by
  unfold fld encXVP; rw [BitVec.extractLsb'_cast]
  rw [BitVec.extractLsb'_append_eq_of_le (by decide),
    BitVec.extractLsb'_append_eq_of_le (by decide),
    BitVec.extractLsb'_append_eq_of_add_le (by decide)]
  exact BitVec.extractLsb'_eq_self

@[simp] theorem encXVP_6_1 (op : BitVec 6) (v : BitVec 5) (y : BitVec 2) (p : BitVec 3) (b : BitVec 5) (fn : BitVec 2) (m : BitVec 2) (u : BitVec 1) (z : BitVec 2) (e : BitVec 1) (n : BitVec 3) :
    fld (encXVP op v y p b fn m u z e n) 6 1 = u := by
  unfold fld encXVP; rw [BitVec.extractLsb'_cast]
  rw [BitVec.extractLsb'_append_eq_of_le (by decide),
    BitVec.extractLsb'_append_eq_of_le (by decide),
    BitVec.extractLsb'_append_eq_of_le (by decide),
    BitVec.extractLsb'_append_eq_of_add_le (by decide)]
  exact BitVec.extractLsb'_eq_self

@[simp] theorem encXVP_7_2 (op : BitVec 6) (v : BitVec 5) (y : BitVec 2) (p : BitVec 3) (b : BitVec 5) (fn : BitVec 2) (m : BitVec 2) (u : BitVec 1) (z : BitVec 2) (e : BitVec 1) (n : BitVec 3) :
    fld (encXVP op v y p b fn m u z e n) 7 2 = m := by
  unfold fld encXVP; rw [BitVec.extractLsb'_cast]
  rw [BitVec.extractLsb'_append_eq_of_le (by decide),
    BitVec.extractLsb'_append_eq_of_le (by decide),
    BitVec.extractLsb'_append_eq_of_le (by decide),
    BitVec.extractLsb'_append_eq_of_le (by decide),
    BitVec.extractLsb'_append_eq_of_add_le (by decide)]
  exact BitVec.extractLsb'_eq_self

@[simp] theorem encXVP_9_2 (op : BitVec 6) (v : BitVec 5) (y : BitVec 2) (p : BitVec 3) (b : BitVec 5) (fn : BitVec 2) (m : BitVec 2) (u : BitVec 1) (z : BitVec 2) (e : BitVec 1) (n : BitVec 3) :
    fld (encXVP op v y p b fn m u z e n) 9 2 = fn := by
  unfold fld encXVP; rw [BitVec.extractLsb'_cast]
  rw [BitVec.extractLsb'_append_eq_of_le (by decide),
    BitVec.extractLsb'_append_eq_of_le (by decide),
    BitVec.extractLsb'_append_eq_of_le (by decide),
    BitVec.extractLsb'_append_eq_of_le (by decide),
    BitVec.extractLsb'_append_eq_of_le (by decide),
    BitVec.extractLsb'_append_eq_of_add_le (by decide)]
  exact BitVec.extractLsb'_eq_self

@[simp] theorem encXVP_11_5 (op : BitVec 6) (v : BitVec 5) (y : BitVec 2) (p : BitVec 3) (b : BitVec 5) (fn : BitVec 2) (m : BitVec 2) (u : BitVec 1) (z : BitVec 2) (e : BitVec 1) (n : BitVec 3) :
    fld (encXVP op v y p b fn m u z e n) 11 5 = b := by
  unfold fld encXVP; rw [BitVec.extractLsb'_cast]
  rw [BitVec.extractLsb'_append_eq_of_le (by decide),
    BitVec.extractLsb'_append_eq_of_le (by decide),
    BitVec.extractLsb'_append_eq_of_le (by decide),
    BitVec.extractLsb'_append_eq_of_le (by decide),
    BitVec.extractLsb'_append_eq_of_le (by decide),
    BitVec.extractLsb'_append_eq_of_le (by decide),
    BitVec.extractLsb'_append_eq_of_add_le (by decide)]
  exact BitVec.extractLsb'_eq_self

@[simp] theorem encXVP_16_3 (op : BitVec 6) (v : BitVec 5) (y : BitVec 2) (p : BitVec 3) (b : BitVec 5) (fn : BitVec 2) (m : BitVec 2) (u : BitVec 1) (z : BitVec 2) (e : BitVec 1) (n : BitVec 3) :
    fld (encXVP op v y p b fn m u z e n) 16 3 = p := by
  unfold fld encXVP; rw [BitVec.extractLsb'_cast]
  rw [BitVec.extractLsb'_append_eq_of_le (by decide),
    BitVec.extractLsb'_append_eq_of_le (by decide),
    BitVec.extractLsb'_append_eq_of_le (by decide),
    BitVec.extractLsb'_append_eq_of_le (by decide),
    BitVec.extractLsb'_append_eq_of_le (by decide),
    BitVec.extractLsb'_append_eq_of_le (by decide),
    BitVec.extractLsb'_append_eq_of_le (by decide),
    BitVec.extractLsb'_append_eq_of_add_le (by decide)]
  exact BitVec.extractLsb'_eq_self

@[simp] theorem encXVP_16_5 (op : BitVec 6) (v : BitVec 5) (y : BitVec 2) (p : BitVec 3) (b : BitVec 5) (fn : BitVec 2) (m : BitVec 2) (u : BitVec 1) (z : BitVec 2) (e : BitVec 1) (n : BitVec 3) :
    fld (encXVP op v y p b fn m u z e n) 16 5 = y ++ p := by
  apply BitVec.eq_of_getLsbD_eq; intro i hi
  simp only [fld, encXVP, BitVec.getLsbD_extractLsb', BitVec.getLsbD_cast, BitVec.getLsbD_append]
  simp only [hi, decide_true, Bool.true_and]
  repeat' split
  all_goals first | omega | rfl | (congr 1; omega)

@[simp] theorem encXVP_19_2 (op : BitVec 6) (v : BitVec 5) (y : BitVec 2) (p : BitVec 3) (b : BitVec 5) (fn : BitVec 2) (m : BitVec 2) (u : BitVec 1) (z : BitVec 2) (e : BitVec 1) (n : BitVec 3) :
    fld (encXVP op v y p b fn m u z e n) 19 2 = y := by
  unfold fld encXVP; rw [BitVec.extractLsb'_cast]
  rw [BitVec.extractLsb'_append_eq_of_le (by decide),
    BitVec.extractLsb'_append_eq_of_le (by decide),
    BitVec.extractLsb'_append_eq_of_le (by decide),
    BitVec.extractLsb'_append_eq_of_le (by decide),
    BitVec.extractLsb'_append_eq_of_le (by decide),
    BitVec.extractLsb'_append_eq_of_le (by decide),
    BitVec.extractLsb'_append_eq_of_le (by decide),
    BitVec.extractLsb'_append_eq_of_le (by decide),
    BitVec.extractLsb'_append_eq_of_add_le (by decide)]
  exact BitVec.extractLsb'_eq_self

@[simp] theorem encXVP_21_5 (op : BitVec 6) (v : BitVec 5) (y : BitVec 2) (p : BitVec 3) (b : BitVec 5) (fn : BitVec 2) (m : BitVec 2) (u : BitVec 1) (z : BitVec 2) (e : BitVec 1) (n : BitVec 3) :
    fld (encXVP op v y p b fn m u z e n) 21 5 = v := by
  unfold fld encXVP; rw [BitVec.extractLsb'_cast]
  rw [BitVec.extractLsb'_append_eq_of_le (by decide),
    BitVec.extractLsb'_append_eq_of_le (by decide),
    BitVec.extractLsb'_append_eq_of_le (by decide),
    BitVec.extractLsb'_append_eq_of_le (by decide),
    BitVec.extractLsb'_append_eq_of_le (by decide),
    BitVec.extractLsb'_append_eq_of_le (by decide),
    BitVec.extractLsb'_append_eq_of_le (by decide),
    BitVec.extractLsb'_append_eq_of_le (by decide),
    BitVec.extractLsb'_append_eq_of_le (by decide),
    BitVec.extractLsb'_append_eq_of_add_le (by decide)]
  exact BitVec.extractLsb'_eq_self

@[simp] theorem encXVP_26_6 (op : BitVec 6) (v : BitVec 5) (y : BitVec 2) (p : BitVec 3) (b : BitVec 5) (fn : BitVec 2) (m : BitVec 2) (u : BitVec 1) (z : BitVec 2) (e : BitVec 1) (n : BitVec 3) :
    fld (encXVP op v y p b fn m u z e n) 26 6 = op := by
  unfold fld encXVP; rw [BitVec.extractLsb'_cast]
  rw [BitVec.extractLsb'_append_eq_of_le (by decide),
    BitVec.extractLsb'_append_eq_of_le (by decide),
    BitVec.extractLsb'_append_eq_of_le (by decide),
    BitVec.extractLsb'_append_eq_of_le (by decide),
    BitVec.extractLsb'_append_eq_of_le (by decide),
    BitVec.extractLsb'_append_eq_of_le (by decide),
    BitVec.extractLsb'_append_eq_of_le (by decide),
    BitVec.extractLsb'_append_eq_of_le (by decide),
    BitVec.extractLsb'_append_eq_of_le (by decide),
    BitVec.extractLsb'_append_eq_of_le (by decide)]
  exact BitVec.extractLsb'_eq_self

@[simp] theorem encX3_0_8 (op : BitVec 6) (d : BitVec 3) (a : BitVec 3) (b : BitVec 3) (t : BitVec 3) (fn : BitVec 3) (r : BitVec 3) (z : BitVec 8) :
    fld (encX3 op d a b t fn r z) 0 8 = z := by
  unfold fld encX3; rw [BitVec.extractLsb'_cast]
  rw [BitVec.extractLsb'_append_eq_of_add_le (by decide)]
  exact BitVec.extractLsb'_eq_self

@[simp] theorem encX3_8_3 (op : BitVec 6) (d : BitVec 3) (a : BitVec 3) (b : BitVec 3) (t : BitVec 3) (fn : BitVec 3) (r : BitVec 3) (z : BitVec 8) :
    fld (encX3 op d a b t fn r z) 8 3 = r := by
  unfold fld encX3; rw [BitVec.extractLsb'_cast]
  rw [BitVec.extractLsb'_append_eq_of_le (by decide),
    BitVec.extractLsb'_append_eq_of_add_le (by decide)]
  exact BitVec.extractLsb'_eq_self

@[simp] theorem encX3_11_3 (op : BitVec 6) (d : BitVec 3) (a : BitVec 3) (b : BitVec 3) (t : BitVec 3) (fn : BitVec 3) (r : BitVec 3) (z : BitVec 8) :
    fld (encX3 op d a b t fn r z) 11 3 = fn := by
  unfold fld encX3; rw [BitVec.extractLsb'_cast]
  rw [BitVec.extractLsb'_append_eq_of_le (by decide),
    BitVec.extractLsb'_append_eq_of_le (by decide),
    BitVec.extractLsb'_append_eq_of_add_le (by decide)]
  exact BitVec.extractLsb'_eq_self

@[simp] theorem encX3_14_3 (op : BitVec 6) (d : BitVec 3) (a : BitVec 3) (b : BitVec 3) (t : BitVec 3) (fn : BitVec 3) (r : BitVec 3) (z : BitVec 8) :
    fld (encX3 op d a b t fn r z) 14 3 = t := by
  unfold fld encX3; rw [BitVec.extractLsb'_cast]
  rw [BitVec.extractLsb'_append_eq_of_le (by decide),
    BitVec.extractLsb'_append_eq_of_le (by decide),
    BitVec.extractLsb'_append_eq_of_le (by decide),
    BitVec.extractLsb'_append_eq_of_add_le (by decide)]
  exact BitVec.extractLsb'_eq_self

@[simp] theorem encX3_17_3 (op : BitVec 6) (d : BitVec 3) (a : BitVec 3) (b : BitVec 3) (t : BitVec 3) (fn : BitVec 3) (r : BitVec 3) (z : BitVec 8) :
    fld (encX3 op d a b t fn r z) 17 3 = b := by
  unfold fld encX3; rw [BitVec.extractLsb'_cast]
  rw [BitVec.extractLsb'_append_eq_of_le (by decide),
    BitVec.extractLsb'_append_eq_of_le (by decide),
    BitVec.extractLsb'_append_eq_of_le (by decide),
    BitVec.extractLsb'_append_eq_of_le (by decide),
    BitVec.extractLsb'_append_eq_of_add_le (by decide)]
  exact BitVec.extractLsb'_eq_self

@[simp] theorem encX3_20_3 (op : BitVec 6) (d : BitVec 3) (a : BitVec 3) (b : BitVec 3) (t : BitVec 3) (fn : BitVec 3) (r : BitVec 3) (z : BitVec 8) :
    fld (encX3 op d a b t fn r z) 20 3 = a := by
  unfold fld encX3; rw [BitVec.extractLsb'_cast]
  rw [BitVec.extractLsb'_append_eq_of_le (by decide),
    BitVec.extractLsb'_append_eq_of_le (by decide),
    BitVec.extractLsb'_append_eq_of_le (by decide),
    BitVec.extractLsb'_append_eq_of_le (by decide),
    BitVec.extractLsb'_append_eq_of_le (by decide),
    BitVec.extractLsb'_append_eq_of_add_le (by decide)]
  exact BitVec.extractLsb'_eq_self

@[simp] theorem encX3_23_3 (op : BitVec 6) (d : BitVec 3) (a : BitVec 3) (b : BitVec 3) (t : BitVec 3) (fn : BitVec 3) (r : BitVec 3) (z : BitVec 8) :
    fld (encX3 op d a b t fn r z) 23 3 = d := by
  unfold fld encX3; rw [BitVec.extractLsb'_cast]
  rw [BitVec.extractLsb'_append_eq_of_le (by decide),
    BitVec.extractLsb'_append_eq_of_le (by decide),
    BitVec.extractLsb'_append_eq_of_le (by decide),
    BitVec.extractLsb'_append_eq_of_le (by decide),
    BitVec.extractLsb'_append_eq_of_le (by decide),
    BitVec.extractLsb'_append_eq_of_le (by decide),
    BitVec.extractLsb'_append_eq_of_add_le (by decide)]
  exact BitVec.extractLsb'_eq_self

@[simp] theorem encX3_26_6 (op : BitVec 6) (d : BitVec 3) (a : BitVec 3) (b : BitVec 3) (t : BitVec 3) (fn : BitVec 3) (r : BitVec 3) (z : BitVec 8) :
    fld (encX3 op d a b t fn r z) 26 6 = op := by
  unfold fld encX3; rw [BitVec.extractLsb'_cast]
  rw [BitVec.extractLsb'_append_eq_of_le (by decide),
    BitVec.extractLsb'_append_eq_of_le (by decide),
    BitVec.extractLsb'_append_eq_of_le (by decide),
    BitVec.extractLsb'_append_eq_of_le (by decide),
    BitVec.extractLsb'_append_eq_of_le (by decide),
    BitVec.extractLsb'_append_eq_of_le (by decide),
    BitVec.extractLsb'_append_eq_of_le (by decide)]
  exact BitVec.extractLsb'_eq_self

@[simp] theorem encCvt_0_1 (op : BitVec 6) (d : BitVec 5) (a : BitVec 5) (b : BitVec 5) (s : BitVec 1) (m : BitVec 2) (u : BitVec 1) (t : BitVec 3) (r : BitVec 3) (k : BitVec 1) :
    fld (encCvt op d a b s m u t r k) 0 1 = k := by
  unfold fld encCvt; rw [BitVec.extractLsb'_cast]
  rw [BitVec.extractLsb'_append_eq_of_add_le (by decide)]
  exact BitVec.extractLsb'_eq_self

@[simp] theorem encCvt_1_3 (op : BitVec 6) (d : BitVec 5) (a : BitVec 5) (b : BitVec 5) (s : BitVec 1) (m : BitVec 2) (u : BitVec 1) (t : BitVec 3) (r : BitVec 3) (k : BitVec 1) :
    fld (encCvt op d a b s m u t r k) 1 3 = r := by
  unfold fld encCvt; rw [BitVec.extractLsb'_cast]
  rw [BitVec.extractLsb'_append_eq_of_le (by decide),
    BitVec.extractLsb'_append_eq_of_add_le (by decide)]
  exact BitVec.extractLsb'_eq_self

@[simp] theorem encCvt_4_3 (op : BitVec 6) (d : BitVec 5) (a : BitVec 5) (b : BitVec 5) (s : BitVec 1) (m : BitVec 2) (u : BitVec 1) (t : BitVec 3) (r : BitVec 3) (k : BitVec 1) :
    fld (encCvt op d a b s m u t r k) 4 3 = t := by
  unfold fld encCvt; rw [BitVec.extractLsb'_cast]
  rw [BitVec.extractLsb'_append_eq_of_le (by decide),
    BitVec.extractLsb'_append_eq_of_le (by decide),
    BitVec.extractLsb'_append_eq_of_add_le (by decide)]
  exact BitVec.extractLsb'_eq_self

@[simp] theorem encCvt_7_1 (op : BitVec 6) (d : BitVec 5) (a : BitVec 5) (b : BitVec 5) (s : BitVec 1) (m : BitVec 2) (u : BitVec 1) (t : BitVec 3) (r : BitVec 3) (k : BitVec 1) :
    fld (encCvt op d a b s m u t r k) 7 1 = u := by
  unfold fld encCvt; rw [BitVec.extractLsb'_cast]
  rw [BitVec.extractLsb'_append_eq_of_le (by decide),
    BitVec.extractLsb'_append_eq_of_le (by decide),
    BitVec.extractLsb'_append_eq_of_le (by decide),
    BitVec.extractLsb'_append_eq_of_add_le (by decide)]
  exact BitVec.extractLsb'_eq_self

@[simp] theorem encCvt_8_2 (op : BitVec 6) (d : BitVec 5) (a : BitVec 5) (b : BitVec 5) (s : BitVec 1) (m : BitVec 2) (u : BitVec 1) (t : BitVec 3) (r : BitVec 3) (k : BitVec 1) :
    fld (encCvt op d a b s m u t r k) 8 2 = m := by
  unfold fld encCvt; rw [BitVec.extractLsb'_cast]
  rw [BitVec.extractLsb'_append_eq_of_le (by decide),
    BitVec.extractLsb'_append_eq_of_le (by decide),
    BitVec.extractLsb'_append_eq_of_le (by decide),
    BitVec.extractLsb'_append_eq_of_le (by decide),
    BitVec.extractLsb'_append_eq_of_add_le (by decide)]
  exact BitVec.extractLsb'_eq_self

@[simp] theorem encCvt_10_1 (op : BitVec 6) (d : BitVec 5) (a : BitVec 5) (b : BitVec 5) (s : BitVec 1) (m : BitVec 2) (u : BitVec 1) (t : BitVec 3) (r : BitVec 3) (k : BitVec 1) :
    fld (encCvt op d a b s m u t r k) 10 1 = s := by
  unfold fld encCvt; rw [BitVec.extractLsb'_cast]
  rw [BitVec.extractLsb'_append_eq_of_le (by decide),
    BitVec.extractLsb'_append_eq_of_le (by decide),
    BitVec.extractLsb'_append_eq_of_le (by decide),
    BitVec.extractLsb'_append_eq_of_le (by decide),
    BitVec.extractLsb'_append_eq_of_le (by decide),
    BitVec.extractLsb'_append_eq_of_add_le (by decide)]
  exact BitVec.extractLsb'_eq_self

@[simp] theorem encCvt_11_5 (op : BitVec 6) (d : BitVec 5) (a : BitVec 5) (b : BitVec 5) (s : BitVec 1) (m : BitVec 2) (u : BitVec 1) (t : BitVec 3) (r : BitVec 3) (k : BitVec 1) :
    fld (encCvt op d a b s m u t r k) 11 5 = b := by
  unfold fld encCvt; rw [BitVec.extractLsb'_cast]
  rw [BitVec.extractLsb'_append_eq_of_le (by decide),
    BitVec.extractLsb'_append_eq_of_le (by decide),
    BitVec.extractLsb'_append_eq_of_le (by decide),
    BitVec.extractLsb'_append_eq_of_le (by decide),
    BitVec.extractLsb'_append_eq_of_le (by decide),
    BitVec.extractLsb'_append_eq_of_le (by decide),
    BitVec.extractLsb'_append_eq_of_add_le (by decide)]
  exact BitVec.extractLsb'_eq_self

@[simp] theorem encCvt_16_5 (op : BitVec 6) (d : BitVec 5) (a : BitVec 5) (b : BitVec 5) (s : BitVec 1) (m : BitVec 2) (u : BitVec 1) (t : BitVec 3) (r : BitVec 3) (k : BitVec 1) :
    fld (encCvt op d a b s m u t r k) 16 5 = a := by
  unfold fld encCvt; rw [BitVec.extractLsb'_cast]
  rw [BitVec.extractLsb'_append_eq_of_le (by decide),
    BitVec.extractLsb'_append_eq_of_le (by decide),
    BitVec.extractLsb'_append_eq_of_le (by decide),
    BitVec.extractLsb'_append_eq_of_le (by decide),
    BitVec.extractLsb'_append_eq_of_le (by decide),
    BitVec.extractLsb'_append_eq_of_le (by decide),
    BitVec.extractLsb'_append_eq_of_le (by decide),
    BitVec.extractLsb'_append_eq_of_add_le (by decide)]
  exact BitVec.extractLsb'_eq_self

@[simp] theorem encCvt_21_5 (op : BitVec 6) (d : BitVec 5) (a : BitVec 5) (b : BitVec 5) (s : BitVec 1) (m : BitVec 2) (u : BitVec 1) (t : BitVec 3) (r : BitVec 3) (k : BitVec 1) :
    fld (encCvt op d a b s m u t r k) 21 5 = d := by
  unfold fld encCvt; rw [BitVec.extractLsb'_cast]
  rw [BitVec.extractLsb'_append_eq_of_le (by decide),
    BitVec.extractLsb'_append_eq_of_le (by decide),
    BitVec.extractLsb'_append_eq_of_le (by decide),
    BitVec.extractLsb'_append_eq_of_le (by decide),
    BitVec.extractLsb'_append_eq_of_le (by decide),
    BitVec.extractLsb'_append_eq_of_le (by decide),
    BitVec.extractLsb'_append_eq_of_le (by decide),
    BitVec.extractLsb'_append_eq_of_le (by decide),
    BitVec.extractLsb'_append_eq_of_add_le (by decide)]
  exact BitVec.extractLsb'_eq_self

@[simp] theorem encCvt_26_6 (op : BitVec 6) (d : BitVec 5) (a : BitVec 5) (b : BitVec 5) (s : BitVec 1) (m : BitVec 2) (u : BitVec 1) (t : BitVec 3) (r : BitVec 3) (k : BitVec 1) :
    fld (encCvt op d a b s m u t r k) 26 6 = op := by
  unfold fld encCvt; rw [BitVec.extractLsb'_cast]
  rw [BitVec.extractLsb'_append_eq_of_le (by decide),
    BitVec.extractLsb'_append_eq_of_le (by decide),
    BitVec.extractLsb'_append_eq_of_le (by decide),
    BitVec.extractLsb'_append_eq_of_le (by decide),
    BitVec.extractLsb'_append_eq_of_le (by decide),
    BitVec.extractLsb'_append_eq_of_le (by decide),
    BitVec.extractLsb'_append_eq_of_le (by decide),
    BitVec.extractLsb'_append_eq_of_le (by decide),
    BitVec.extractLsb'_append_eq_of_le (by decide)]
  exact BitVec.extractLsb'_eq_self


theorem encXM_0_1 (op : BitVec 6) (d a b c : BitVec 5) (fn f : BitVec 3) :
    fld (encXM op d a b c fn f) 0 1 = f.extractLsb' 0 1 := by
  unfold fld encXM; rw [BitVec.extractLsb'_cast, BitVec.extractLsb'_append_eq_of_add_le (by decide)]
theorem encXM_1_2 (op : BitVec 6) (d a b c : BitVec 5) (fn f : BitVec 3) :
    fld (encXM op d a b c fn f) 1 2 = f.extractLsb' 1 2 := by
  unfold fld encXM; rw [BitVec.extractLsb'_cast, BitVec.extractLsb'_append_eq_of_add_le (by decide)]

end Sys2Proof
end

