-- ==== Sys2Proof/Laws/State.lean ====
section
/-! SUPPORT. What the updates of the state leave of each field, and the laws of the accessors: no later proof
unfolds a record update. -/

set_option Elab.async false
namespace Sys2Proof.Machine

/-! ### Fields of the package under an update of the core in focus or of one of its contexts -/

@[simp] theorem State.modCore_coreId (s : State) (f : Core → Core) : (s.modCore f).coreId = s.coreId := rfl
@[simp] theorem State.modCtxAt_coreId (s : State) (c : CtxNo) (f : Ctx → Ctx) : (s.modCtxAt c f).coreId = s.coreId := rfl
@[simp] theorem State.modCtx_coreId (s : State) (f : Ctx → Ctx) : (s.modCtx f).coreId = s.coreId := rfl
@[simp] theorem State.modCore_others (s : State) (f : Core → Core) : (s.modCore f).others = s.others := rfl
@[simp] theorem State.modCtxAt_others (s : State) (c : CtxNo) (f : Ctx → Ctx) : (s.modCtxAt c f).others = s.others := rfl
@[simp] theorem State.modCtx_others (s : State) (f : Ctx → Ctx) : (s.modCtx f).others = s.others := rfl
@[simp] theorem State.modCore_dies (s : State) (f : Core → Core) : (s.modCore f).dies = s.dies := rfl
@[simp] theorem State.modCtxAt_dies (s : State) (c : CtxNo) (f : Ctx → Ctx) : (s.modCtxAt c f).dies = s.dies := rfl
@[simp] theorem State.modCtx_dies (s : State) (f : Ctx → Ctx) : (s.modCtx f).dies = s.dies := rfl
@[simp] theorem State.modCore_bars (s : State) (f : Core → Core) : (s.modCore f).bars = s.bars := rfl
@[simp] theorem State.modCtxAt_bars (s : State) (c : CtxNo) (f : Ctx → Ctx) : (s.modCtxAt c f).bars = s.bars := rfl
@[simp] theorem State.modCtx_bars (s : State) (f : Ctx → Ctx) : (s.modCtx f).bars = s.bars := rfl
@[simp] theorem State.modCore_reds (s : State) (f : Core → Core) : (s.modCore f).reds = s.reds := rfl
@[simp] theorem State.modCtxAt_reds (s : State) (c : CtxNo) (f : Ctx → Ctx) : (s.modCtxAt c f).reds = s.reds := rfl
@[simp] theorem State.modCtx_reds (s : State) (f : Ctx → Ctx) : (s.modCtx f).reds = s.reds := rfl
@[simp] theorem State.modCore_dram (s : State) (f : Core → Core) : (s.modCore f).dram = s.dram := rfl
@[simp] theorem State.modCtxAt_dram (s : State) (c : CtxNo) (f : Ctx → Ctx) : (s.modCtxAt c f).dram = s.dram := rfl
@[simp] theorem State.modCtx_dram (s : State) (f : Ctx → Ctx) : (s.modCtx f).dram = s.dram := rfl
@[simp] theorem State.modCore_poison (s : State) (f : Core → Core) : (s.modCore f).poison = s.poison := rfl
@[simp] theorem State.modCtxAt_poison (s : State) (c : CtxNo) (f : Ctx → Ctx) : (s.modCtxAt c f).poison = s.poison := rfl
@[simp] theorem State.modCtx_poison (s : State) (f : Ctx → Ctx) : (s.modCtx f).poison = s.poison := rfl
@[simp] theorem State.modCore_erasures (s : State) (f : Core → Core) : (s.modCore f).erasures = s.erasures := rfl
@[simp] theorem State.modCtxAt_erasures (s : State) (c : CtxNo) (f : Ctx → Ctx) : (s.modCtxAt c f).erasures = s.erasures := rfl
@[simp] theorem State.modCtx_erasures (s : State) (f : Ctx → Ctx) : (s.modCtx f).erasures = s.erasures := rfl
@[simp] theorem State.modCore_ftags (s : State) (f : Core → Core) : (s.modCore f).ftags = s.ftags := rfl
@[simp] theorem State.modCtxAt_ftags (s : State) (c : CtxNo) (f : Ctx → Ctx) : (s.modCtxAt c f).ftags = s.ftags := rfl
@[simp] theorem State.modCtx_ftags (s : State) (f : Ctx → Ctx) : (s.modCtx f).ftags = s.ftags := rfl
@[simp] theorem State.modCore_net (s : State) (f : Core → Core) : (s.modCore f).net = s.net := rfl
@[simp] theorem State.modCtxAt_net (s : State) (c : CtxNo) (f : Ctx → Ctx) : (s.modCtxAt c f).net = s.net := rfl
@[simp] theorem State.modCtx_net (s : State) (f : Ctx → Ctx) : (s.modCtx f).net = s.net := rfl
@[simp] theorem State.modCore_downLinks (s : State) (f : Core → Core) : (s.modCore f).downLinks = s.downLinks := rfl
@[simp] theorem State.modCtxAt_downLinks (s : State) (c : CtxNo) (f : Ctx → Ctx) : (s.modCtxAt c f).downLinks = s.downLinks := rfl
@[simp] theorem State.modCtx_downLinks (s : State) (f : Ctx → Ctx) : (s.modCtx f).downLinks = s.downLinks := rfl
@[simp] theorem State.modCore_retries (s : State) (f : Core → Core) : (s.modCore f).retries = s.retries := rfl
@[simp] theorem State.modCtxAt_retries (s : State) (c : CtxNo) (f : Ctx → Ctx) : (s.modCtxAt c f).retries = s.retries := rfl
@[simp] theorem State.modCtx_retries (s : State) (f : Ctx → Ctx) : (s.modCtx f).retries = s.retries := rfl
@[simp] theorem State.modCore_rings (s : State) (f : Core → Core) : (s.modCore f).rings = s.rings := rfl
@[simp] theorem State.modCtxAt_rings (s : State) (c : CtxNo) (f : Ctx → Ctx) : (s.modCtxAt c f).rings = s.rings := rfl
@[simp] theorem State.modCtx_rings (s : State) (f : Ctx → Ctx) : (s.modCtx f).rings = s.rings := rfl
@[simp] theorem State.modCore_records (s : State) (f : Core → Core) : (s.modCore f).records = s.records := rfl
@[simp] theorem State.modCtxAt_records (s : State) (c : CtxNo) (f : Ctx → Ctx) : (s.modCtxAt c f).records = s.records := rfl
@[simp] theorem State.modCtx_records (s : State) (f : Ctx → Ctx) : (s.modCtx f).records = s.records := rfl
@[simp] theorem State.modCore_responses (s : State) (f : Core → Core) : (s.modCore f).responses = s.responses := rfl
@[simp] theorem State.modCtxAt_responses (s : State) (c : CtxNo) (f : Ctx → Ctx) : (s.modCtxAt c f).responses = s.responses := rfl
@[simp] theorem State.modCtx_responses (s : State) (f : Ctx → Ctx) : (s.modCtx f).responses = s.responses := rfl
@[simp] theorem State.modCore_podOut (s : State) (f : Core → Core) : (s.modCore f).podOut = s.podOut := rfl
@[simp] theorem State.modCtxAt_podOut (s : State) (c : CtxNo) (f : Ctx → Ctx) : (s.modCtxAt c f).podOut = s.podOut := rfl
@[simp] theorem State.modCtx_podOut (s : State) (f : Ctx → Ctx) : (s.modCtx f).podOut = s.podOut := rfl
@[simp] theorem State.modCore_power (s : State) (f : Core → Core) : (s.modCore f).power = s.power := rfl
@[simp] theorem State.modCtxAt_power (s : State) (c : CtxNo) (f : Ctx → Ctx) : (s.modCtxAt c f).power = s.power := rfl
@[simp] theorem State.modCtx_power (s : State) (f : Ctx → Ctx) : (s.modCtx f).power = s.power := rfl
@[simp] theorem State.modCore_podcfg (s : State) (f : Core → Core) : (s.modCore f).podcfg = s.podcfg := rfl
@[simp] theorem State.modCtxAt_podcfg (s : State) (c : CtxNo) (f : Ctx → Ctx) : (s.modCtxAt c f).podcfg = s.podcfg := rfl
@[simp] theorem State.modCtx_podcfg (s : State) (f : Ctx → Ctx) : (s.modCtx f).podcfg = s.podcfg := rfl
@[simp] theorem State.modCore_podDrop (s : State) (f : Core → Core) : (s.modCore f).podDrop = s.podDrop := rfl
@[simp] theorem State.modCtxAt_podDrop (s : State) (c : CtxNo) (f : Ctx → Ctx) : (s.modCtxAt c f).podDrop = s.podDrop := rfl
@[simp] theorem State.modCtx_podDrop (s : State) (f : Ctx → Ctx) : (s.modCtx f).podDrop = s.podDrop := rfl
@[simp] theorem State.modCore_symErrs (s : State) (f : Core → Core) : (s.modCore f).symErrs = s.symErrs := rfl
@[simp] theorem State.modCtxAt_symErrs (s : State) (c : CtxNo) (f : Ctx → Ctx) : (s.modCtxAt c f).symErrs = s.symErrs := rfl
@[simp] theorem State.modCtx_symErrs (s : State) (f : Ctx → Ctx) : (s.modCtx f).symErrs = s.symErrs := rfl
@[simp] theorem State.modCore_badWords (s : State) (f : Core → Core) : (s.modCore f).badWords = s.badWords := rfl
@[simp] theorem State.modCtxAt_badWords (s : State) (c : CtxNo) (f : Ctx → Ctx) : (s.modCtxAt c f).badWords = s.badWords := rfl
@[simp] theorem State.modCtx_badWords (s : State) (f : Ctx → Ctx) : (s.modCtx f).badWords = s.badWords := rfl
@[simp] theorem State.modCore_bootAt (s : State) (f : Core → Core) : (s.modCore f).bootAt = s.bootAt := rfl
@[simp] theorem State.modCtxAt_bootAt (s : State) (c : CtxNo) (f : Ctx → Ctx) : (s.modCtxAt c f).bootAt = s.bootAt := rfl
@[simp] theorem State.modCtx_bootAt (s : State) (f : Ctx → Ctx) : (s.modCtx f).bootAt = s.bootAt := rfl
@[simp] theorem State.modCore_maps (s : State) (f : Core → Core) : (s.modCore f).maps = s.maps := rfl
@[simp] theorem State.modCtxAt_maps (s : State) (c : CtxNo) (f : Ctx → Ctx) : (s.modCtxAt c f).maps = s.maps := rfl
@[simp] theorem State.modCtx_maps (s : State) (f : Ctx → Ctx) : (s.modCtx f).maps = s.maps := rfl
@[simp] theorem State.modCore_started (s : State) (f : Core → Core) : (s.modCore f).started = s.started := rfl
@[simp] theorem State.modCtxAt_started (s : State) (c : CtxNo) (f : Ctx → Ctx) : (s.modCtxAt c f).started = s.started := rfl
@[simp] theorem State.modCtx_started (s : State) (f : Ctx → Ctx) : (s.modCtx f).started = s.started := rfl
@[simp] theorem State.modCore_rawLines (s : State) (f : Core → Core) : (s.modCore f).rawLines = s.rawLines := rfl
@[simp] theorem State.modCtxAt_rawLines (s : State) (c : CtxNo) (f : Ctx → Ctx) : (s.modCtxAt c f).rawLines = s.rawLines := rfl
@[simp] theorem State.modCtx_rawLines (s : State) (f : Ctx → Ctx) : (s.modCtx f).rawLines = s.rawLines := rfl
@[simp] theorem State.modCore_booted (s : State) (f : Core → Core) : (s.modCore f).booted = s.booted := rfl
@[simp] theorem State.modCtxAt_booted (s : State) (c : CtxNo) (f : Ctx → Ctx) : (s.modCtxAt c f).booted = s.booted := rfl
@[simp] theorem State.modCtx_booted (s : State) (f : Ctx → Ctx) : (s.modCtx f).booted = s.booted := rfl
@[simp] theorem State.modCore_creds (s : State) (f : Core → Core) : (s.modCore f).creds = s.creds := rfl
@[simp] theorem State.modCtxAt_creds (s : State) (c : CtxNo) (f : Ctx → Ctx) : (s.modCtxAt c f).creds = s.creds := rfl
@[simp] theorem State.modCtx_creds (s : State) (f : Ctx → Ctx) : (s.modCtx f).creds = s.creds := rfl
@[simp] theorem State.modCore_stopped (s : State) (f : Core → Core) : (s.modCore f).stopped = s.stopped := rfl
@[simp] theorem State.modCtxAt_stopped (s : State) (c : CtxNo) (f : Ctx → Ctx) : (s.modCtxAt c f).stopped = s.stopped := rfl
@[simp] theorem State.modCtx_stopped (s : State) (f : Ctx → Ctx) : (s.modCtx f).stopped = s.stopped := rfl
@[simp] theorem State.modCore_logmap (s : State) (f : Core → Core) : (s.modCore f).logmap = s.logmap := rfl
@[simp] theorem State.modCtxAt_logmap (s : State) (c : CtxNo) (f : Ctx → Ctx) : (s.modCtxAt c f).logmap = s.logmap := rfl
@[simp] theorem State.modCtx_logmap (s : State) (f : Ctx → Ctx) : (s.modCtx f).logmap = s.logmap := rfl
@[simp] theorem State.modCore_count (s : State) (f : Core → Core) : (s.modCore f).count = s.count := rfl
@[simp] theorem State.modCtxAt_count (s : State) (c : CtxNo) (f : Ctx → Ctx) : (s.modCtxAt c f).count = s.count := rfl
@[simp] theorem State.modCtx_count (s : State) (f : Ctx → Ctx) : (s.modCtx f).count = s.count := rfl
@[simp] theorem State.modCore_topoev (s : State) (f : Core → Core) : (s.modCore f).topoev = s.topoev := rfl
@[simp] theorem State.modCtxAt_topoev (s : State) (c : CtxNo) (f : Ctx → Ctx) : (s.modCtxAt c f).topoev = s.topoev := rfl
@[simp] theorem State.modCtx_topoev (s : State) (f : Ctx → Ctx) : (s.modCtx f).topoev = s.topoev := rfl
@[simp] theorem State.modCore_eids (s : State) (f : Core → Core) : (s.modCore f).eids = s.eids := rfl
@[simp] theorem State.modCtxAt_eids (s : State) (c : CtxNo) (f : Ctx → Ctx) : (s.modCtxAt c f).eids = s.eids := rfl
@[simp] theorem State.modCtx_eids (s : State) (f : Ctx → Ctx) : (s.modCtx f).eids = s.eids := rfl
@[simp] theorem State.modCore_free (s : State) (f : Core → Core) : (s.modCore f).free = s.free := rfl
@[simp] theorem State.modCtxAt_free (s : State) (c : CtxNo) (f : Ctx → Ctx) : (s.modCtxAt c f).free = s.free := rfl
@[simp] theorem State.modCtx_free (s : State) (f : Ctx → Ctx) : (s.modCtx f).free = s.free := rfl
@[simp] theorem State.modCore_now (s : State) (f : Core → Core) : (s.modCore f).now = s.now := rfl
@[simp] theorem State.modCtxAt_now (s : State) (c : CtxNo) (f : Ctx → Ctx) : (s.modCtxAt c f).now = s.now := rfl
@[simp] theorem State.modCtx_now (s : State) (f : Ctx → Ctx) : (s.modCtx f).now = s.now := rfl
@[simp] theorem State.modCore_agenda (s : State) (f : Core → Core) : (s.modCore f).agenda = s.agenda := rfl
@[simp] theorem State.modCtxAt_agenda (s : State) (c : CtxNo) (f : Ctx → Ctx) : (s.modCtxAt c f).agenda = s.agenda := rfl
@[simp] theorem State.modCtx_agenda (s : State) (f : Ctx → Ctx) : (s.modCtx f).agenda = s.agenda := rfl

@[simp] theorem State.modCore_core (s : State) (f : Core → Core) : (s.modCore f).core = f s.core := rfl

/-! ### Fields of the core in focus under an update of one of its contexts -/

@[simp] theorem State.modCtxAt_core_cur (s : State) (c : CtxNo) (f : Ctx → Ctx) : (s.modCtxAt c f).core.cur = s.core.cur := rfl
@[simp] theorem State.modCtx_core_cur (s : State) (f : Ctx → Ctx) : (s.modCtx f).core.cur = s.core.cur := rfl
@[simp] theorem State.modCtxAt_core_issued (s : State) (c : CtxNo) (f : Ctx → Ctx) : (s.modCtxAt c f).core.issued = s.core.issued := rfl
@[simp] theorem State.modCtx_core_issued (s : State) (f : Ctx → Ctx) : (s.modCtx f).core.issued = s.core.issued := rfl
@[simp] theorem State.modCtxAt_core_killed (s : State) (c : CtxNo) (f : Ctx → Ctx) : (s.modCtxAt c f).core.killed = s.core.killed := rfl
@[simp] theorem State.modCtx_core_killed (s : State) (f : Ctx → Ctx) : (s.modCtx f).core.killed = s.core.killed := rfl
@[simp] theorem State.modCtxAt_core_wdbudget (s : State) (c : CtxNo) (f : Ctx → Ctx) : (s.modCtxAt c f).core.wdbudget = s.core.wdbudget := rfl
@[simp] theorem State.modCtx_core_wdbudget (s : State) (f : Ctx → Ctx) : (s.modCtx f).core.wdbudget = s.core.wdbudget := rfl
@[simp] theorem State.modCtxAt_core_framecfg (s : State) (c : CtxNo) (f : Ctx → Ctx) : (s.modCtxAt c f).core.framecfg = s.core.framecfg := rfl
@[simp] theorem State.modCtx_core_framecfg (s : State) (f : Ctx → Ctx) : (s.modCtx f).core.framecfg = s.core.framecfg := rfl
@[simp] theorem State.modCtxAt_core_inboxcfg (s : State) (c : CtxNo) (f : Ctx → Ctx) : (s.modCtxAt c f).core.inboxcfg = s.core.inboxcfg := rfl
@[simp] theorem State.modCtx_core_inboxcfg (s : State) (f : Ctx → Ctx) : (s.modCtx f).core.inboxcfg = s.core.inboxcfg := rfl
@[simp] theorem State.modCtxAt_core_headpri (s : State) (c : CtxNo) (f : Ctx → Ctx) : (s.modCtxAt c f).core.headpri = s.core.headpri := rfl
@[simp] theorem State.modCtx_core_headpri (s : State) (f : Ctx → Ctx) : (s.modCtx f).core.headpri = s.core.headpri := rfl
@[simp] theorem State.modCtxAt_core_inj (s : State) (c : CtxNo) (f : Ctx → Ctx) : (s.modCtxAt c f).core.inj = s.core.inj := rfl
@[simp] theorem State.modCtx_core_inj (s : State) (f : Ctx → Ctx) : (s.modCtx f).core.inj = s.core.inj := rfl
@[simp] theorem State.modCtxAt_core_mxbudget (s : State) (c : CtxNo) (f : Ctx → Ctx) : (s.modCtxAt c f).core.mxbudget = s.core.mxbudget := rfl
@[simp] theorem State.modCtx_core_mxbudget (s : State) (f : Ctx → Ctx) : (s.modCtx f).core.mxbudget = s.core.mxbudget := rfl
@[simp] theorem State.modCtxAt_core_mxgov (s : State) (c : CtxNo) (f : Ctx → Ctx) : (s.modCtxAt c f).core.mxgov = s.core.mxgov := rfl
@[simp] theorem State.modCtx_core_mxgov (s : State) (f : Ctx → Ctx) : (s.modCtx f).core.mxgov = s.core.mxgov := rfl
@[simp] theorem State.modCtxAt_core_lb (s : State) (c : CtxNo) (f : Ctx → Ctx) : (s.modCtxAt c f).core.lb = s.core.lb := rfl
@[simp] theorem State.modCtx_core_lb (s : State) (f : Ctx → Ctx) : (s.modCtx f).core.lb = s.core.lb := rfl
@[simp] theorem State.modCtxAt_core_cycles (s : State) (c : CtxNo) (f : Ctx → Ctx) : (s.modCtxAt c f).core.cycles = s.core.cycles := rfl
@[simp] theorem State.modCtx_core_cycles (s : State) (f : Ctx → Ctx) : (s.modCtx f).core.cycles = s.core.cycles := rfl
@[simp] theorem State.modCtxAt_core_since (s : State) (c : CtxNo) (f : Ctx → Ctx) : (s.modCtxAt c f).core.since = s.core.since := rfl
@[simp] theorem State.modCtx_core_since (s : State) (f : Ctx → Ctx) : (s.modCtx f).core.since = s.core.since := rfl
@[simp] theorem State.modCtxAt_core_clock (s : State) (c : CtxNo) (f : Ctx → Ctx) : (s.modCtxAt c f).core.clock = s.core.clock := rfl
@[simp] theorem State.modCtx_core_clock (s : State) (f : Ctx → Ctx) : (s.modCtx f).core.clock = s.core.clock := rfl
@[simp] theorem State.modCtxAt_core_clsSlow (s : State) (c : CtxNo) (f : Ctx → Ctx) : (s.modCtxAt c f).core.clsSlow = s.core.clsSlow := rfl
@[simp] theorem State.modCtx_core_clsSlow (s : State) (f : Ctx → Ctx) : (s.modCtx f).core.clsSlow = s.core.clsSlow := rfl
@[simp] theorem State.modCtxAt_core_stretch (s : State) (c : CtxNo) (f : Ctx → Ctx) : (s.modCtxAt c f).core.stretch = s.core.stretch := rfl
@[simp] theorem State.modCtx_core_stretch (s : State) (f : Ctx → Ctx) : (s.modCtx f).core.stretch = s.core.stretch := rfl
@[simp] theorem State.modCtxAt_core_corrected (s : State) (c : CtxNo) (f : Ctx → Ctx) : (s.modCtxAt c f).core.corrected = s.core.corrected := rfl
@[simp] theorem State.modCtx_core_corrected (s : State) (f : Ctx → Ctx) : (s.modCtx f).core.corrected = s.core.corrected := rfl
@[simp] theorem State.modCtxAt_core_mem (s : State) (c : CtxNo) (f : Ctx → Ctx) : (s.modCtxAt c f).core.mem = s.core.mem := rfl
@[simp] theorem State.modCtx_core_mem (s : State) (f : Ctx → Ctx) : (s.modCtx f).core.mem = s.core.mem := rfl
@[simp] theorem State.modCtxAt_core_wbuf (s : State) (c : CtxNo) (f : Ctx → Ctx) : (s.modCtxAt c f).core.wbuf = s.core.wbuf := rfl
@[simp] theorem State.modCtx_core_wbuf (s : State) (f : Ctx → Ctx) : (s.modCtx f).core.wbuf = s.core.wbuf := rfl
@[simp] theorem State.modCtxAt_core_istore (s : State) (c : CtxNo) (f : Ctx → Ctx) : (s.modCtxAt c f).core.istore = s.core.istore := rfl
@[simp] theorem State.modCtx_core_istore (s : State) (f : Ctx → Ctx) : (s.modCtx f).core.istore = s.core.istore := rfl
@[simp] theorem State.modCtxAt_core_icache (s : State) (c : CtxNo) (f : Ctx → Ctx) : (s.modCtxAt c f).core.icache = s.core.icache := rfl
@[simp] theorem State.modCtx_core_icache (s : State) (f : Ctx → Ctx) : (s.modCtx f).core.icache = s.core.icache := rfl
@[simp] theorem State.modCtxAt_core_entries (s : State) (c : CtxNo) (f : Ctx → Ctx) : (s.modCtxAt c f).core.entries = s.core.entries := rfl
@[simp] theorem State.modCtx_core_entries (s : State) (f : Ctx → Ctx) : (s.modCtx f).core.entries = s.core.entries := rfl
@[simp] theorem State.modCtxAt_core_inbox (s : State) (c : CtxNo) (f : Ctx → Ctx) : (s.modCtxAt c f).core.inbox = s.core.inbox := rfl
@[simp] theorem State.modCtx_core_inbox (s : State) (f : Ctx → Ctx) : (s.modCtx f).core.inbox = s.core.inbox := rfl
@[simp] theorem State.modCtxAt_core_heldBands (s : State) (c : CtxNo) (f : Ctx → Ctx) : (s.modCtxAt c f).core.heldBands = s.core.heldBands := rfl
@[simp] theorem State.modCtx_core_heldBands (s : State) (f : Ctx → Ctx) : (s.modCtx f).core.heldBands = s.core.heldBands := rfl
@[simp] theorem State.modCtxAt_core_heldAt (s : State) (c : CtxNo) (f : Ctx → Ctx) : (s.modCtxAt c f).core.heldAt = s.core.heldAt := rfl
@[simp] theorem State.modCtx_core_heldAt (s : State) (f : Ctx → Ctx) : (s.modCtx f).core.heldAt = s.core.heldAt := rfl
@[simp] theorem State.modCtxAt_core_frames (s : State) (c : CtxNo) (f : Ctx → Ctx) : (s.modCtxAt c f).core.frames = s.core.frames := rfl
@[simp] theorem State.modCtx_core_frames (s : State) (f : Ctx → Ctx) : (s.modCtx f).core.frames = s.core.frames := rfl
@[simp] theorem State.modCtxAt_core_park (s : State) (c : CtxNo) (f : Ctx → Ctx) : (s.modCtxAt c f).core.park = s.core.park := rfl
@[simp] theorem State.modCtx_core_park (s : State) (f : Ctx → Ctx) : (s.modCtx f).core.park = s.core.park := rfl
@[simp] theorem State.modCtxAt_core_posts (s : State) (c : CtxNo) (f : Ctx → Ctx) : (s.modCtxAt c f).core.posts = s.core.posts := rfl
@[simp] theorem State.modCtx_core_posts (s : State) (f : Ctx → Ctx) : (s.modCtx f).core.posts = s.core.posts := rfl
@[simp] theorem State.modCtxAt_core_msgId (s : State) (c : CtxNo) (f : Ctx → Ctx) : (s.modCtxAt c f).core.msgId = s.core.msgId := rfl
@[simp] theorem State.modCtx_core_msgId (s : State) (f : Ctx → Ctx) : (s.modCtx f).core.msgId = s.core.msgId := rfl
@[simp] theorem State.modCtxAt_core_q (s : State) (c : CtxNo) (f : Ctx → Ctx) : (s.modCtxAt c f).core.q = s.core.q := rfl
@[simp] theorem State.modCtx_core_q (s : State) (f : Ctx → Ctx) : (s.modCtx f).core.q = s.core.q := rfl
@[simp] theorem State.modCtxAt_core_acc (s : State) (c : CtxNo) (f : Ctx → Ctx) : (s.modCtxAt c f).core.acc = s.core.acc := rfl
@[simp] theorem State.modCtx_core_acc (s : State) (f : Ctx → Ctx) : (s.modCtx f).core.acc = s.core.acc := rfl
@[simp] theorem State.modCtxAt_core_tiles (s : State) (c : CtxNo) (f : Ctx → Ctx) : (s.modCtxAt c f).core.tiles = s.core.tiles := rfl
@[simp] theorem State.modCtx_core_tiles (s : State) (f : Ctx → Ctx) : (s.modCtx f).core.tiles = s.core.tiles := rfl
@[simp] theorem State.modCtxAt_core_f64tag (s : State) (c : CtxNo) (f : Ctx → Ctx) : (s.modCtxAt c f).core.f64tag = s.core.f64tag := rfl
@[simp] theorem State.modCtx_core_f64tag (s : State) (f : Ctx → Ctx) : (s.modCtx f).core.f64tag = s.core.f64tag := rfl
@[simp] theorem State.modCtxAt_core_steps (s : State) (c : CtxNo) (f : Ctx → Ctx) : (s.modCtxAt c f).core.steps = s.core.steps := rfl
@[simp] theorem State.modCtx_core_steps (s : State) (f : Ctx → Ctx) : (s.modCtx f).core.steps = s.core.steps := rfl
@[simp] theorem State.modCtxAt_core_tstall (s : State) (c : CtxNo) (f : Ctx → Ctx) : (s.modCtxAt c f).core.tstall = s.core.tstall := rfl
@[simp] theorem State.modCtx_core_tstall (s : State) (f : Ctx → Ctx) : (s.modCtx f).core.tstall = s.core.tstall := rfl
@[simp] theorem State.modCtxAt_core_lattice (s : State) (c : CtxNo) (f : Ctx → Ctx) : (s.modCtxAt c f).core.lattice = s.core.lattice := rfl
@[simp] theorem State.modCtx_core_lattice (s : State) (f : Ctx → Ctx) : (s.modCtx f).core.lattice = s.core.lattice := rfl
@[simp] theorem State.modCtxAt_core_bounds (s : State) (c : CtxNo) (f : Ctx → Ctx) : (s.modCtxAt c f).core.bounds = s.core.bounds := rfl
@[simp] theorem State.modCtx_core_bounds (s : State) (f : Ctx → Ctx) : (s.modCtx f).core.bounds = s.core.bounds := rfl
@[simp] theorem State.modCtxAt_core_mxq (s : State) (c : CtxNo) (f : Ctx → Ctx) : (s.modCtxAt c f).core.mxq = s.core.mxq := rfl
@[simp] theorem State.modCtx_core_mxq (s : State) (f : Ctx → Ctx) : (s.modCtx f).core.mxq = s.core.mxq := rfl
@[simp] theorem State.modCtxAt_core_mxrun (s : State) (c : CtxNo) (f : Ctx → Ctx) : (s.modCtxAt c f).core.mxrun = s.core.mxrun := rfl
@[simp] theorem State.modCtx_core_mxrun (s : State) (f : Ctx → Ctx) : (s.modCtx f).core.mxrun = s.core.mxrun := rfl
@[simp] theorem State.modCtxAt_core_cpq (s : State) (c : CtxNo) (f : Ctx → Ctx) : (s.modCtxAt c f).core.cpq = s.core.cpq := rfl
@[simp] theorem State.modCtx_core_cpq (s : State) (f : Ctx → Ctx) : (s.modCtx f).core.cpq = s.core.cpq := rfl
@[simp] theorem State.modCtxAt_core_cprun (s : State) (c : CtxNo) (f : Ctx → Ctx) : (s.modCtxAt c f).core.cprun = s.core.cprun := rfl
@[simp] theorem State.modCtx_core_cprun (s : State) (f : Ctx → Ctx) : (s.modCtx f).core.cprun = s.core.cprun := rfl
@[simp] theorem State.modCtxAt_core_cpdone (s : State) (c : CtxNo) (f : Ctx → Ctx) : (s.modCtxAt c f).core.cpdone = s.core.cpdone := rfl
@[simp] theorem State.modCtx_core_cpdone (s : State) (f : Ctx → Ctx) : (s.modCtx f).core.cpdone = s.core.cpdone := rfl
@[simp] theorem State.modCtxAt_core_eng (s : State) (c : CtxNo) (f : Ctx → Ctx) : (s.modCtxAt c f).core.eng = s.core.eng := rfl
@[simp] theorem State.modCtx_core_eng (s : State) (f : Ctx → Ctx) : (s.modCtx f).core.eng = s.core.eng := rfl
@[simp] theorem State.modCtxAt_core_lines (s : State) (c : CtxNo) (f : Ctx → Ctx) : (s.modCtxAt c f).core.lines = s.core.lines := rfl
@[simp] theorem State.modCtx_core_lines (s : State) (f : Ctx → Ctx) : (s.modCtx f).core.lines = s.core.lines := rfl
@[simp] theorem State.modCtxAt_core_banks (s : State) (c : CtxNo) (f : Ctx → Ctx) : (s.modCtxAt c f).core.banks = s.core.banks := rfl
@[simp] theorem State.modCtx_core_banks (s : State) (f : Ctx → Ctx) : (s.modCtx f).core.banks = s.core.banks := rfl
@[simp] theorem State.modCtxAt_core_spares (s : State) (c : CtxNo) (f : Ctx → Ctx) : (s.modCtxAt c f).core.spares = s.core.spares := rfl
@[simp] theorem State.modCtx_core_spares (s : State) (f : Ctx → Ctx) : (s.modCtx f).core.spares = s.core.spares := rfl
@[simp] theorem State.modCtxAt_core_saves (s : State) (c : CtxNo) (f : Ctx → Ctx) : (s.modCtxAt c f).core.saves = s.core.saves := rfl
@[simp] theorem State.modCtx_core_saves (s : State) (f : Ctx → Ctx) : (s.modCtx f).core.saves = s.core.saves := rfl
@[simp] theorem State.modCtxAt_core_turn (s : State) (c : CtxNo) (f : Ctx → Ctx) : (s.modCtxAt c f).core.turn = s.core.turn := rfl
@[simp] theorem State.modCtx_core_turn (s : State) (f : Ctx → Ctx) : (s.modCtx f).core.turn = s.core.turn := rfl
@[simp] theorem State.modCtxAt_core_flips (s : State) (c : CtxNo) (f : Ctx → Ctx) : (s.modCtxAt c f).core.flips = s.core.flips := rfl
@[simp] theorem State.modCtx_core_flips (s : State) (f : Ctx → Ctx) : (s.modCtx f).core.flips = s.core.flips := rfl
@[simp] theorem State.modCtxAt_core_gather (s : State) (c : CtxNo) (f : Ctx → Ctx) : (s.modCtxAt c f).core.gather = s.core.gather := rfl
@[simp] theorem State.modCtx_core_gather (s : State) (f : Ctx → Ctx) : (s.modCtx f).core.gather = s.core.gather := rfl
@[simp] theorem State.modCtxAt_core_tlb (s : State) (c : CtxNo) (f : Ctx → Ctx) : (s.modCtxAt c f).core.tlb = s.core.tlb := rfl
@[simp] theorem State.modCtx_core_tlb (s : State) (f : Ctx → Ctx) : (s.modCtx f).core.tlb = s.core.tlb := rfl
@[simp] theorem State.modCtxAt_core_txSamp (s : State) (c : CtxNo) (f : Ctx → Ctx) : (s.modCtxAt c f).core.txSamp = s.core.txSamp := rfl
@[simp] theorem State.modCtx_core_txSamp (s : State) (f : Ctx → Ctx) : (s.modCtx f).core.txSamp = s.core.txSamp := rfl
@[simp] theorem State.modCtxAt_core_rxSamp (s : State) (c : CtxNo) (f : Ctx → Ctx) : (s.modCtxAt c f).core.rxSamp = s.core.rxSamp := rfl
@[simp] theorem State.modCtx_core_rxSamp (s : State) (f : Ctx → Ctx) : (s.modCtx f).core.rxSamp = s.core.rxSamp := rfl
@[simp] theorem State.modCtxAt_core_refuse (s : State) (c : CtxNo) (f : Ctx → Ctx) : (s.modCtxAt c f).core.refuse = s.core.refuse := rfl
@[simp] theorem State.modCtx_core_refuse (s : State) (f : Ctx → Ctx) : (s.modCtx f).core.refuse = s.core.refuse := rfl
@[simp] theorem State.modCtxAt_core_resend (s : State) (c : CtxNo) (f : Ctx → Ctx) : (s.modCtxAt c f).core.resend = s.core.resend := rfl
@[simp] theorem State.modCtx_core_resend (s : State) (f : Ctx → Ctx) : (s.modCtx f).core.resend = s.core.resend := rfl
@[simp] theorem State.modCtxAt_core_ends (s : State) (c : CtxNo) (f : Ctx → Ctx) : (s.modCtxAt c f).core.ends = s.core.ends := rfl
@[simp] theorem State.modCtx_core_ends (s : State) (f : Ctx → Ctx) : (s.modCtx f).core.ends = s.core.ends := rfl

/-! ### Fields of a context under a register write, and at the end of an instruction -/

@[simp] theorem setVC_g (x : Ctx) (r : Reg) (w : VWord) (c : Vector Count 32) : (setVC x r w c).g = x.g := rfl
@[simp] theorem nextPc_g (x : Ctx) : (nextPc x).g = x.g := by
  unfold nextPc repNext; dsimp only; repeat' split
  all_goals rfl
@[simp] theorem setVC_gc (x : Ctx) (r : Reg) (w : VWord) (c : Vector Count 32) : (setVC x r w c).gc = x.gc := rfl
@[simp] theorem nextPc_gc (x : Ctx) : (nextPc x).gc = x.gc := by
  unfold nextPc repNext; dsimp only; repeat' split
  all_goals rfl
@[simp] theorem setGC_v (x : Ctx) (r : Reg) (w : Word) (c : Count) : (setGC x r w c).v = x.v := by unfold setGC; split <;> rfl
@[simp] theorem nextPc_v (x : Ctx) : (nextPc x).v = x.v := by
  unfold nextPc repNext; dsimp only; repeat' split
  all_goals rfl
@[simp] theorem setGC_vc (x : Ctx) (r : Reg) (w : Word) (c : Count) : (setGC x r w c).vc = x.vc := by unfold setGC; split <;> rfl
@[simp] theorem nextPc_vc (x : Ctx) : (nextPc x).vc = x.vc := by
  unfold nextPc repNext; dsimp only; repeat' split
  all_goals rfl
@[simp] theorem setGC_d (x : Ctx) (r : Reg) (w : Word) (c : Count) : (setGC x r w c).d = x.d := by unfold setGC; split <;> rfl
@[simp] theorem setVC_d (x : Ctx) (r : Reg) (w : VWord) (c : Vector Count 32) : (setVC x r w c).d = x.d := rfl
@[simp] theorem nextPc_d (x : Ctx) : (nextPc x).d = x.d := by
  unfold nextPc repNext; dsimp only; repeat' split
  all_goals rfl
@[simp] theorem setGC_held (x : Ctx) (r : Reg) (w : Word) (c : Count) : (setGC x r w c).held = x.held := by unfold setGC; split <;> rfl
@[simp] theorem setVC_held (x : Ctx) (r : Reg) (w : VWord) (c : Vector Count 32) : (setVC x r w c).held = x.held := rfl
@[simp] theorem nextPc_held (x : Ctx) : (nextPc x).held = x.held := by
  unfold nextPc repNext; dsimp only; repeat' split
  all_goals rfl
@[simp] theorem setGC_h (x : Ctx) (r : Reg) (w : Word) (c : Count) : (setGC x r w c).h = x.h := by unfold setGC; split <;> rfl
@[simp] theorem setVC_h (x : Ctx) (r : Reg) (w : VWord) (c : Vector Count 32) : (setVC x r w c).h = x.h := rfl
@[simp] theorem nextPc_h (x : Ctx) : (nextPc x).h = x.h := by
  unfold nextPc repNext; dsimp only; repeat' split
  all_goals rfl
@[simp] theorem setGC_pc (x : Ctx) (r : Reg) (w : Word) (c : Count) : (setGC x r w c).pc = x.pc := by unfold setGC; split <;> rfl
@[simp] theorem setVC_pc (x : Ctx) (r : Reg) (w : VWord) (c : Vector Count 32) : (setVC x r w c).pc = x.pc := rfl
@[simp] theorem setGC_sigthr (x : Ctx) (r : Reg) (w : Word) (c : Count) : (setGC x r w c).sigthr = x.sigthr := by unfold setGC; split <;> rfl
@[simp] theorem setVC_sigthr (x : Ctx) (r : Reg) (w : VWord) (c : Vector Count 32) : (setVC x r w c).sigthr = x.sigthr := rfl
@[simp] theorem nextPc_sigthr (x : Ctx) : (nextPc x).sigthr = x.sigthr := by
  unfold nextPc repNext; dsimp only; repeat' split
  all_goals rfl
@[simp] theorem setGC_sigmode (x : Ctx) (r : Reg) (w : Word) (c : Count) : (setGC x r w c).sigmode = x.sigmode := by unfold setGC; split <;> rfl
@[simp] theorem setVC_sigmode (x : Ctx) (r : Reg) (w : VWord) (c : Vector Count 32) : (setVC x r w c).sigmode = x.sigmode := rfl
@[simp] theorem nextPc_sigmode (x : Ctx) : (nextPc x).sigmode = x.sigmode := by
  unfold nextPc repNext; dsimp only; repeat' split
  all_goals rfl
@[simp] theorem setGC_sigvec (x : Ctx) (r : Reg) (w : Word) (c : Count) : (setGC x r w c).sigvec = x.sigvec := by unfold setGC; split <;> rfl
@[simp] theorem setVC_sigvec (x : Ctx) (r : Reg) (w : VWord) (c : Vector Count 32) : (setVC x r w c).sigvec = x.sigvec := rfl
@[simp] theorem nextPc_sigvec (x : Ctx) : (nextPc x).sigvec = x.sigvec := by
  unfold nextPc repNext; dsimp only; repeat' split
  all_goals rfl
@[simp] theorem setGC_sigpc (x : Ctx) (r : Reg) (w : Word) (c : Count) : (setGC x r w c).sigpc = x.sigpc := by unfold setGC; split <;> rfl
@[simp] theorem setVC_sigpc (x : Ctx) (r : Reg) (w : VWord) (c : Vector Count 32) : (setVC x r w c).sigpc = x.sigpc := rfl
@[simp] theorem nextPc_sigpc (x : Ctx) : (nextPc x).sigpc = x.sigpc := by
  unfold nextPc repNext; dsimp only; repeat' split
  all_goals rfl
@[simp] theorem setGC_sigop (x : Ctx) (r : Reg) (w : Word) (c : Count) : (setGC x r w c).sigop = x.sigop := by unfold setGC; split <;> rfl
@[simp] theorem setVC_sigop (x : Ctx) (r : Reg) (w : VWord) (c : Vector Count 32) : (setVC x r w c).sigop = x.sigop := rfl
@[simp] theorem nextPc_sigop (x : Ctx) : (nextPc x).sigop = x.sigop := by
  unfold nextPc repNext; dsimp only; repeat' split
  all_goals rfl
@[simp] theorem setGC_frm (x : Ctx) (r : Reg) (w : Word) (c : Count) : (setGC x r w c).frm = x.frm := by unfold setGC; split <;> rfl
@[simp] theorem setVC_frm (x : Ctx) (r : Reg) (w : VWord) (c : Vector Count 32) : (setVC x r w c).frm = x.frm := rfl
@[simp] theorem nextPc_frm (x : Ctx) : (nextPc x).frm = x.frm := by
  unfold nextPc repNext; dsimp only; repeat' split
  all_goals rfl
@[simp] theorem setGC_rep (x : Ctx) (r : Reg) (w : Word) (c : Count) : (setGC x r w c).rep = x.rep := by unfold setGC; split <;> rfl
@[simp] theorem setVC_rep (x : Ctx) (r : Reg) (w : VWord) (c : Vector Count 32) : (setVC x r w c).rep = x.rep := rfl
@[simp] theorem setGC_body (x : Ctx) (r : Reg) (w : Word) (c : Count) : (setGC x r w c).body = x.body := by unfold setGC; split <;> rfl
@[simp] theorem setVC_body (x : Ctx) (r : Reg) (w : VWord) (c : Vector Count 32) : (setVC x r w c).body = x.body := rfl
@[simp] theorem setGC_replaying (x : Ctx) (r : Reg) (w : Word) (c : Count) : (setGC x r w c).replaying = x.replaying := by unfold setGC; split <;> rfl
@[simp] theorem setVC_replaying (x : Ctx) (r : Reg) (w : VWord) (c : Vector Count 32) : (setVC x r w c).replaying = x.replaying := rfl
@[simp] theorem setGC_tagbase (x : Ctx) (r : Reg) (w : Word) (c : Count) : (setGC x r w c).tagbase = x.tagbase := by unfold setGC; split <;> rfl
@[simp] theorem setVC_tagbase (x : Ctx) (r : Reg) (w : VWord) (c : Vector Count 32) : (setVC x r w c).tagbase = x.tagbase := rfl
@[simp] theorem nextPc_tagbase (x : Ctx) : (nextPc x).tagbase = x.tagbase := by
  unfold nextPc repNext; dsimp only; repeat' split
  all_goals rfl
@[simp] theorem setGC_scale5 (x : Ctx) (r : Reg) (w : Word) (c : Count) : (setGC x r w c).scale5 = x.scale5 := by unfold setGC; split <;> rfl
@[simp] theorem setVC_scale5 (x : Ctx) (r : Reg) (w : VWord) (c : Vector Count 32) : (setVC x r w c).scale5 = x.scale5 := rfl
@[simp] theorem nextPc_scale5 (x : Ctx) : (nextPc x).scale5 = x.scale5 := by
  unfold nextPc repNext; dsimp only; repeat' split
  all_goals rfl
@[simp] theorem setGC_scale6 (x : Ctx) (r : Reg) (w : Word) (c : Count) : (setGC x r w c).scale6 = x.scale6 := by unfold setGC; split <;> rfl
@[simp] theorem setVC_scale6 (x : Ctx) (r : Reg) (w : VWord) (c : Vector Count 32) : (setVC x r w c).scale6 = x.scale6 := rfl
@[simp] theorem nextPc_scale6 (x : Ctx) : (nextPc x).scale6 = x.scale6 := by
  unfold nextPc repNext; dsimp only; repeat' split
  all_goals rfl
@[simp] theorem setGC_gen (x : Ctx) (r : Reg) (w : Word) (c : Count) : (setGC x r w c).gen = x.gen := by unfold setGC; split <;> rfl
@[simp] theorem setVC_gen (x : Ctx) (r : Reg) (w : VWord) (c : Vector Count 32) : (setVC x r w c).gen = x.gen := rfl
@[simp] theorem nextPc_gen (x : Ctx) : (nextPc x).gen = x.gen := by
  unfold nextPc repNext; dsimp only; repeat' split
  all_goals rfl
@[simp] theorem setGC_stackbase (x : Ctx) (r : Reg) (w : Word) (c : Count) : (setGC x r w c).stackbase = x.stackbase := by unfold setGC; split <;> rfl
@[simp] theorem setVC_stackbase (x : Ctx) (r : Reg) (w : VWord) (c : Vector Count 32) : (setVC x r w c).stackbase = x.stackbase := rfl
@[simp] theorem nextPc_stackbase (x : Ctx) : (nextPc x).stackbase = x.stackbase := by
  unfold nextPc repNext; dsimp only; repeat' split
  all_goals rfl
@[simp] theorem setGC_stacklimit (x : Ctx) (r : Reg) (w : Word) (c : Count) : (setGC x r w c).stacklimit = x.stacklimit := by unfold setGC; split <;> rfl
@[simp] theorem setVC_stacklimit (x : Ctx) (r : Reg) (w : VWord) (c : Vector Count 32) : (setVC x r w c).stacklimit = x.stacklimit := rfl
@[simp] theorem nextPc_stacklimit (x : Ctx) : (nextPc x).stacklimit = x.stacklimit := by
  unfold nextPc repNext; dsimp only; repeat' split
  all_goals rfl
@[simp] theorem setGC_actSeq (x : Ctx) (r : Reg) (w : Word) (c : Count) : (setGC x r w c).actSeq = x.actSeq := by unfold setGC; split <;> rfl
@[simp] theorem setVC_actSeq (x : Ctx) (r : Reg) (w : VWord) (c : Vector Count 32) : (setVC x r w c).actSeq = x.actSeq := rfl
@[simp] theorem nextPc_actSeq (x : Ctx) : (nextPc x).actSeq = x.actSeq := by
  unfold nextPc repNext; dsimp only; repeat' split
  all_goals rfl
@[simp] theorem setGC_lfsr (x : Ctx) (r : Reg) (w : Word) (c : Count) : (setGC x r w c).lfsr = x.lfsr := by unfold setGC; split <;> rfl
@[simp] theorem setVC_lfsr (x : Ctx) (r : Reg) (w : VWord) (c : Vector Count 32) : (setVC x r w c).lfsr = x.lfsr := rfl
@[simp] theorem nextPc_lfsr (x : Ctx) : (nextPc x).lfsr = x.lfsr := by
  unfold nextPc repNext; dsimp only; repeat' split
  all_goals rfl
@[simp] theorem setGC_latch (x : Ctx) (r : Reg) (w : Word) (c : Count) : (setGC x r w c).latch = x.latch := by unfold setGC; split <;> rfl
@[simp] theorem setVC_latch (x : Ctx) (r : Reg) (w : VWord) (c : Vector Count 32) : (setVC x r w c).latch = x.latch := rfl
@[simp] theorem nextPc_latch (x : Ctx) : (nextPc x).latch = x.latch := by
  unfold nextPc repNext; dsimp only; repeat' split
  all_goals rfl
@[simp] theorem setGC_hoop (x : Ctx) (r : Reg) (w : Word) (c : Count) : (setGC x r w c).hoop = x.hoop := by unfold setGC; split <;> rfl
@[simp] theorem setVC_hoop (x : Ctx) (r : Reg) (w : VWord) (c : Vector Count 32) : (setVC x r w c).hoop = x.hoop := rfl
@[simp] theorem nextPc_hoop (x : Ctx) : (nextPc x).hoop = x.hoop := by
  unfold nextPc repNext; dsimp only; repeat' split
  all_goals rfl
@[simp] theorem setGC_chunks (x : Ctx) (r : Reg) (w : Word) (c : Count) : (setGC x r w c).chunks = x.chunks := by unfold setGC; split <;> rfl
@[simp] theorem setVC_chunks (x : Ctx) (r : Reg) (w : VWord) (c : Vector Count 32) : (setVC x r w c).chunks = x.chunks := rfl
@[simp] theorem nextPc_chunks (x : Ctx) : (nextPc x).chunks = x.chunks := by
  unfold nextPc repNext; dsimp only; repeat' split
  all_goals rfl
@[simp] theorem setGC_committed (x : Ctx) (r : Reg) (w : Word) (c : Count) : (setGC x r w c).committed = x.committed := by unfold setGC; split <;> rfl
@[simp] theorem setVC_committed (x : Ctx) (r : Reg) (w : VWord) (c : Vector Count 32) : (setVC x r w c).committed = x.committed := rfl
@[simp] theorem nextPc_committed (x : Ctx) : (nextPc x).committed = x.committed := by
  unfold nextPc repNext; dsimp only; repeat' split
  all_goals rfl
@[simp] theorem setGC_sinceCommit (x : Ctx) (r : Reg) (w : Word) (c : Count) : (setGC x r w c).sinceCommit = x.sinceCommit := by unfold setGC; split <;> rfl
@[simp] theorem setVC_sinceCommit (x : Ctx) (r : Reg) (w : VWord) (c : Vector Count 32) : (setVC x r w c).sinceCommit = x.sinceCommit := rfl
@[simp] theorem nextPc_sinceCommit (x : Ctx) : (nextPc x).sinceCommit = x.sinceCommit := by
  unfold nextPc repNext; dsimp only; repeat' split
  all_goals rfl
@[simp] theorem setGC_phase (x : Ctx) (r : Reg) (w : Word) (c : Count) : (setGC x r w c).phase = x.phase := by unfold setGC; split <;> rfl
@[simp] theorem setVC_phase (x : Ctx) (r : Reg) (w : VWord) (c : Vector Count 32) : (setVC x r w c).phase = x.phase := rfl
@[simp] theorem nextPc_phase (x : Ctx) : (nextPc x).phase = x.phase := by
  unfold nextPc repNext; dsimp only; repeat' split
  all_goals rfl
@[simp] theorem setGC_stall (x : Ctx) (r : Reg) (w : Word) (c : Count) : (setGC x r w c).stall = x.stall := by unfold setGC; split <;> rfl
@[simp] theorem setVC_stall (x : Ctx) (r : Reg) (w : VWord) (c : Vector Count 32) : (setVC x r w c).stall = x.stall := rfl
@[simp] theorem setGC_asleep (x : Ctx) (r : Reg) (w : Word) (c : Count) : (setGC x r w c).asleep = x.asleep := by unfold setGC; split <;> rfl
@[simp] theorem setVC_asleep (x : Ctx) (r : Reg) (w : VWord) (c : Vector Count 32) : (setVC x r w c).asleep = x.asleep := rfl
@[simp] theorem setGC_storing (x : Ctx) (r : Reg) (w : Word) (c : Count) : (setGC x r w c).storing = x.storing := by unfold setGC; split <;> rfl
@[simp] theorem setVC_storing (x : Ctx) (r : Reg) (w : VWord) (c : Vector Count 32) : (setVC x r w c).storing = x.storing := rfl
@[simp] theorem nextPc_storing (x : Ctx) : (nextPc x).storing = x.storing := by
  unfold nextPc repNext; dsimp only; repeat' split
  all_goals rfl
@[simp] theorem setGC_lvDue (x : Ctx) (r : Reg) (w : Word) (c : Count) : (setGC x r w c).lvDue = x.lvDue := by unfold setGC; split <;> rfl
@[simp] theorem setVC_lvDue (x : Ctx) (r : Reg) (w : VWord) (c : Vector Count 32) : (setVC x r w c).lvDue = x.lvDue := rfl
@[simp] theorem nextPc_lvDue (x : Ctx) : (nextPc x).lvDue = x.lvDue := by
  unfold nextPc repNext; dsimp only; repeat' split
  all_goals rfl
@[simp] theorem setGC_evicted (x : Ctx) (r : Reg) (w : Word) (c : Count) : (setGC x r w c).evicted = x.evicted := by unfold setGC; split <;> rfl
@[simp] theorem setVC_evicted (x : Ctx) (r : Reg) (w : VWord) (c : Vector Count 32) : (setVC x r w c).evicted = x.evicted := rfl
@[simp] theorem nextPc_evicted (x : Ctx) : (nextPc x).evicted = x.evicted := by
  unfold nextPc repNext; dsimp only; repeat' split
  all_goals rfl
@[simp] theorem setGC_caught (x : Ctx) (r : Reg) (w : Word) (c : Count) : (setGC x r w c).caught = x.caught := by unfold setGC; split <;> rfl
@[simp] theorem setVC_caught (x : Ctx) (r : Reg) (w : VWord) (c : Vector Count 32) : (setVC x r w c).caught = x.caught := rfl
@[simp] theorem nextPc_caught (x : Ctx) : (nextPc x).caught = x.caught := by
  unfold nextPc repNext; dsimp only; repeat' split
  all_goals rfl
@[simp] theorem setGC_pending (x : Ctx) (r : Reg) (w : Word) (c : Count) : (setGC x r w c).pending = x.pending := by unfold setGC; split <;> rfl
@[simp] theorem setVC_pending (x : Ctx) (r : Reg) (w : VWord) (c : Vector Count 32) : (setVC x r w c).pending = x.pending := rfl
@[simp] theorem nextPc_pending (x : Ctx) : (nextPc x).pending = x.pending := by
  unfold nextPc repNext; dsimp only; repeat' split
  all_goals rfl
@[simp] theorem setGC_frefWait (x : Ctx) (r : Reg) (w : Word) (c : Count) : (setGC x r w c).frefWait = x.frefWait := by unfold setGC; split <;> rfl
@[simp] theorem setVC_frefWait (x : Ctx) (r : Reg) (w : VWord) (c : Vector Count 32) : (setVC x r w c).frefWait = x.frefWait := rfl
@[simp] theorem nextPc_frefWait (x : Ctx) : (nextPc x).frefWait = x.frefWait := by
  unfold nextPc repNext; dsimp only; repeat' split
  all_goals rfl
@[simp] theorem setGC_task (x : Ctx) (r : Reg) (w : Word) (c : Count) : (setGC x r w c).task = x.task := by unfold setGC; split <;> rfl
@[simp] theorem setVC_task (x : Ctx) (r : Reg) (w : VWord) (c : Vector Count 32) : (setVC x r w c).task = x.task := rfl
@[simp] theorem nextPc_task (x : Ctx) : (nextPc x).task = x.task := by
  unfold nextPc repNext; dsimp only; repeat' split
  all_goals rfl
@[simp] theorem setGC_trapDue (x : Ctx) (r : Reg) (w : Word) (c : Count) : (setGC x r w c).trapDue = x.trapDue := by unfold setGC; split <;> rfl
@[simp] theorem setVC_trapDue (x : Ctx) (r : Reg) (w : VWord) (c : Vector Count 32) : (setVC x r w c).trapDue = x.trapDue := rfl
@[simp] theorem nextPc_trapDue (x : Ctx) : (nextPc x).trapDue = x.trapDue := by
  unfold nextPc repNext; dsimp only; repeat' split
  all_goals rfl
@[simp] theorem setGC_wdAcc (x : Ctx) (r : Reg) (w : Word) (c : Count) : (setGC x r w c).wdAcc = x.wdAcc := by unfold setGC; split <;> rfl
@[simp] theorem setVC_wdAcc (x : Ctx) (r : Reg) (w : VWord) (c : Vector Count 32) : (setVC x r w c).wdAcc = x.wdAcc := rfl
@[simp] theorem nextPc_wdAcc (x : Ctx) : (nextPc x).wdAcc = x.wdAcc := by
  unfold nextPc repNext; dsimp only; repeat' split
  all_goals rfl
@[simp] theorem setGC_wdFrom (x : Ctx) (r : Reg) (w : Word) (c : Count) : (setGC x r w c).wdFrom = x.wdFrom := by unfold setGC; split <;> rfl
@[simp] theorem setVC_wdFrom (x : Ctx) (r : Reg) (w : VWord) (c : Vector Count 32) : (setVC x r w c).wdFrom = x.wdFrom := rfl
@[simp] theorem nextPc_wdFrom (x : Ctx) : (nextPc x).wdFrom = x.wdFrom := by
  unfold nextPc repNext; dsimp only; repeat' split
  all_goals rfl

@[simp] theorem nextPc_stall (x : Ctx) : (nextPc x).stall = none := by
  unfold nextPc repNext; dsimp only; repeat' split
  all_goals rfl
@[simp] theorem nextPc_asleep (x : Ctx) : (nextPc x).asleep = false := by
  unfold nextPc repNext; dsimp only; repeat' split
  all_goals rfl
/-- Outside a replay an instruction that is done goes on at PC + 4 (R36). -/
theorem nextPc_pc (x : Ctx) (h : x.replaying = false) : (nextPc x).pc = x.pc + 4 := by simp [nextPc, h]

/-! ### Contexts -/

@[simp] theorem State.ctxAt_modCtxAt (s : State) (c : CtxNo) (f : Ctx → Ctx) :
    (s.modCtxAt c f).ctxAt c = f (s.ctxAt c) := by simp [State.ctxAt, State.modCtxAt]
theorem State.ctxAt_modCtxAt_ne (s : State) (c e : CtxNo) (f : Ctx → Ctx) (h : e ≠ c) :
    (s.modCtxAt c f).ctxAt e = s.ctxAt e := by
  have : c.toNat ≠ e.toNat := fun q => h (BitVec.eq_of_toNat_eq q.symm)
  simp [State.ctxAt, State.modCtxAt, Vector.getElem_set_ne, this]
@[simp] theorem State.ctx_modCtx (s : State) (f : Ctx → Ctx) : (s.modCtx f).ctx = f s.ctx :=
  State.ctxAt_modCtxAt s s.core.cur f
@[simp] theorem State.modCtxAt_modCtxAt (s : State) (c : CtxNo) (f g : Ctx → Ctx) :
    (s.modCtxAt c f).modCtxAt c g = s.modCtxAt c fun x => g (f x) := by
  simp [State.modCtxAt, State.ctxAt, Vector.set_set]
@[simp] theorem State.modCtx_modCtx (s : State) (f g : Ctx → Ctx) :
    (s.modCtx f).modCtx g = s.modCtx fun x => g (f x) := State.modCtxAt_modCtxAt s s.core.cur f g
theorem State.setGC_eq (s : State) (r : Reg) (w : Word) (c : Count) :
    s.setGC r w c = s.modCtx fun x => Machine.setGC x r w c := rfl
theorem State.setG_eq (s : State) (r : Reg) (w : Word) : s.setG r w = s.modCtx fun x => Machine.setGC x r w 63 := rfl
theorem State.setVC_eq (s : State) (r : Reg) (w : VWord) (c : Vector Count 32) :
    s.setVC r w c = s.modCtx fun x => Machine.setVC x r w c := rfl
theorem State.advance_eq (s : State) : s.advance = s.modCtx nextPc := rfl

/-! ### Registers (R10, R37) -/

@[simp] theorem gval_zero (x : Ctx) : gval x 0 = 0 := rfl
@[simp] theorem gcount_zero (x : Ctx) : gcount x 0 = 63 := rfl
@[simp] theorem setGC_zero (x : Ctx) (w : Word) (c : Count) : setGC x 0 w c = x := rfl
@[simp] theorem gval_nextPc (x : Ctx) (r : Reg) : gval (nextPc x) r = gval x r := by simp [gval]
@[simp] theorem gcount_nextPc (x : Ctx) (r : Reg) : gcount (nextPc x) r = gcount x r := by simp [gcount]
@[simp] theorem vval_nextPc (x : Ctx) (r : Reg) : vval (nextPc x) r = vval x r := by simp [vval]
@[simp] theorem vcounts_nextPc (x : Ctx) (r : Reg) : vcounts (nextPc x) r = vcounts x r := by simp [vcounts]
@[simp] theorem vval_setGC (x : Ctx) (d r : Reg) (w : Word) (c : Count) : vval (setGC x d w c) r = vval x r := by simp [vval]
@[simp] theorem vcounts_setGC (x : Ctx) (d r : Reg) (w : Word) (c : Count) :
    vcounts (setGC x d w c) r = vcounts x r := by simp [vcounts]
@[simp] theorem gval_setVC (x : Ctx) (d r : Reg) (w : VWord) (c : Vector Count 32) :
    gval (setVC x d w c) r = gval x r := rfl
@[simp] theorem gcount_setVC (x : Ctx) (d r : Reg) (w : VWord) (c : Vector Count 32) :
    gcount (setVC x d w c) r = gcount x r := rfl
/-- A register written reads as written. -/
@[simp] theorem gval_setGC (x : Ctx) (d : Reg) (w : Word) (c : Count) (h : d ≠ 0) : gval (setGC x d w c) d = w := by
  unfold gval setGC; rw [if_neg h, if_neg h]; simp
@[simp] theorem gcount_setGC (x : Ctx) (d : Reg) (w : Word) (c : Count) (h : d ≠ 0) : gcount (setGC x d w c) d = c := by
  unfold gcount setGC; rw [if_neg h, if_neg h]; simp
/-- The other registers read as before. -/
theorem gval_setGC_ne (x : Ctx) (d r : Reg) (w : Word) (c : Count) (h : r ≠ d) : gval (setGC x d w c) r = gval x r := by
  have : d.toNat ≠ r.toNat := fun q => h (BitVec.eq_of_toNat_eq q.symm)
  by_cases hd : d = 0
  · subst hd; rfl
  · unfold gval setGC; rw [if_neg hd]; split
    · rfl
    · simp [Vector.getElem_set_ne, this]
theorem gcount_setGC_ne (x : Ctx) (d r : Reg) (w : Word) (c : Count) (h : r ≠ d) :
    gcount (setGC x d w c) r = gcount x r := by
  have : d.toNat ≠ r.toNat := fun q => h (BitVec.eq_of_toNat_eq q.symm)
  by_cases hd : d = 0
  · subst hd; rfl
  · unfold gcount setGC; rw [if_neg hd]; split
    · rfl
    · simp [Vector.getElem_set_ne, this]
@[simp] theorem vval_setVC (x : Ctx) (d : Reg) (w : VWord) (c : Vector Count 32) : vval (setVC x d w c) d = w := by
  simp [vval, setVC]
@[simp] theorem vcounts_setVC (x : Ctx) (d : Reg) (w : VWord) (c : Vector Count 32) : vcounts (setVC x d w c) d = c := by
  simp [vcounts, setVC]
theorem vval_setVC_ne (x : Ctx) (d r : Reg) (w : VWord) (c : Vector Count 32) (h : r ≠ d) :
    vval (setVC x d w c) r = vval x r := by
  have : d.toNat ≠ r.toNat := fun q => h (BitVec.eq_of_toNat_eq q.symm)
  simp [vval, setVC, Vector.getElem_set_ne, this]
theorem vcounts_setVC_ne (x : Ctx) (d r : Reg) (w : VWord) (c : Vector Count 32) (h : r ≠ d) :
    vcounts (setVC x d w c) r = vcounts x r := by
  have : d.toNat ≠ r.toNat := fun q => h (BitVec.eq_of_toNat_eq q.symm)
  simp [vcounts, setVC, Vector.getElem_set_ne, this]

end Sys2Proof.Machine
end

