-- ==== Sys2Proof/Laws/Memory.lean ====
section
/-! SUPPORT. Laws of sparse tables and byte memories (log entry 1): a read after a write, and that every memory
operation keeps the canonical form. -/

set_option Elab.async false
namespace Sys2Proof.Machine

variable {α : Type}

theorem tget_tdel_same (dflt : α) (t : Table α) (a : Nat) : tget dflt (tdel t a) a = dflt := by
  induction t with
  | nil => rfl
  | cons p t ih =>
    obtain ⟨k, y⟩ := p
    simp only [tdel]
    split
    · exact ih
    · rename_i h; simp only [tget, if_neg h, ih]

theorem tget_tdel_ne (dflt : α) (t : Table α) (a b : Nat) (h : b ≠ a) : tget dflt (tdel t a) b = tget dflt t b := by
  induction t with
  | nil => rfl
  | cons p t ih =>
    obtain ⟨k, y⟩ := p
    simp only [tdel]
    split
    · rename_i e; subst e; simp only [tget, if_neg h.symm, ih]
    · simp only [tget, ih]

theorem tget_tins_same (dflt : α) (t : Table α) (a : Nat) (x : α) : tget dflt (tins t a x) a = x := by
  induction t with
  | nil => simp [tins, tget]
  | cons p t ih =>
    obtain ⟨k, y⟩ := p
    simp only [tins]
    split
    · simp [tget]
    · split
      · simp [tget]
      · rename_i h1 h2; simp only [tget, if_neg (Ne.symm h2), ih]

theorem tget_tins_ne (dflt : α) (t : Table α) (a b : Nat) (x : α) (h : b ≠ a) :
    tget dflt (tins t a x) b = tget dflt t b := by
  induction t with
  | nil => simp [tins, tget, h.symm]
  | cons p t ih =>
    obtain ⟨k, y⟩ := p
    simp only [tins]
    split
    · simp only [tget, if_neg h.symm]
    · split
      · rename_i h1 h2; subst h2; simp only [tget, if_neg h.symm]
      · simp only [tget, ih]

variable [DecidableEq α]

/-- A key written reads as written. -/
theorem tget_tput_same (dflt : α) (t : Table α) (a : Nat) (x : α) : tget dflt (tput dflt t a x) a = x := by
  unfold tput
  split
  · rename_i h; rw [tget_tdel_same, h]
  · exact tget_tins_same dflt t a x

/-- Every other key reads as before. -/
theorem tget_tput_ne (dflt : α) (t : Table α) (a b : Nat) (x : α) (h : b ≠ a) :
    tget dflt (tput dflt t a x) b = tget dflt t b := by
  unfold tput
  split
  · exact tget_tdel_ne dflt t a b h
  · exact tget_tins_ne dflt t a b x h

theorem tget_tput (dflt : α) (t : Table α) (a b : Nat) (x : α) :
    tget dflt (tput dflt t a x) b = if b = a then x else tget dflt t b := by
  split
  · rename_i h; subst h; exact tget_tput_same dflt t b x
  · rename_i h; exact tget_tput_ne dflt t a b x h

/-- A bound below a lower one is a bound. -/
theorem twfFrom_weaken (dflt : α) (t : Table α) (l k : Nat) (h : l ≤ k) :
    twfFrom dflt (some k) t = true → twfFrom dflt (some l) t = true := by
  cases t with
  | nil => intro _; rfl
  | cons p t =>
    simp only [twfFrom, Bool.and_eq_true, decide_eq_true_eq]
    exact fun w => ⟨⟨by omega, w.1.2⟩, w.2⟩

theorem twfFrom_none (dflt : α) (t : Table α) (k : Nat) : twfFrom dflt (some k) t = true → twfFrom dflt none t = true := by
  cases t with
  | nil => intro _; rfl
  | cons p t =>
    simp only [twfFrom, Bool.and_eq_true]
    exact fun w => ⟨⟨trivial, w.1.2⟩, w.2⟩

theorem tdel_wfFrom (dflt : α) (t : Table α) (a : Nat) : ∀ lo, twfFrom dflt lo t = true → twfFrom dflt lo (tdel t a) = true := by
  induction t with
  | nil => intro lo _; rfl
  | cons p t ih =>
    obtain ⟨k, y⟩ := p
    intro lo hw
    simp only [tdel]
    have hw' := hw
    simp only [twfFrom, Bool.and_eq_true] at hw
    split
    · cases lo with
      | none => exact ih _ (twfFrom_none dflt t k hw.2)
      | some l => exact ih _ (twfFrom_weaken dflt t l k (by have := hw.1.1; simp at this; omega) hw.2)
    · simp only [twfFrom, Bool.and_eq_true]
      exact ⟨hw.1, ih _ hw.2⟩

theorem tins_wfFrom (dflt : α) (t : Table α) (a : Nat) (x : α) (hx : x ≠ dflt) :
    ∀ lo, twfFrom dflt lo t = true → (∀ l, lo = some l → l < a) → twfFrom dflt lo (tins t a x) = true := by
  induction t with
  | nil =>
    intro lo _ hl
    cases lo with
    | none => simp [tins, twfFrom, hx]
    | some l => simp [tins, twfFrom, hx, hl l rfl]
  | cons p t ih =>
    obtain ⟨k, y⟩ := p
    intro lo hw hl
    simp only [twfFrom, Bool.and_eq_true] at hw
    simp only [tins]
    split
    · rename_i h1
      cases lo with
      | none => simp [twfFrom, hx, h1, hw.2]; simpa using hw.1.2
      | some l => simp [twfFrom, hx, h1, hl l rfl, hw.2]; simpa using hw.1.2
    · split
      · rename_i h1 h2
        subst h2
        cases lo with
        | none => simp [twfFrom, hx, hw.2]
        | some l => simp [twfFrom, hx, hw.2, hl l rfl]
      · rename_i h1 h2
        simp only [twfFrom, Bool.and_eq_true]
        exact ⟨hw.1, ih _ hw.2 (by intro l e; cases e; omega)⟩

/-- A write keeps the canonical form. -/
theorem tput_wf (dflt : α) (t : Table α) (a : Nat) (x : α) (h : twf dflt t = true) : twf dflt (tput dflt t a x) = true := by
  unfold tput twf
  split
  · exact tdel_wfFrom dflt t a none h
  · rename_i hx; exact tins_wfFrom dflt t a x hx none h (by intro l e; cases e)

theorem tmod_wf (dflt : α) (t : Table α) (a : Nat) (f : α → α) (h : twf dflt t = true) : twf dflt (tmod dflt t a f) = true :=
  tput_wf dflt t a _ h

/-! ### Bytes -/

/-- A byte written reads as written. -/
theorem rd8_wr8_same (m : Memory) (a : Nat) (x : Byte) : rd8 (wr8 m a x) a = x :=
  tget_tput_same _ m a x

/-- Every other byte reads as before. -/
theorem rd8_wr8_ne (m : Memory) (a b : Nat) (x : Byte) (h : b ≠ a) : rd8 (wr8 m a x) b = rd8 m b :=
  tget_tput_ne _ m a b x h

theorem wr8_wf (m : Memory) (a : Nat) (x : Byte) (h : Memory.wf m = true) : Memory.wf (wr8 m a x) = true :=
  tput_wf _ m a x h

theorem wrCells_wf (cs : List Host.Cell) : ∀ m : Memory, Memory.wf m = true → Memory.wf (wrCells m cs) = true := by
  induction cs with
  | nil => intro m h; exact h
  | cons c cs ih => intro m h; exact ih _ (wr8_wf m c.1 c.2 h)

theorem wrBytes_wf (m : Memory) (a : Nat) (bs : List Byte) (h : Memory.wf m = true) : Memory.wf (wrBytes m a bs) = true :=
  wrCells_wf _ m h

/-- Stores leave every byte they do not name. -/
theorem rd8_wrCells_ne (cs : List Host.Cell) (b : Nat) :
    ∀ m : Memory, (∀ c ∈ cs, c.1 ≠ b) → rd8 (wrCells m cs) b = rd8 m b := by
  induction cs with
  | nil => intros; rfl
  | cons c cs ih =>
    intro m h
    have h1 : c.1 ≠ b := h c (by simp)
    show rd8 (wrCells (wr8 m c.1 c.2) cs) b = rd8 m b
    rw [ih _ (fun d hd => h d (by simp [hd])), rd8_wr8_ne _ _ _ _ h1.symm]

/-- The cells of n bytes from a upward name these n addresses. -/
theorem mem_cellsAt (bs : List Byte) : ∀ (a : Nat) (c : Host.Cell), c ∈ cellsAt a bs → a ≤ c.1 ∧ c.1 < a + bs.length := by
  induction bs with
  | nil => intro a c h; cases h
  | cons b bs ih =>
    intro a c h
    simp only [cellsAt, List.mem_cons] at h
    rcases h with h | h
    · subst h; simp
    · have := ih (a + 1) c h
      simp only [List.length_cons]; omega

/-- A store of bytes leaves every byte outside it. -/
theorem rd8_wrBytes_out (m : Memory) (a b : Nat) (bs : List Byte) (h : b < a ∨ a + bs.length ≤ b) :
    rd8 (wrBytes m a bs) b = rd8 m b := by
  apply rd8_wrCells_ne
  intro c hc e
  have := mem_cellsAt bs a c hc
  omega

/-- A byte inside a store of bytes reads as the byte stored there. -/
theorem rd8_wrBytes_in (bs : List Byte) : ∀ (m : Memory) (a i : Nat), (h : i < bs.length) →
    rd8 (wrBytes m a bs) (a + i) = bs[i] := by
  induction bs with
  | nil => intro m a i h; cases h
  | cons b bs ih =>
    intro m a i h
    have e : wrBytes m a (b :: bs) = wrBytes (wr8 m a b) (a + 1) bs := rfl
    rw [e]
    cases i with
    | zero =>
      rw [rd8_wrBytes_out _ _ _ _ (by omega)]
      exact rd8_wr8_same m a b
    | succ j =>
      have h2 : j < bs.length := by simpa using h
      have := ih (wr8 m a b) (a + 1) j h2
      simpa [Nat.add_assoc, Nat.add_comm 1 j] using this

@[simp] theorem leBytes_length (n : Nat) : ∀ x, (leBytes n x).length = n := by
  induction n with
  | zero => intro x; rfl
  | succ n ih => intro x; simp [leBytes, ih]

@[simp] theorem rdBytes_length (m : Memory) (n : Nat) : ∀ a, (rdBytes m a n).length = n := by
  induction n with
  | zero => intro a; rfl
  | succ n ih => intro a; simp [rdBytes, ih]

/-! ### Atomics and channels -/

theorem amoAt_wf (m : Memory) (fn : BitVec 4) (z : Size) (a : Nat) (b e : Word) (h : Memory.wf m = true) :
    Memory.wf (amoAt m fn z a b e).1 = true := by
  unfold amoAt; dsimp only; split
  · exact wrBytes_wf _ _ _ h
  · exact h

@[simp] theorem setErrs_dram (s : State) (w : Codeword) (l : List (BitVec 7)) : (setErrs s w l).dram = s.dram := rfl
@[simp] theorem setPoison_dram (s : State) (h : Nat) (on : Bool) : (s.setPoison h on).dram = s.dram := rfl

theorem foldl_dram {α : Type} (f : State → α → State) (l : List α) (hf : ∀ s a, (f s a).dram = s.dram) (s : State) :
    (l.foldl f s).dram = s.dram := by
  induction l generalizing s with
  | nil => rfl
  | cons a l ih => exact (ih _).trans (hf s a)

@[simp] theorem countHalves_dram (s : State) (hs : List Nat) : (countHalves s hs).dram = s.dram :=
 by
  unfold countHalves; rw [foldl_dram]; exact fun _ _ => rfl

/-- Counting what reads correct changes no byte. -/
@[simp] theorem countReads_dram (s : State) (as : List Nat) : (countReads s as).dram = s.dram := by
  unfold countReads; split <;> simp

@[simp] theorem countLine_dram (s : State) (l : Nat) : (countLine s l).dram = s.dram := by
  unfold countLine; split <;> simp

@[simp] theorem noteRaw_dram (s : State) (l : Nat) (raw : Bool) : (noteRaw s l raw).dram = s.dram := rfl

theorem mergeHalf_wf (cs : List Host.Cell) (bad : Bool) (s : State) (k : Nat) (h : Memory.wf s.dram = true) :
    Memory.wf (mergeHalf cs bad s k).dram = true := by
  unfold mergeHalf; dsimp only; split
  · exact wrCells_wf _ _ h
  · split
    · exact h
    · exact wrCells_wf _ _ h

theorem foldl_wf {α : Type} (f : State → α → State) (l : List α)
    (hf : ∀ s a, Memory.wf s.dram = true → Memory.wf (f s a).dram = true) (s : State) (h : Memory.wf s.dram = true) :
    Memory.wf (l.foldl f s).dram = true := by
  induction l generalizing s with
  | nil => exact h
  | cons a l ih => exact ih _ (hf s a h)

theorem writeLineCells_wf (cs : List Host.Cell) (s : State) (l : Nat) (h : Memory.wf s.dram = true) :
    Memory.wf (writeLineCells cs s l).dram = true := by
  unfold writeLineCells; dsimp only; split
  · exact foldl_wf _ _ (fun t a ht => mergeHalf_wf _ _ t a ht) s h
  · rw [noteRaw_dram, foldl_dram _ _ fun _ _ => setErrs_dram _ _ _]
    exact foldl_wf _ _ (fun t a ht => mergeHalf_wf _ _ t a ht) _ (by simpa using h)

/-- A write at the channels keeps the canonical form of memory. -/
theorem chanWrite_wf (s : State) (cs : List Host.Cell) (h : Memory.wf s.dram = true) :
    Memory.wf (chanWrite s cs).dram = true := foldl_wf _ _ (fun t l ht => writeLineCells_wf cs t l ht) s h

theorem chanUpdate_wf (s : State) (as : List Nat) (cs : List Host.Cell) (h : Memory.wf s.dram = true) :
    Memory.wf (chanUpdate s as cs).dram = true := chanWrite_wf _ _ (by simpa using h)

/-- The memories at reset list nothing. -/
theorem reset_dram_wf : Memory.wf State.reset.dram = true := rfl
theorem reset_core_memWf (c : CoreId) : (Core.reset c).MemWf := ⟨rfl, rfl, rfl⟩

end Sys2Proof.Machine
end

