-- ==== Sys2Proof/Laws/Ops.lean ====
section
/-! SUPPORT. What the shared operations can do: cores by id and the focus, the hoop, ports and their rings,
traps. -/

set_option Elab.async false
namespace Sys2Proof.Machine

/-! ### Cores by id and the focus -/

theorem tget_tput_off {α : Type} [DecidableEq α] (d1 d2 : α) (t : Table α) (a b : Nat) (x : α) (h : b ≠ a) :
    tget d2 (tput d1 t a x) b = tget d2 t b := by
  unfold tput
  split
  · exact tget_tdel_ne d2 t a b h
  · exact tget_tins_ne d2 t a b x h

theorem coreId_toNat_ne {a b : CoreId} (h : a ≠ b) : a.toNat ≠ b.toNat := fun e => h (BitVec.eq_of_toNat_eq e)

@[simp] theorem focus_coreId (s : State) (c : CoreId) : (s.focus c).coreId = c := by
  unfold State.focus; split <;> simp_all

@[simp] theorem focus_self (s : State) : s.focus s.coreId = s := by simp [State.focus]

@[simp] theorem coreAt_self (s : State) : s.coreAt s.coreId = s.core := by simp [State.coreAt]

@[simp] theorem focus_core (s : State) (c : CoreId) : (s.focus c).core = s.coreAt c := by
  unfold State.focus State.coreAt; split <;> rfl

/-- Turning to a core changes no core. -/
theorem coreAt_focus (s : State) (c d : CoreId) : (s.focus c).coreAt d = s.coreAt d := by
  by_cases hc : c = s.coreId
  · simp [hc]
  by_cases hd : d = c
  · have := coreAt_self (s.focus c)
    rw [focus_coreId, focus_core] at this
    rw [hd, this]
  unfold State.coreAt
  rw [focus_coreId, if_neg hd]
  unfold State.focus
  simp only [if_neg hc]
  by_cases h0 : d = s.coreId
  · rw [if_pos h0, h0, tget_tput_same]
  · rw [if_neg h0, tget_tput_off _ _ _ _ _ _ (coreId_toNat_ne h0), tget_tput_off _ _ _ _ _ _ (coreId_toNat_ne hd)]

theorem coreAt_setCore_same (s : State) (c : CoreId) (x : Core) : (s.setCore c x).coreAt c = x := by
  unfold State.setCore State.coreAt
  by_cases h : c = s.coreId
  · simp only [if_pos h]
  · simp only [if_neg h, tget_tput_same]

theorem coreAt_setCore_ne (s : State) (c d : CoreId) (x : Core) (h : d ≠ c) : (s.setCore c x).coreAt d = s.coreAt d := by
  unfold State.setCore State.coreAt
  by_cases hc : c = s.coreId
  · simp only [if_pos hc, if_neg (hc ▸ h)]
  · simp only [if_neg hc, tget_tput_off _ _ _ _ _ _ (coreId_toNat_ne h)]

/-! ### The hoop -/

/-- Placing effects: all of them in the open chunk, numbered; or, where they do not fit, a commit alone (R283). -/
theorem place_cases (s : State) (es : List Effect) :
    s.place es = ({ s.modCtx fun x => { x with hoop := x.hoop ++ es } with eids := s.eids + es.length }, true) ∨
      (2048 < hoopUsed s.ctx + effBytes es ∧ s.place es = (s.commit, false)) := by
  unfold State.place
  split
  · exact .inl rfl
  · exact .inr ⟨by omega, rfl⟩

/-- One effect placed and then k, or a stall after a commit. -/
theorem placing_cases (s : State) (a : Aim) (op : Op) (k : State → Out) :
    placing s a op k = k { s.modCtx fun x => { x with hoop := x.hoop ++ [mkEffect s s.ctx a op] } with eids := s.eids + 1 } ∨
      placing s a op k = stallOut s.commit := by
  unfold placing
  obtain h | ⟨-, h⟩ := place_cases s [mkEffect s s.ctx a op] <;> rw [h]
  · exact .inl rfl
  · exact .inr rfl

/-! ### Ports and their rings -/

/-- A note changes rings alone. -/
theorem noteAccess_eq (s : State) (p : PortKey) (e : Seen) :
    noteAccess s p e = { s with rings := (noteAccess s p e).rings } := by
  unfold noteAccess
  simp only
  generalize tget Ring.reset s.rings (portNo p) = r
  by_cases h1 : (!(admits r e)) = true
  · simp only [if_pos h1]
  simp only [if_neg h1]
  by_cases h2 : r.replay = true
  · simp only [if_pos h2]
  simp only [if_neg h2]
  by_cases h3 : (r.en && !(r.stop && decide (256 ≤ r.log.length))) = true
  · simp only [if_pos h3]
  · simp only [if_neg h3]

@[simp] theorem noteAccess_core (s : State) (p : PortKey) (e : Seen) : (noteAccess s p e).core = s.core := by
  rw [noteAccess_eq]

@[simp] theorem noteAccess_coreId (s : State) (p : PortKey) (e : Seen) : (noteAccess s p e).coreId = s.coreId := by
  rw [noteAccess_eq]

@[simp] theorem noteAccess_records (s : State) (p : PortKey) (e : Seen) : (noteAccess s p e).records = s.records := by
  rw [noteAccess_eq]

/-- With no ring set, nothing is held. -/
theorem replayHolds_quiet (s : State) (p : PortKey) (e : Seen) (h : s.rings = []) : replayHolds s p e = false := by
  simp [replayHolds, h, tget, Ring.reset]

/-- With no ring set, nothing is noted. -/
theorem noteAccess_quiet (s : State) (p : PortKey) (e : Seen) (h : s.rings = []) : noteAccess s p e = s := by
  simp [noteAccess, h, tget, Ring.reset]

/-- An access at an own port is performed, or replay holds it and the context stalls. -/
theorem atOwnPort_cases (s : State) (p : PortKey) (kind addr : Nat) (k : State → Out) :
    (replayHolds s p (ownSeen s kind addr) = true ∧ atOwnPort s p kind addr k = stallOut s) ∨
      atOwnPort s p kind addr k = k (noteAccess s p (ownSeen s kind addr)) := by
  unfold atOwnPort
  by_cases h : replayHolds s p (ownSeen s kind addr) = true
  · exact .inl ⟨h, by simp [h]⟩
  · exact .inr (by simp [h])

theorem atOwnPort_quiet (s : State) (p : PortKey) (kind addr : Nat) (k : State → Out) (h : s.rings = []) :
    atOwnPort s p kind addr k = k s := by
  simp [atOwnPort, replayHolds_quiet s p _ h, noteAccess_quiet s p _ h]

theorem mxNotes_quiet (s : State) (h : s.rings = []) (l : List (PortKey × Nat × Nat)) : mxNotes s l = some s := by
  induction l with
  | nil => rfl
  | cons p ps ih => simp [mxNotes, replayHolds_quiet s _ _ h, noteAccess_quiet s _ _ h, ih]

@[simp] theorem seenAt_quiet (s : State) (p : PortKey) (e : Seen) (h : s.rings = []) : seenAt s p e = some s := by
  simp [seenAt, replayHolds_quiet s p e h, noteAccess_quiet s p e h]

theorem cpNotes_quiet (s : State) (kind : Nat) (h : s.rings = []) (l : List (PortKey × Nat)) : cpNotes s kind l = some s := by
  induction l with
  | nil => rfl
  | cons p ps ih => simp [cpNotes, seenAt_quiet s _ _ h, ih]

/-! ### Check bits -/

/-- With no word struck, nothing is corrected and nothing is lost. -/
@[simp] theorem consume_clean (s : State) (m : Array) (ws : List Nat) (h : s.core.flips = []) :
    s.consume m ws = (s, false) := by simp [State.consume, h]

@[simp] theorem rewrite_clean (s : State) (m : Array) (n : Nat) (cs : List Host.Cell) (h : s.core.flips = []) :
    s.rewrite m n cs = (s, false) := by simp [State.rewrite, h]

theorem consuming_clean (s : State) (m : Array) (n : Nat) (as : List Nat) (k : State → Out) (h : s.core.flips = []) :
    consuming s m n as k = k s := by simp [consuming, h]

theorem rewriting_clean (s : State) (m : Array) (n : Nat) (cs : List Host.Cell) (k : State → Out) (h : s.core.flips = []) :
    rewriting s m n cs k = k s := by simp [rewriting, h]

@[simp] theorem freshWords_clean (m : Array) (ws : List Nat) (k : Core) (h : k.flips = []) : freshWords m ws k = k := by
  simp [freshWords, h]

theorem noteLines_quiet (s : State) (ps : List (Nat × Xlate)) (kind : Nat) (h : s.rings = []) (l : List Nat) :
    noteLines s ps kind l = some s := by
  induction l with
  | nil => rfl
  | cons a as ih =>
    unfold noteLines
    split
    · simp [replayHolds_quiet s _ _ h, noteAccess_quiet s _ _ h, ih]
    · exact ih

/-- The notes of the matrix unit change rings alone. -/
theorem mxNotes_eq (l : List (PortKey × Nat × Nat)) : ∀ s t : State, mxNotes s l = some t → t = { s with rings := t.rings } := by
  induction l with
  | nil => intro s t h; cases h; rfl
  | cons p ps ih =>
    intro s t h
    simp only [mxNotes] at h
    by_cases hr : replayHolds s p.1 ⟨s.coreId, 5, p.2.1, false, p.2.2, false⟩ = true
    · simp only [if_pos hr] at h; cases h
    · simp only [if_neg hr] at h
      have e := ih _ _ h
      rw [noteAccess_eq] at e
      exact e

/-! ### Traps -/

/-- An abortive trap always goes on, and leaves one more record (R29). -/
theorem trapOut_next (s : State) (c : Cause) : trapOut s c = .next (abortCtx s s.core.cur c) := rfl

/-- What words consumed change is the core in focus. -/
theorem consume_records (s : State) (m : Array) (ws : List Nat) : (s.consume m ws).1.records = s.records := by
  unfold State.consume; split <;> rfl

theorem readLv_records (s : State) (c : CtxNo) : (readLv s c).1.records = s.records := by
  unfold readLv; dsimp only; split
  · rw [consume_records]; exact noteAccess_records s _ _
  · rfl

theorem readLvDoom_records (s : State) (c : CtxNo) : (readLvDoom s c).records = s.records := by
  unfold readLvDoom; dsimp only; split <;> exact readLv_records s c

theorem dropD0_records (s : State) (c : CtxNo) : (dropD0 s c).records = s.records := by
  rw [← readLvDoom_records s c]
  simp only [dropD0]
  by_cases h : ownerOfD0 (readLvDoom s c) c = true
  · simp only [if_pos h, State.modCtxAt_records]
  · simp only [if_neg h, State.modCore_records]

theorem endD0_records (s : State) (c : CtxNo) : (endD0 s c).records = s.records := by
  unfold endD0; split
  · rfl
  · exact dropD0_records s c

/-- Where replay holds nothing at the scratchpad, an ending deals with its d0 frame at once (R350). -/
theorem endD0_free (s : State) (c : CtxNo) (h : lvHeld s c = false) : endD0 s c = dropD0 s c := by simp [endD0, h]

theorem freeHead_records (s : State) (c : CtxNo) (h : BitVec 2) : (freeHead s c h).records = s.records := by
  simp only [freeHead]
  by_cases hb : (headAt (s.ctxAt c) h).bnd = true
  · simp only [if_pos hb, State.modCtxAt_records, State.modCore_records]
  · simp only [if_neg hb]

theorem abortAs_records (s : State) (c : CtxNo) (cause : Cause) (b : Bool) (adds : List Nat) (p : Option Bool) :
    (abortAs s c cause b adds p).records = s.records ++ [.fault s.coreId c cause (s.ctxAt c).pc (Record.id (s.ctxAt c).task)
      (s.ctxAt c).committed b adds p] := by
  unfold abortAs State.report
  simp [freeHeads, endD0_records, freeHead_records]

theorem abortWith_records (s : State) (c : CtxNo) (cause : Cause) (b : Bool) (adds : List Nat) :
    (abortWith s c cause b adds).records = s.records ++ [.fault s.coreId c cause (s.ctxAt c).pc (Record.id (s.ctxAt c).task)
      (s.ctxAt c).committed b adds (if b then some false else none)] := abortAs_records s c cause b adds _

/-- A significance trap writes the current context alone (R32). -/
theorem sigTrap_ctx (s : State) (op : Word) : (sigTrap s op).ctx.sigpc = s.ctx.pc ∧ (sigTrap s op).ctx.sigop = op ∧
    (sigTrap s op).ctx.pc = s.ctx.sigvec ∧ (sigTrap s op).ctx.sigmode.inh = true := by
  simp [sigTrap]

end Sys2Proof.Machine
end

