-- ==== Sys2Proof/Laws/PerInstr.lean ====
section
/-! SUPPORT. Per-instruction families: WordForm says of each instruction that the encoder gives it a word exactly
if its row of the opcode table has one (R34); an event has none. -/

set_option Elab.async false
namespace Sys2Proof.Laws.WordForm

/-- The encoder gives i a word exactly if its row has one. -/
def Statement (i : Sys2Proof.Instr) : Prop := (Sys2Proof.encode i).isSome = i.hasWord

theorem add : ∀ x0 x1 x2, Statement (.add x0 x1 x2) := fun _ _ _ => rfl
theorem sub : ∀ x0 x1 x2, Statement (.sub x0 x1 x2) := fun _ _ _ => rfl
theorem and : ∀ x0 x1 x2, Statement (.and x0 x1 x2) := fun _ _ _ => rfl
theorem or : ∀ x0 x1 x2, Statement (.or x0 x1 x2) := fun _ _ _ => rfl
theorem xor : ∀ x0 x1 x2, Statement (.xor x0 x1 x2) := fun _ _ _ => rfl
theorem andn : ∀ x0 x1 x2, Statement (.andn x0 x1 x2) := fun _ _ _ => rfl
theorem orn : ∀ x0 x1 x2, Statement (.orn x0 x1 x2) := fun _ _ _ => rfl
theorem sll : ∀ x0 x1 x2, Statement (.sll x0 x1 x2) := fun _ _ _ => rfl
theorem srl : ∀ x0 x1 x2, Statement (.srl x0 x1 x2) := fun _ _ _ => rfl
theorem sra : ∀ x0 x1 x2, Statement (.sra x0 x1 x2) := fun _ _ _ => rfl
theorem rol : ∀ x0 x1 x2, Statement (.rol x0 x1 x2) := fun _ _ _ => rfl
theorem ror : ∀ x0 x1 x2, Statement (.ror x0 x1 x2) := fun _ _ _ => rfl
theorem slt : ∀ x0 x1 x2, Statement (.slt x0 x1 x2) := fun _ _ _ => rfl
theorem sltu : ∀ x0 x1 x2, Statement (.sltu x0 x1 x2) := fun _ _ _ => rfl
theorem min : ∀ x0 x1 x2, Statement (.min x0 x1 x2) := fun _ _ _ => rfl
theorem max : ∀ x0 x1 x2, Statement (.max x0 x1 x2) := fun _ _ _ => rfl
theorem minu : ∀ x0 x1 x2, Statement (.minu x0 x1 x2) := fun _ _ _ => rfl
theorem maxu : ∀ x0 x1 x2, Statement (.maxu x0 x1 x2) := fun _ _ _ => rfl
theorem mul : ∀ x0 x1 x2, Statement (.mul x0 x1 x2) := fun _ _ _ => rfl
theorem mulhi : ∀ x0 x1 x2, Statement (.mulhi x0 x1 x2) := fun _ _ _ => rfl
theorem mulhin : ∀ x0 x1 x2, Statement (.mulhin x0 x1 x2) := fun _ _ _ => rfl
theorem mulhix : ∀ x0 x1 x2, Statement (.mulhix x0 x1 x2) := fun _ _ _ => rfl
theorem quo : ∀ x0 x1 x2, Statement (.quo x0 x1 x2) := fun _ _ _ => rfl
theorem quon : ∀ x0 x1 x2, Statement (.quon x0 x1 x2) := fun _ _ _ => rfl
theorem rmd : ∀ x0 x1 x2, Statement (.rmd x0 x1 x2) := fun _ _ _ => rfl
theorem rmdn : ∀ x0 x1 x2, Statement (.rmdn x0 x1 x2) := fun _ _ _ => rfl
theorem clz : ∀ x0 x1, Statement (.clz x0 x1) := fun _ _ => rfl
theorem ctz : ∀ x0 x1, Statement (.ctz x0 x1) := fun _ _ => rfl
theorem popc : ∀ x0 x1, Statement (.popc x0 x1) := fun _ _ => rfl
theorem bswap : ∀ x0 x1, Statement (.bswap x0 x1) := fun _ _ => rfl
theorem sextb : ∀ x0 x1, Statement (.sextb x0 x1) := fun _ _ => rfl
theorem sexth : ∀ x0 x1, Statement (.sexth x0 x1) := fun _ _ => rfl
theorem sextw : ∀ x0 x1, Statement (.sextw x0 x1) := fun _ _ => rfl
theorem addi : ∀ x0 x1 x2, Statement (.addi x0 x1 x2) := fun _ _ _ => rfl
theorem andi : ∀ x0 x1 x2, Statement (.andi x0 x1 x2) := fun _ _ _ => rfl
theorem ori : ∀ x0 x1 x2, Statement (.ori x0 x1 x2) := fun _ _ _ => rfl
theorem xori : ∀ x0 x1 x2, Statement (.xori x0 x1 x2) := fun _ _ _ => rfl
theorem slli : ∀ x0 x1 x2, Statement (.slli x0 x1 x2) := fun _ _ _ => rfl
theorem srli : ∀ x0 x1 x2, Statement (.srli x0 x1 x2) := fun _ _ _ => rfl
theorem srai : ∀ x0 x1 x2, Statement (.srai x0 x1 x2) := fun _ _ _ => rfl
theorem slti : ∀ x0 x1 x2, Statement (.slti x0 x1 x2) := fun _ _ _ => rfl
theorem sltiu : ∀ x0 x1 x2, Statement (.sltiu x0 x1 x2) := fun _ _ _ => rfl
theorem liz : ∀ x0 x1 x2, Statement (.liz x0 x1 x2) := fun _ _ _ => rfl
theorem lik : ∀ x0 x1 x2, Statement (.lik x0 x1 x2) := fun _ _ _ => rfl
theorem adpc : ∀ x0 x1, Statement (.adpc x0 x1) := fun _ _ => rfl
theorem beq : ∀ x0 x1 x2, Statement (.beq x0 x1 x2) := fun _ _ _ => rfl
theorem bne : ∀ x0 x1 x2, Statement (.bne x0 x1 x2) := fun _ _ _ => rfl
theorem blt : ∀ x0 x1 x2, Statement (.blt x0 x1 x2) := fun _ _ _ => rfl
theorem bge : ∀ x0 x1 x2, Statement (.bge x0 x1 x2) := fun _ _ _ => rfl
theorem bltu : ∀ x0 x1 x2, Statement (.bltu x0 x1 x2) := fun _ _ _ => rfl
theorem bgeu : ∀ x0 x1 x2, Statement (.bgeu x0 x1 x2) := fun _ _ _ => rfl
theorem jal : ∀ x0, Statement (.jal x0) := fun _ => rfl
theorem jalr : ∀ x0 x1 x2, Statement (.jalr x0 x1 x2) := fun _ _ _ => rfl
theorem bsig : ∀ x0 x1 x2, Statement (.bsig x0 x1 x2) := fun _ _ _ => rfl
theorem bmaskNone : ∀ x0 x1, Statement (.bmaskNone x0 x1) := fun _ _ => rfl
theorem bmaskAny : ∀ x0 x1, Statement (.bmaskAny x0 x1) := fun _ _ => rfl
theorem bmaskAll : ∀ x0 x1, Statement (.bmaskAll x0 x1) := fun _ _ => rfl
theorem bmaskNonec : ∀ x0 x1, Statement (.bmaskNonec x0 x1) := fun _ _ => rfl
theorem bmaskAnyc : ∀ x0 x1, Statement (.bmaskAnyc x0 x1) := fun _ _ => rfl
theorem bmaskAllc : ∀ x0 x1, Statement (.bmaskAllc x0 x1) := fun _ _ => rfl
theorem lb : ∀ x0 x1 x2, Statement (.lb x0 x1 x2) := fun _ _ _ => rfl
theorem lbu : ∀ x0 x1 x2, Statement (.lbu x0 x1 x2) := fun _ _ _ => rfl
theorem lh : ∀ x0 x1 x2, Statement (.lh x0 x1 x2) := fun _ _ _ => rfl
theorem lhu : ∀ x0 x1 x2, Statement (.lhu x0 x1 x2) := fun _ _ _ => rfl
theorem lw : ∀ x0 x1 x2, Statement (.lw x0 x1 x2) := fun _ _ _ => rfl
theorem lwu : ∀ x0 x1 x2, Statement (.lwu x0 x1 x2) := fun _ _ _ => rfl
theorem ld : ∀ x0 x1 x2, Statement (.ld x0 x1 x2) := fun _ _ _ => rfl
theorem sb : ∀ x0 x1 x2, Statement (.sb x0 x1 x2) := fun _ _ _ => rfl
theorem sh : ∀ x0 x1 x2, Statement (.sh x0 x1 x2) := fun _ _ _ => rfl
theorem sw : ∀ x0 x1 x2, Statement (.sw x0 x1 x2) := fun _ _ _ => rfl
theorem sd : ∀ x0 x1 x2, Statement (.sd x0 x1 x2) := fun _ _ _ => rfl
theorem fadd : ∀ x0 x1 x2 x3 x4, Statement (.fadd x0 x1 x2 x3 x4) := fun _ _ _ _ _ => rfl
theorem fsub : ∀ x0 x1 x2 x3 x4, Statement (.fsub x0 x1 x2 x3 x4) := fun _ _ _ _ _ => rfl
theorem fmul : ∀ x0 x1 x2 x3 x4, Statement (.fmul x0 x1 x2 x3 x4) := fun _ _ _ _ _ => rfl
theorem fdiv : ∀ x0 x1 x2 x3 x4, Statement (.fdiv x0 x1 x2 x3 x4) := fun _ _ _ _ _ => rfl
theorem fsqrt : ∀ x0 x1 x2 x3, Statement (.fsqrt x0 x1 x2 x3) := fun _ _ _ _ => rfl
theorem fmin : ∀ x0 x1 x2 x3, Statement (.fmin x0 x1 x2 x3) := fun _ _ _ _ => rfl
theorem fmax : ∀ x0 x1 x2 x3, Statement (.fmax x0 x1 x2 x3) := fun _ _ _ _ => rfl
theorem feq : ∀ x0 x1 x2 x3, Statement (.feq x0 x1 x2 x3) := fun _ _ _ _ => rfl
theorem flt : ∀ x0 x1 x2 x3, Statement (.flt x0 x1 x2 x3) := fun _ _ _ _ => rfl
theorem fle : ∀ x0 x1 x2 x3, Statement (.fle x0 x1 x2 x3) := fun _ _ _ _ => rfl
theorem fclass : ∀ x0 x1 x2, Statement (.fclass x0 x1 x2) := fun _ _ _ => rfl
theorem fcps : ∀ x0 x1 x2 x3, Statement (.fcps x0 x1 x2 x3) := fun _ _ _ _ => rfl
theorem fcpsn : ∀ x0 x1 x2 x3, Statement (.fcpsn x0 x1 x2 x3) := fun _ _ _ _ => rfl
theorem fcpsx : ∀ x0 x1 x2 x3, Statement (.fcpsx x0 x1 x2 x3) := fun _ _ _ _ => rfl
theorem fcvti : ∀ x0 x1 x2 x3, Statement (.fcvti x0 x1 x2 x3) := fun _ _ _ _ => rfl
theorem fcvtu : ∀ x0 x1 x2 x3, Statement (.fcvtu x0 x1 x2 x3) := fun _ _ _ _ => rfl
theorem fcvtf : ∀ x0 x1 x2 x3, Statement (.fcvtf x0 x1 x2 x3) := fun _ _ _ _ => rfl
theorem fcvtfu : ∀ x0 x1 x2 x3, Statement (.fcvtfu x0 x1 x2 x3) := fun _ _ _ _ => rfl
theorem fcvtp : ∀ x0 x1 x2 x3, Statement (.fcvtp x0 x1 x2 x3) := fun _ _ _ _ => rfl
theorem fsig : ∀ x0 x1 x2, Statement (.fsig x0 x1 x2) := fun _ _ _ => rfl
theorem fsetsig : ∀ x0 x1 x2 x3, Statement (.fsetsig x0 x1 x2 x3) := fun _ _ _ _ => rfl
theorem frint : ∀ x0 x1 x2 x3, Statement (.frint x0 x1 x2 x3) := fun _ _ _ _ => rfl
theorem fmvi : ∀ x0 x1 x2, Statement (.fmvi x0 x1 x2) := fun _ _ _ => rfl
theorem fma : ∀ x0 x1 x2 x3 x4 x5, Statement (.fma x0 x1 x2 x3 x4 x5) := fun _ _ _ _ _ _ => rfl
theorem fms : ∀ x0 x1 x2 x3 x4 x5, Statement (.fms x0 x1 x2 x3 x4 x5) := fun _ _ _ _ _ _ => rfl
theorem fnma : ∀ x0 x1 x2 x3 x4 x5, Statement (.fnma x0 x1 x2 x3 x4 x5) := fun _ _ _ _ _ _ => rfl
theorem fnms : ∀ x0 x1 x2 x3 x4 x5, Statement (.fnms x0 x1 x2 x3 x4 x5) := fun _ _ _ _ _ _ => rfl
theorem aadd : ∀ x0 x1 x2 x3 x4 x5, Statement (.aadd x0 x1 x2 x3 x4 x5) := fun _ _ _ _ _ _ => rfl
theorem aand : ∀ x0 x1 x2 x3 x4 x5, Statement (.aand x0 x1 x2 x3 x4 x5) := fun _ _ _ _ _ _ => rfl
theorem aor : ∀ x0 x1 x2 x3 x4 x5, Statement (.aor x0 x1 x2 x3 x4 x5) := fun _ _ _ _ _ _ => rfl
theorem axor : ∀ x0 x1 x2 x3 x4 x5, Statement (.axor x0 x1 x2 x3 x4 x5) := fun _ _ _ _ _ _ => rfl
theorem amin : ∀ x0 x1 x2 x3 x4 x5, Statement (.amin x0 x1 x2 x3 x4 x5) := fun _ _ _ _ _ _ => rfl
theorem amax : ∀ x0 x1 x2 x3 x4 x5, Statement (.amax x0 x1 x2 x3 x4 x5) := fun _ _ _ _ _ _ => rfl
theorem aminu : ∀ x0 x1 x2 x3 x4 x5, Statement (.aminu x0 x1 x2 x3 x4 x5) := fun _ _ _ _ _ _ => rfl
theorem amaxu : ∀ x0 x1 x2 x3 x4 x5, Statement (.amaxu x0 x1 x2 x3 x4 x5) := fun _ _ _ _ _ _ => rfl
theorem aswp : ∀ x0 x1 x2 x3 x4 x5, Statement (.aswp x0 x1 x2 x3 x4 x5) := fun _ _ _ _ _ _ => rfl
theorem acas : ∀ x0 x1 x2 x3 x4 x5, Statement (.acas x0 x1 x2 x3 x4 x5) := fun _ _ _ _ _ _ => rfl
theorem afadd : ∀ x0 x1 x2 x3 x4 x5, Statement (.afadd x0 x1 x2 x3 x4 x5) := fun _ _ _ _ _ _ => rfl
theorem ldf : ∀ x0 x1 x2, Statement (.ldf x0 x1 x2) := fun _ _ _ => rfl
theorem stf : ∀ x0 x1 x2, Statement (.stf x0 x1 x2) := fun _ _ _ => rfl
theorem ldfa : ∀ x0 x1 x2, Statement (.ldfa x0 x1 x2) := fun _ _ _ => rfl
theorem stfr : ∀ x0 x1 x2, Statement (.stfr x0 x1 x2) := fun _ _ _ => rfl
theorem fadr : ∀ x0 x1 x2, Statement (.fadr x0 x1 x2) := fun _ _ _ => rfl
theorem fref : ∀ x0, Statement (.fref x0) := fun _ => rfl
theorem frel : ∀ x0, Statement (.frel x0) := fun _ => rfl
theorem dspl : ∀ x0 x1, Statement (.dspl x0 x1) := fun _ _ => rfl
theorem dsps : ∀ x0 x1, Statement (.dsps x0 x1) := fun _ _ => rfl
theorem tsave : ∀ x0 x1 x2, Statement (.tsave x0 x1 x2) := fun _ _ _ => rfl
theorem trestore : ∀ x0 x1 x2, Statement (.trestore x0 x1 x2) := fun _ _ _ => rfl
theorem vtsave : ∀ x0 x1 x2, Statement (.vtsave x0 x1 x2) := fun _ _ _ => rfl
theorem vtrestore : ∀ x0 x1 x2, Statement (.vtrestore x0 x1 x2) := fun _ _ _ => rfl
theorem send : ∀ x0 x1 x2 x3, Statement (.send x0 x1 x2 x3) := fun _ _ _ _ => rfl
theorem sendm : ∀ x0 x1 x2 x3, Statement (.sendm x0 x1 x2 x3) := fun _ _ _ _ => rfl
theorem cdec : ∀ x0 x1, Statement (.cdec x0 x1) := fun _ _ => rfl
theorem spawn : ∀ x0 x1 x2 x3, Statement (.spawn x0 x1 x2 x3) := fun _ _ _ _ => rfl
theorem spawnCap : ∀ x0 x1 x2 x3, Statement (.spawnCap x0 x1 x2 x3) := fun _ _ _ _ => rfl
theorem sev : ∀ x0, Statement (.sev x0) := fun _ => rfl
theorem arrive : ∀ x0 x1 x2, Statement (.arrive x0 x1 x2) := fun _ _ _ => rfl
theorem wait : ∀ x0 x1 x2, Statement (.wait x0 x1 x2) := fun _ _ _ => rfl
theorem btest : ∀ x0 x1 x2 x3, Statement (.btest x0 x1 x2 x3) := fun _ _ _ _ => rfl
theorem qpush : ∀ x0 x1, Statement (.qpush x0 x1) := fun _ _ => rfl
theorem qpop : ∀ x0 x1, Statement (.qpop x0 x1) := fun _ _ => rfl
theorem qtry : ∀ x0 x1 x2, Statement (.qtry x0 x1 x2) := fun _ _ _ => rfl
theorem qcnt : ∀ x0 x1, Statement (.qcnt x0 x1) := fun _ _ => rfl
theorem hbind : ∀ x0 x1, Statement (.hbind x0 x1) := fun _ _ => rfl
theorem hfree : ∀ x0, Statement (.hfree x0) := fun _ => rfl
theorem seek : ∀ x0 x1, Statement (.seek x0 x1) := fun _ _ => rfl
theorem hwait : ∀ x0, Statement (.hwait x0) := fun _ => rfl
theorem rds : ∀ x0 x1, Statement (.rds x0 x1) := fun _ _ => rfl
theorem wrs : ∀ x0 x1, Statement (.wrs x0 x1) := fun _ _ => rfl
theorem rwd : ∀ x0, Statement (.rwd x0) := fun _ => rfl
theorem hstat : ∀ x0 x1, Statement (.hstat x0 x1) := fun _ _ => rfl
theorem mxc : ∀ x0, Statement (.mxc x0) := fun _ => rfl
theorem mxr : ∀ x0 x1 x2 x3 x4 x5 x6, Statement (.mxr x0 x1 x2 x3 x4 x5 x6) := fun _ _ _ _ _ _ _ => rfl
theorem mxw : ∀ x0 x1, Statement (.mxw x0 x1) := fun _ _ => rfl
theorem mxs : ∀ x0 x1, Statement (.mxs x0 x1) := fun _ _ => rfl
theorem cpc : ∀ x0, Statement (.cpc x0) := fun _ => rfl
theorem cps : ∀ x0, Statement (.cps x0) := fun _ => rfl
theorem rep : ∀ x0 x1 x2 x3 x4, Statement (.rep x0 x1 x2 x3 x4) := fun _ _ _ _ _ => rfl
theorem srr : ∀ x0 x1, Statement (.srr x0 x1) := fun _ _ => rfl
theorem srw : ∀ x0 x1, Statement (.srw x0 x1) := fun _ _ => rfl
theorem srx : ∀ x0 x1 x2, Statement (.srx x0 x1 x2) := fun _ _ _ => rfl
theorem trap : ∀ x0, Statement (.trap x0) := fun _ => rfl
theorem vfadd : ∀ x0 x1, Statement (.vfadd x0 x1) := fun _ _ => rfl
theorem vfsub : ∀ x0 x1, Statement (.vfsub x0 x1) := fun _ _ => rfl
theorem vfmul : ∀ x0 x1, Statement (.vfmul x0 x1) := fun _ _ => rfl
theorem vfdiv : ∀ x0 x1, Statement (.vfdiv x0 x1) := fun _ _ => rfl
theorem vfsqrt : ∀ x0 x1, Statement (.vfsqrt x0 x1) := fun _ _ => rfl
theorem vfmin : ∀ x0 x1, Statement (.vfmin x0 x1) := fun _ _ => rfl
theorem vfmax : ∀ x0 x1, Statement (.vfmax x0 x1) := fun _ _ => rfl
theorem vfabs : ∀ x0 x1, Statement (.vfabs x0 x1) := fun _ _ => rfl
theorem vfneg : ∀ x0 x1, Statement (.vfneg x0 x1) := fun _ _ => rfl
theorem vadd : ∀ x0 x1, Statement (.vadd x0 x1) := fun _ _ => rfl
theorem vsub : ∀ x0 x1, Statement (.vsub x0 x1) := fun _ _ => rfl
theorem vmul : ∀ x0 x1, Statement (.vmul x0 x1) := fun _ _ => rfl
theorem vmulh : ∀ x0 x1, Statement (.vmulh x0 x1) := fun _ _ => rfl
theorem vand : ∀ x0 x1, Statement (.vand x0 x1) := fun _ _ => rfl
theorem vor : ∀ x0 x1, Statement (.vor x0 x1) := fun _ _ => rfl
theorem vxor : ∀ x0 x1, Statement (.vxor x0 x1) := fun _ _ => rfl
theorem vsll : ∀ x0 x1, Statement (.vsll x0 x1) := fun _ _ => rfl
theorem vsrl : ∀ x0 x1, Statement (.vsrl x0 x1) := fun _ _ => rfl
theorem vsra : ∀ x0 x1, Statement (.vsra x0 x1) := fun _ _ => rfl
theorem vmin : ∀ x0 x1, Statement (.vmin x0 x1) := fun _ _ => rfl
theorem vmax : ∀ x0 x1, Statement (.vmax x0 x1) := fun _ _ => rfl
theorem vminu : ∀ x0 x1, Statement (.vminu x0 x1) := fun _ _ => rfl
theorem vmaxu : ∀ x0 x1, Statement (.vmaxu x0 x1) := fun _ _ => rfl
theorem vadds : ∀ x0 x1, Statement (.vadds x0 x1) := fun _ _ => rfl
theorem vsubs : ∀ x0 x1, Statement (.vsubs x0 x1) := fun _ _ => rfl
theorem vfma : ∀ x0 x1, Statement (.vfma x0 x1) := fun _ _ => rfl
theorem vfms : ∀ x0 x1, Statement (.vfms x0 x1) := fun _ _ => rfl
theorem vfnma : ∀ x0 x1, Statement (.vfnma x0 x1) := fun _ _ => rfl
theorem vfnms : ∀ x0 x1, Statement (.vfnms x0 x1) := fun _ _ => rfl
theorem vdot2 : ∀ x0 x1, Statement (.vdot2 x0 x1) := fun _ _ => rfl
theorem vfeq : ∀ x0 x1, Statement (.vfeq x0 x1) := fun _ _ => rfl
theorem vflt : ∀ x0 x1, Statement (.vflt x0 x1) := fun _ _ => rfl
theorem vfle : ∀ x0 x1, Statement (.vfle x0 x1) := fun _ _ => rfl
theorem veq : ∀ x0 x1, Statement (.veq x0 x1) := fun _ _ => rfl
theorem vne : ∀ x0 x1, Statement (.vne x0 x1) := fun _ _ => rfl
theorem vlt : ∀ x0 x1, Statement (.vlt x0 x1) := fun _ _ => rfl
theorem vltu : ∀ x0 x1, Statement (.vltu x0 x1) := fun _ _ => rfl
theorem mand : ∀ x0 x1 x2 x3 x4, Statement (.mand x0 x1 x2 x3 x4) := fun _ _ _ _ _ => rfl
theorem mor : ∀ x0 x1 x2 x3 x4, Statement (.mor x0 x1 x2 x3 x4) := fun _ _ _ _ _ => rfl
theorem mxor : ∀ x0 x1 x2 x3 x4, Statement (.mxor x0 x1 x2 x3 x4) := fun _ _ _ _ _ => rfl
theorem mandn : ∀ x0 x1 x2 x3 x4, Statement (.mandn x0 x1 x2 x3 x4) := fun _ _ _ _ _ => rfl
theorem mnot : ∀ x0 x1 x2 x3, Statement (.mnot x0 x1 x2 x3) := fun _ _ _ _ => rfl
theorem mpop : ∀ x0 x1 x2 x3, Statement (.mpop x0 x1 x2 x3) := fun _ _ _ _ => rfl
theorem mfirst : ∀ x0 x1 x2 x3, Statement (.mfirst x0 x1 x2 x3) := fun _ _ _ _ => rfl
theorem mset : ∀ x0 x1 x2, Statement (.mset x0 x1 x2) := fun _ _ _ => rfl
theorem vslideup : ∀ x0 x1 x2, Statement (.vslideup x0 x1 x2) := fun _ _ _ => rfl
theorem vslidedn : ∀ x0 x1 x2, Statement (.vslidedn x0 x1 x2) := fun _ _ _ => rfl
theorem vperm : ∀ x0 x1 x2, Statement (.vperm x0 x1 x2) := fun _ _ _ => rfl
theorem vbcast : ∀ x0 x1 x2, Statement (.vbcast x0 x1 x2) := fun _ _ _ => rfl
theorem vsel : ∀ x0 x1, Statement (.vsel x0 x1) := fun _ _ => rfl
theorem vcompress : ∀ x0 x1 x2, Statement (.vcompress x0 x1 x2) := fun _ _ _ => rfl
theorem vrsum : ∀ x0 x1 x2 x3, Statement (.vrsum x0 x1 x2 x3) := fun _ _ _ _ => rfl
theorem vrmax : ∀ x0 x1 x2 x3, Statement (.vrmax x0 x1 x2 x3) := fun _ _ _ _ => rfl
theorem vrmin : ∀ x0 x1 x2 x3, Statement (.vrmin x0 x1 x2 x3) := fun _ _ _ _ => rfl
theorem vradd : ∀ x0 x1 x2 x3, Statement (.vradd x0 x1 x2 x3) := fun _ _ _ _ => rfl
theorem vrand : ∀ x0 x1 x2 x3, Statement (.vrand x0 x1 x2 x3) := fun _ _ _ _ => rfl
theorem vcvt : ∀ x0 x1 x2 x3, Statement (.vcvt x0 x1 x2 x3) := fun _ _ _ _ => rfl
theorem vcvts : ∀ x0 x1 x2 x3, Statement (.vcvts x0 x1 x2 x3) := fun _ _ _ _ => rfl
theorem vld : ∀ x0 x1 x2 x3 x4, Statement (.vld x0 x1 x2 x3 x4) := fun _ _ _ _ _ => rfl
theorem vlds : ∀ x0 x1 x2 x3 x4 x5, Statement (.vlds x0 x1 x2 x3 x4 x5) := fun _ _ _ _ _ _ => rfl
theorem vldp : ∀ x0 x1 x2 x3 x4, Statement (.vldp x0 x1 x2 x3 x4) := fun _ _ _ _ _ => rfl
theorem vst : ∀ x0 x1 x2 x3 x4, Statement (.vst x0 x1 x2 x3 x4) := fun _ _ _ _ _ => rfl
theorem vsts : ∀ x0 x1 x2 x3 x4 x5, Statement (.vsts x0 x1 x2 x3 x4 x5) := fun _ _ _ _ _ _ => rfl
theorem vstp : ∀ x0 x1 x2 x3 x4, Statement (.vstp x0 x1 x2 x3 x4) := fun _ _ _ _ _ => rfl
theorem vgather : ∀ x0 x1 x2 x3 x4 x5, Statement (.vgather x0 x1 x2 x3 x4 x5) := fun _ _ _ _ _ _ => rfl
theorem vscatter : ∀ x0 x1 x2 x3 x4, Statement (.vscatter x0 x1 x2 x3 x4) := fun _ _ _ _ _ => rfl
theorem madd3 : ∀ x0 x1 x2 x3 x4, Statement (.madd3 x0 x1 x2 x3 x4) := fun _ _ _ _ _ => rfl
theorem msub3 : ∀ x0 x1 x2 x3 x4, Statement (.msub3 x0 x1 x2 x3 x4) := fun _ _ _ _ _ => rfl
theorem mmul3 : ∀ x0 x1 x2 x3 x4, Statement (.mmul3 x0 x1 x2 x3 x4) := fun _ _ _ _ _ => rfl
theorem mfma3 : ∀ x0 x1 x2 x3 x4, Statement (.mfma3 x0 x1 x2 x3 x4) := fun _ _ _ _ _ => rfl
theorem mmin3 : ∀ x0 x1 x2 x3, Statement (.mmin3 x0 x1 x2 x3) := fun _ _ _ _ => rfl
theorem mmax3 : ∀ x0 x1 x2 x3, Statement (.mmax3 x0 x1 x2 x3) := fun _ _ _ _ => rfl
theorem vsigm : ∀ x0 x1 x2, Statement (.vsigm x0 x1 x2) := fun _ _ _ => rfl
theorem vsigr : ∀ x0 x1, Statement (.vsigr x0 x1) := fun _ _ => rfl
theorem vsigw : ∀ x0 x1, Statement (.vsigw x0 x1) := fun _ _ => rfl
theorem vsplat : ∀ x0 x1 x2 x3 x4, Statement (.vsplat x0 x1 x2 x3 x4) := fun _ _ _ _ _ => rfl
theorem vins : ∀ x0 x1 x2 x3, Statement (.vins x0 x1 x2 x3) := fun _ _ _ _ => rfl
theorem vext : ∀ x0 x1 x2 x3, Statement (.vext x0 x1 x2 x3) := fun _ _ _ _ => rfl
theorem vmovv : ∀ x0 x1, Statement (.vmovv x0 x1) := fun _ _ => rfl
theorem implicitCommit : ∀ x0, Statement (.implicitCommit x0) := fun _ => rfl
theorem recordPromotion : ∀ x0, Statement (.recordPromotion x0) := fun _ => rfl
theorem watchdogExpiry : ∀ x0, Statement (.watchdogExpiry x0) := fun _ => rfl
theorem contextRelease : ∀ x0, Statement (.contextRelease x0) := fun _ => rfl
theorem supervisorResume : ∀ x0 x1, Statement (.supervisorResume x0 x1) := fun _ _ => rfl
theorem contextSave : ∀ x0, Statement (.contextSave x0) := fun _ => rfl
theorem contextRestore : ∀ x0, Statement (.contextRestore x0) := fun _ => rfl
theorem bandRelease : ∀ x0, Statement (.bandRelease x0) := fun _ => rfl
theorem recordDiscard : ∀ x0, Statement (.recordDiscard x0) := fun _ => rfl
theorem framecfgWrite : ∀ x0, Statement (.framecfgWrite x0) := fun _ => rfl
theorem inboxcfgWrite : ∀ x0, Statement (.inboxcfgWrite x0) := fun _ => rfl
theorem headpriWrite : ∀ x0, Statement (.headpriWrite x0) := fun _ => rfl
theorem shiftinjWrite : ∀ x0, Statement (.shiftinjWrite x0) := fun _ => rfl
theorem frmWrite : ∀ x0 x1, Statement (.frmWrite x0 x1) := fun _ _ => rfl
theorem mxbudgetWrite : ∀ x0, Statement (.mxbudgetWrite x0) := fun _ => rfl
theorem mxgovWrite : ∀ x0, Statement (.mxgovWrite x0) := fun _ => rfl
theorem messageAccept : ∀ x0, Statement (.messageAccept x0) := fun _ => rfl
theorem nackReceipt : ∀ x0, Statement (.nackReceipt x0) := fun _ => rfl
theorem nackResend : ∀ x0, Statement (.nackResend x0) := fun _ => rfl
theorem chunkSend : ∀ x0, Statement (.chunkSend x0) := fun _ => rfl
theorem remoteLoad : ∀ x0, Statement (.remoteLoad x0) := fun _ => rfl
theorem loadReply : ∀ x0, Statement (.loadReply x0) := fun _ => rfl
theorem remoteStore : ∀ x0, Statement (.remoteStore x0) := fun _ => rfl
theorem remoteAtomic : ∀ x0, Statement (.remoteAtomic x0) := fun _ => rfl
theorem atomicReply : ∀ x0, Statement (.atomicReply x0) := fun _ => rfl
theorem acknowledgement : ∀ x0, Statement (.acknowledgement x0) := fun _ => rfl
theorem errorPacket : ∀ x0, Statement (.errorPacket x0) := fun _ => rfl
theorem poisonedPacket : ∀ x0, Statement (.poisonedPacket x0) := fun _ => rfl
theorem linkRetry : ∀ x0, Statement (.linkRetry x0) := fun _ => rfl
theorem sevLatchWrite : ∀ x0, Statement (.sevLatchWrite x0) := fun _ => rfl
theorem countdownDecrement : ∀ x0, Statement (.countdownDecrement x0) := fun _ => rfl
theorem frameIncrement : ∀ x0, Statement (.frameIncrement x0) := fun _ => rfl
theorem frameRelease : ∀ x0, Statement (.frameRelease x0) := fun _ => rfl
theorem landingF32Add : ∀ x0, Statement (.landingF32Add x0) := fun _ => rfl
theorem landingBf16Accumulate : ∀ x0, Statement (.landingBf16Accumulate x0) := fun _ => rfl
theorem landingE4m3Widen : ∀ x0, Statement (.landingE4m3Widen x0) := fun _ => rfl
theorem landingStridedScatter : ∀ x0, Statement (.landingStridedScatter x0) := fun _ => rfl
theorem landingTranspose : ∀ x0, Statement (.landingTranspose x0) := fun _ => rfl
theorem landingF32Max : ∀ x0, Statement (.landingF32Max x0) := fun _ => rfl
theorem landingXor : ∀ x0, Statement (.landingXor x0) := fun _ => rfl
theorem entryTableWrite : ∀ x0, Statement (.entryTableWrite x0) := fun _ => rfl
theorem instructionStoreWrite : ∀ x0, Statement (.instructionStoreWrite x0) := fun _ => rfl
theorem bootLoad : ∀ x0, Statement (.bootLoad x0) := fun _ => rfl
theorem prickingAppend : ∀ x0, Statement (.prickingAppend x0) := fun _ => rfl
theorem gatherDrainTimeout : ∀ x0, Statement (.gatherDrainTimeout x0) := fun _ => rfl
theorem headClaimGrant : ∀ x0, Statement (.headClaimGrant x0) := fun _ => rfl
theorem bankAligned : ∀ x0, Statement (.bankAligned x0) := fun _ => rfl
theorem lineTransfer : ∀ x0, Statement (.lineTransfer x0) := fun _ => rfl
theorem trackRemap : ∀ x0, Statement (.trackRemap x0) := fun _ => rfl
theorem barrierCompletion : ∀ x0, Statement (.barrierCompletion x0) := fun _ => rfl
theorem barrierConfigWrite : ∀ x0 x1, Statement (.barrierConfigWrite x0 x1) := fun _ _ => rfl
theorem queueControlWrite : ∀ x0 x1 x2, Statement (.queueControlWrite x0 x1 x2) := fun _ _ _ => rfl
theorem prickingSelection : ∀ x0, Statement (.prickingSelection x0) := fun _ => rfl
theorem startMessageSend : ∀ x0, Statement (.startMessageSend x0) := fun _ => rfl
theorem sprayTreeWrite : ∀ x0 x1 x2, Statement (.sprayTreeWrite x0 x1 x2) := fun _ _ _ => rfl
theorem traceRingControlWrite : ∀ x0 x1 x2, Statement (.traceRingControlWrite x0 x1 x2) := fun _ _ _ => rfl
theorem traceReplayTimeout : ∀ x0, Statement (.traceReplayTimeout x0) := fun _ => rfl
theorem memoryLineWrite : ∀ x0 x1, Statement (.memoryLineWrite x0 x1) := fun _ _ => rfl
theorem memoryLineRead : ∀ x0 x1, Statement (.memoryLineRead x0 x1) := fun _ _ => rfl
theorem patrolScrub : ∀ x0 x1, Statement (.patrolScrub x0 x1) := fun _ _ => rfl
theorem erasureRegisterWrite : ∀ x0 x1, Statement (.erasureRegisterWrite x0 x1) := fun _ _ => rfl
theorem frameTagWrite : ∀ x0 x1, Statement (.frameTagWrite x0 x1) := fun _ _ => rfl
theorem rootTableWrite : ∀ x0 x1 x2, Statement (.rootTableWrite x0 x1 x2) := fun _ _ _ => rfl
theorem pageWalk : ∀ x0 x1, Statement (.pageWalk x0 x1) := fun _ _ => rfl
theorem thermalTrip : ∀ x0, Statement (.thermalTrip x0) := fun _ => rfl
theorem thermalClear : ∀ x0, Statement (.thermalClear x0) := fun _ => rfl
theorem telemetryFrame : ∀ x0, Statement (.telemetryFrame x0) := fun _ => rfl
theorem measuringWindowClose : ∀ x0 x1 x2, Statement (.measuringWindowClose x0 x1 x2) := fun _ _ _ => rfl
theorem classSlowdown : ∀ x0, Statement (.classSlowdown x0) := fun _ => rfl
theorem pcapWrite : ∀ x0, Statement (.pcapWrite x0) := fun _ => rfl
theorem classfloorWrite : ∀ x0, Statement (.classfloorWrite x0) := fun _ => rfl
theorem vcurveWrite : ∀ x0, Statement (.vcurveWrite x0) := fun _ => rfl
theorem fcurveWrite : ∀ x0, Statement (.fcurveWrite x0) := fun _ => rfl
theorem regWrite : ∀ x0, Statement (.regWrite x0) := fun _ => rfl
theorem regRead : ∀ x0, Statement (.regRead x0) := fun _ => rfl
theorem load : ∀ x0, Statement (.load x0) := fun _ => rfl
theorem store : ∀ x0, Statement (.store x0) := fun _ => rfl
theorem atomic : ∀ x0, Statement (.atomic x0) := fun _ => rfl
theorem launchAppend : ∀ x0, Statement (.launchAppend x0) := fun _ => rfl
theorem accumulate : ∀ x0, Statement (.accumulate x0) := fun _ => rfl
theorem podBarrierArrival : ∀ x0 x1 x2, Statement (.podBarrierArrival x0 x1 x2) := fun _ _ _ => rfl
theorem podBarrierCompletion : ∀ x0 x1, Statement (.podBarrierCompletion x0 x1) := fun _ _ => rfl
theorem podRemoteAccess : ∀ x0, Statement (.podRemoteAccess x0) := fun _ => rfl
theorem firmwareUpdate : ∀ x0, Statement (.firmwareUpdate x0) := fun _ => rfl
theorem hostCredentialInstall : ∀ x0 x1 x2 x3, Statement (.hostCredentialInstall x0 x1 x2 x3) := fun _ _ _ _ => rfl
theorem fkeep : Statement .fkeep := rfl
theorem exit : Statement .exit := rfl
theorem commit : Statement .commit := rfl
theorem commitW : Statement .commitW := rfl
theorem wfe : Statement .wfe := rfl
theorem fenceR : Statement .fenceR := rfl
theorem fenceW : Statement .fenceW := rfl
theorem fenceRw : Statement .fenceRw := rfl
theorem xfence : Statement .xfence := rfl
theorem cpw : Statement .cpw := rfl
theorem sret : Statement .sret := rfl
theorem eret : Statement .eret := rfl
theorem iflush : Statement .iflush := rfl
theorem issueQuantumExpiry : Statement .issueQuantumExpiry := rfl
theorem taskDispatch : Statement .taskDispatch := rfl
theorem framecfgApply : Statement .framecfgApply := rfl
theorem inboxcfgApply : Statement .inboxcfgApply := rfl
theorem parkTimeout : Statement .parkTimeout := rfl
theorem localPostAccept : Statement .localPostAccept := rfl
theorem matrixCommandStart : Statement .matrixCommandStart := rfl
theorem kStepComplete : Statement .kStepComplete := rfl
theorem tableReread : Statement .tableReread := rfl
theorem tableGiveUp : Statement .tableGiveUp := rfl
theorem matrixCommandComplete : Statement .matrixCommandComplete := rfl
theorem bucketRefill : Statement .bucketRefill := rfl
theorem governorWindow : Statement .governorWindow := rfl
theorem copyCommandStart : Statement .copyCommandStart := rfl
theorem copyFaultResume : Statement .copyFaultResume := rfl
theorem copyCommandComplete : Statement .copyCommandComplete := rfl
theorem taskEndReport : Statement .taskEndReport := rfl
theorem coreKill : Statement .coreKill := rfl
theorem packageReset : Statement .packageReset := rfl
theorem cycleStretch : Statement .cycleStretch := rfl
theorem currentLimit : Statement .currentLimit := rfl
theorem telemetryFrameMissing : Statement .telemetryFrameMissing := rfl
theorem failsafeEntry : Statement .failsafeEntry := rfl
theorem failsafeTick : Statement .failsafeTick := rfl
theorem classRestore : Statement .classRestore := rfl
theorem hwholdClear : Statement .hwholdClear := rfl
theorem firmwareWatchdogExpiry : Statement .firmwareWatchdogExpiry := rfl
theorem firmwareKick : Statement .firmwareKick := rfl

end Sys2Proof.Laws.WordForm
end

