-- ==== Sys2Proof/Laws/Time.lean ====
section
/-! SUPPORT. What passes with time where nothing is due: the queues nobody stalls at (R166), the tables no block waits
for (R250), the banks of which nothing falls due (R204, R208), the park slots that are free (R202), the cores that are
not lost (R33), the layouts that are not pending (R193), the frames that fit (R12). -/

set_option Elab.async false
namespace Sys2Proof.Machine

/-! ### A queue at which no context stalls -/

theorem tryPush_idle (me : Option CtxNo) (q : BitVec 2) (s : State) (c : CtxNo) (h : waitsAt (s.ctxAt c) q = none) :
    tryPush me q s c = s := by
  simp [tryPush, h]

theorem tryPop_idle (me : Option CtxNo) (q : BitVec 2) (s : State) (c : CtxNo) (h : waitsAt (s.ctxAt c) q = none) :
    tryPop me q s c = s := by
  simp [tryPop, h]

theorem queuePushes_idle (me : Option CtxNo) (q : BitVec 2) (s : State) (h : ∀ c, waitsAt (s.ctxAt c) q = none) :
    queuePushes me q s = s := by
  simp [queuePushes, List.foldl, tryPush_idle, h]

theorem queuePops_idle (me : Option CtxNo) (q : BitVec 2) (p : CtxNo → Bool) (s : State)
    (h : ∀ c, waitsAt (s.ctxAt c) q = none) : queuePops me q p s = s := by
  unfold queuePops
  induction List.filter p _ with
  | nil => rfl
  | cons c l ih => simp [tryPop_idle, h, ih]

theorem queueRound_idle (me : Option CtxNo) (q : BitVec 2) (s : State) (h : ∀ c, waitsAt (s.ctxAt c) q = none) :
    queueRound me q s = s := by
  simp [queueRound, queuePushes_idle, queuePops_idle, h]

/-! ### Time -/

theorem catchUp_calm (s : State) (h : waitingRun s.core = none) (ho : ∀ p ∈ s.others, waitingRun p.2 = none) :
    catchUp s = s := by
  have h1 : isRereadDue s.now s.core = false := by simp [isRereadDue, dueReread, h]
  have h2 : (s.others.filter fun p => isRereadDue s.now p.2) = [] := by
    simp only [List.filter_eq_nil_iff]
    intro p hp
    simp [isRereadDue, dueReread, ho p hp]
  simp [catchUp, h1, h2]

/-- A bank of which nothing falls due by cycle n1 stays as it is (R204, R208). -/
theorem bankRun_none (bank : BitVec 8) (n1 fuel n : Nat) (s : State) (h : ∀ m, bankNext s bank n = some m → n1 < m) :
    bankRun bank n1 fuel n s = s := by
  cases fuel with
  | zero => rfl
  | succ k =>
    cases hm : bankNext s bank n with
    | none => simp [bankRun, hm]
    | some m => simp [bankRun, hm, h m hm]

/-- A core of whose banks nothing falls due in a time stays as it is. -/
theorem bankCycles_none (c0 : Nat) (s : State)
    (h : ∀ e ∈ s.core.banks, ∀ m, bankNext s (BitVec.ofNat 8 e.1) (c0 + 1) = some m → s.cyc < m) : bankCycles c0 s = s := by
  unfold bankCycles
  split
  · have : ∀ l : List Nat, (∀ b ∈ l, ∀ m, bankNext s (BitVec.ofNat 8 b) (c0 + 1) = some m → s.cyc < m) →
        l.foldl (fun t b => bankRun (BitVec.ofNat 8 b) s.cyc (s.cyc - c0) (c0 + 1) t) s = s := by
      intro l hl
      induction l with
      | nil => rfl
      | cons b l ih =>
        rw [List.foldl_cons, bankRun_none _ _ _ _ _ (hl b (by simp))]
        exact ih fun x hx => hl x (by simp [hx])
    apply this
    intro b hb
    obtain ⟨e, he, rfl⟩ := List.mem_map.mp hb
    exact h e he
  · rfl

theorem bankCycles_calm (c0 : Nat) (s : State) (h : banksLive s.core = false) : bankCycles c0 s = s := by
  simp [bankCycles, h]

theorem banksPass_calm (t0 : Nat) (s : State) (h : banksLive s.core = false) (ho : ∀ p ∈ s.others, banksLive p.2 = false) :
    banksPass t0 s = s := by
  have h1 : (s.others.filter fun p => banksLive p.2) = [] := by
    simp only [List.filter_eq_nil_iff]
    intro p hp
    simp [ho p hp]
  simp [banksPass, h1, bankCycles_calm _ _ h]

theorem parkOver_free (now : Nat) (k : Core) (h : k.park = none) : parkOver now k = false := by
  simp [parkOver, h]

theorem parksPass_calm (s : State) (h : s.core.park = none) (ho : ∀ p ∈ s.others, p.2.park = none) : parksPass s = s := by
  have h1 : (s.others.filter fun p => parkOver s.now p.2) = [] := by
    simp only [List.filter_eq_nil_iff]
    intro p hp
    simp [parkOver_free _ _ (ho p hp)]
  simp [parksPass, h1, parkOver_free _ _ h]

/-- Where nothing is due at any core, time passes and nothing else. -/
theorem passTime_calm (s : State) (n : Nat) (h : Calm s) : passTime n s = { s with now := s.now + n } := by
  obtain ⟨⟨-, hw, hb, hp⟩, ho⟩ := h
  have h1 : (s.others.filter fun p => atQueues p.2) = [] := by
    simp only [List.filter_eq_nil_iff]
    intro p hp
    simp [(ho p hp).1]
  simp only [passTime, h1, List.foldl_nil]
  rw [banksPass_calm s.now ({ s with now := s.now + n } : State) hb fun p hp => (ho p hp).2.2.1,
    parksPass_calm ({ s with now := s.now + n } : State) hp fun p hp => (ho p hp).2.2.2]
  exact catchUp_calm _ hw fun p hp => (ho p hp).2.1

/-- The same where no instruction issues. -/
theorem waitTime_calm (s : State) (n : Nat) (h : Calm s) : waitTime n s = { s with now := s.now + n } := by
  have h1 : queueCount s.now (s.now + n) s.core = 0 := by simp [queueCount, h.1.1]
  simp only [waitTime, h1, queueCycles]
  exact passTime_calm s n h

/-! ### The end of a step -/

/-- Where no core is lost, the end of a step changes nothing (R33, R191). -/
theorem reap_none (s : State) (h : s.core.doomed = false) (ho : ∀ p ∈ s.others, p.2.doomed = false) : reap s = s := by
  have h1 : (s.others.filter fun p => p.2.doomed) = [] := by
    simp only [List.filter_eq_nil_iff]
    intro p hp
    simp [ho p hp]
  simp [reap, h, h1]

/-- A layout comes into force at a step's end only where one is pending (R193). -/
theorem layoutsApply_none (s : State) (h : layoutPends s.core = false) : layoutsApply s = s := by
  have h' : s.core.framecfg.pend = none ∧ s.core.inboxcfg.pend = none := by
    simpa [layoutPends, Option.isSome_eq_false_iff] using h
  have hf : tryFrameApply s = none := by simp [tryFrameApply, applyArea, h'.1]
  have hi : tryInboxApply s = none := by simp [tryInboxApply, applyArea, h'.2]
  simp only [layoutsApply, hf, hi, Option.getD_none]

theorem layoutsPass_none (s : State) (h : layoutPends s.core = false) (ho : ∀ p ∈ s.others, layoutPends p.2 = false) :
    layoutsPass s = s := by
  have h1 : (s.others.filter fun p => layoutPends p.2) = [] := by
    simp only [List.filter_eq_nil_iff]
    intro p hp
    simp [ho p hp]
  simp [layoutsPass, layoutsApply_none s h, h1]

/-- Where no core chooses a record whose frame does not fit, none stops dispatching (R12). -/
theorem framesPass_none (s : State) (h : frameStarves s.core = false) (ho : ∀ p ∈ s.others, frameStarves p.2 = false) :
    framesPass s = s := by
  have h1 : (s.others.filter fun p => frameStarves p.2) = [] := by
    simp only [List.filter_eq_nil_iff]
    intro p hp
    simp [ho p hp]
  simp [framesPass, frameWaits, h, h1]

/-- Where no core is lost, no layout is pending and no frame lacks space, the end of a step changes nothing. -/
theorem endStep_none (s : State) (h : s.core.doomed = false) (ho : ∀ p ∈ s.others, p.2.doomed = false)
    (hl : layoutPends s.core = false) (hol : ∀ p ∈ s.others, layoutPends p.2 = false)
    (hf : frameStarves s.core = false) (hof : ∀ p ∈ s.others, frameStarves p.2 = false) : endStep s = s := by
  simp [endStep, reap_none s h ho, layoutsPass_none s hl hol, framesPass_none s hf hof]

end Sys2Proof.Machine
end

