-- ==== Sys2Proof/Tests/Slice0.lean ====
section
/-! SUPPORT. Tests: words the specification writes out and words put together from its formats; a term each check of
WellFormed refuses; single steps on small states; for each statement with hypotheses a state and operands that
meet them. Expected results come from the specification's tables, or by hand from its rules. -/
set_option Elab.async false

namespace Sys2Proof.Tests
open Sys2Proof.Machine

/-! ### Small states -/

/-- The record of a user task whose entry is at the start of the instruction store. -/
def rec1 : Record := { placedRecord with entry := ⟨0xFF00000001000000, 0x100001⟩ }

/-- Context 0 runs that task; nothing else is set. -/
def s1 : State := State.reset.modCtxAt 0 fun x => { x with phase := .running, task := some rec1, pc := 0xFF00000001000000 }

/-- The same with a privileged task. -/
def sp : State := s1.modCtxAt 0 fun x => { x with task := some placedRecord }

/-- The own-scratchpad address of an offset. -/
def at_ (off : Nat) : Word := BitVec.ofNat 64 (0xFF00000000000000 + off)

/-- g6 is the address of offset 0x100, where eight bytes stand. -/
def s2 : State :=
  (s1.setG 6 (at_ 0x100)).modCore fun k => { k with mem := wrBytes k.mem 0x100 [0x81, 2, 3, 4, 5, 6, 7, 0x88] }

theorem test_small : s1.ctx.phase = .running ∧ s2.gr 6 = at_ 0x100 ∧ rd8 s2.core.mem 0x107 = 0x88 := by decide +kernel
/-- Words of the table beside R63. -/
theorem test_wordsOfR63_A : ([
  (0x04A63800, some (.add 5 6 7)),
  (0x18A60003, some (.slli 5 6 3)),
  (0x18A60083, some (.srai 5 6 3)),
  (0x24B3BEEF, some (.lik 5 3 0xBEEF)),
  (0x6CA60010, some (.ld 5 6 0x10)),
  (0x7CA2FFF8, some (.sd 5 2 0xFFF8)),
  (0x30A0FFFD, some (.bne 5 0 0xFFFD)),
  (0x44000064, some (.jal 100)),
  (0x4CEA0005, some (.bsig 7 20 5))] : List (Nat × Option Instr)).all (fun p => decode p.1 = p.2) = true := by decide +kernel

/-- The same, further rows. -/
theorem test_wordsOfR63_B : ([
  (0x50240004, some (.bmaskAny 1 4)),
  (0x80A63828, some (.fadd 5 6 7 .f64 .rtz)),
  (0x84A63A1E, some (.fms 5 6 7 8 .f64 .dyn)),
  (0x88A6382B, some (.aadd 5 6 7 .die .rel .d)),
  (0x8CA80007, some (.ldf 5 1 7)),
  (0x8CD30003, some (.stfr 6 2 3)),
  (0x98A63A19, some (.spawnCap 5 6 7 8)),
  (0x98000020, some (.exit)),
  (0x9C000002, some (.fenceW))] : List (Nat × Option Instr)).all (fun p => decode p.1 = p.2) = true := by decide +kernel

/-- The same, further rows. -/
theorem test_wordsOfR63_C : ([
  (0x9C002000, some (.xfence)),
  (0x9CA04430, some (.arrive 5 .quad 3)),
  (0xA4806000, some (.rds 4 1)),
  (0xB0621080, some (.rep 3 1 1 1 0)),
  (0xB4A00006, some (.srr 5 .sigpc)),
  (0xB4072005, some (.srw 7 .sigvec)),
  (0xB8853190, some (.vfadd ⟨4, 5, 6, false, 1, true⟩ .f32)),
  (0xB8854C12, some (.vfmul ⟨4, 5, 9, true, 0, false⟩ .f32)),
  (0xD8820410, some (.vldp 4 2 0 false .w32))] : List (Nat × Option Instr)).all (fun p => decode p.1 = p.2) = true := by decide +kernel

/-- The same, further rows. -/
theorem test_wordsOfR63_D : ([
  (0xE4144600, some (.madd3 0 1 2 .f32 .dyn))] : List (Nat × Option Instr)).all (fun p => decode p.1 = p.2) = true := by decide +kernel

/-- Words put together, bit by bit, from the formats of R34 and the codes of R39 to R55. -/
theorem test_wordsOfTheFormats_A : ([
  (0b00000100101001100011100000000001, some (.sub 5 6 7)),
  (0b00000100101001100000000000100000, some (.sextw 5 6)),
  (0b00001000101001101111111111111111, some (.addi 5 6 0xFFFF)),
  (0b00010100101001101000000000000001, some (.xori 5 6 0x8001)),
  (0b00100100101000100001001000110100, some (.liz 5 2 0x1234)),
  (0b01000000101001101000000000000000, some (.bgeu 5 6 0x8000)),
  (0b01001000000000010000000000000000, some (.jalr 0 1 0)),
  (0b01010011111101111111111111111111, some (.bmaskAllc 31 0x3FFFF)),
  (0b01101000101001101111111111111100, some (.lwu 5 6 0xFFFC))] : List (Nat × Option Instr)).all (fun p => decode p.1 = p.2) = true := by decide +kernel

/-- The same, further rows. -/
theorem test_wordsOfTheFormats_B : ([
  (0b01110000101001100000000000000001, some (.sb 5 6 1)),
  (0b10000000101001100000010010010100, some (.fcvtp 5 6 .f32 .sr)),
  (0b10000000101001100011110100100000, some (.fsetsig 5 6 7 .f64)),
  (0b10001000101001100011110011001110, some (.acas 5 6 7 .pod .acqrel .w)),
  (0b10010000101111000000000000000000, some (.dsps 5 3)),
  (0b10010111111001101111111111111111, some (.vtrestore 31 6 0x3FFF)),
  (0b10011000000001100000000000111000, some (.sev 6)),
  (0b10011100000001100110111111110000, some (.wait 6 .pkg 63)),
  (0b10100000101001100000011010000000, some (.qtry 5 6 3))] : List (Nat × Option Instr)).all (fun p => decode p.1 = p.2) = true := by decide +kernel

/-- The same, further rows. -/
theorem test_wordsOfTheFormats_C : ([
  (0b10100100000001101001000000000000, some (.seek 6 2)),
  (0b10101000100001010111010011110110, some (.mxr 4 5 6 9 true true (some 3))),
  (0b10101000000000001000010000000000, some (.mxw 0 true)),
  (0b10101100101000001000000000000000, some (.cps 5)),
  (0b10110100000000001100000000000000, some (.iflush)),
  (0b10111100100001010011001000111111, some (.vsubs ⟨4, 5, 6, false, 2, false⟩ .w8)),
  (0b11000000100001010011000000100100, some (.vdot2 ⟨4, 5, 6, false, 0, false⟩ .bf16)),
  (0b11000100100001010011011110000110, some (.vltu ⟨4, 5, 6, true, 3, true⟩ .w64)),
  (0b11001000100001010000000000010101, some (.mpop 4 5 false .w32))] : List (Nat × Option Instr)).all (fun p => decode p.1 = p.2) = true := by decide +kernel

/-- The same, further rows. -/
theorem test_wordsOfTheFormats_D : ([
  (0b11001100100001010000000110100101, some (.vcompress ⟨4, 5, 1, true⟩ false .w16)),
  (0b11010000100001010000001000000100, some (.vrand 4 5 2 .w64)),
  (0b11010100100001010010000000101011, some (.vcvts ⟨4, 5, 0, false⟩ .bf16 .e4m3 .sr)),
  (0b11011100100001100011101000011101, some (.vsts 4 6 7 0 .w32 (some 5))),
  (0b11100000100001100011101110100000, some (.vscatter 4 6 7 3 .w16)),
  (0b11100111111010101110100000000000, some (.mmax3 7 6 5 .f16)),
  (0b11101000100001010000000000100010, some (.vsigw ⟨4, 5, 0, false⟩ .bf16)),
  (0b11101100100001010011010000110010, some (.vext 4 5 6 .w8))] : List (Nat × Option Instr)).all (fun p => decode p.1 = p.2) = true := by decide +kernel

/-- Words that break a rule of R39 to R55 (a reserved code, a field that shall be 0). -/
theorem test_wordsThatAreIllegal_A : ([
  (0x00000000, none)  ,
  (0xF0000000, none)  ,
  (0x04000021, none)  ,
  (0x0400081A, none)  ,
  (0x180000C0, none)  ,
  (0x18000100, none)  ,
  (0x24040000, none)  ,
  (0x28010000, none)  ,
  (0x50180000, none)  ] : List (Nat × Option Instr)).all (fun p => decode p.1 = p.2) = true := by decide +kernel

/-- The same, further rows. -/
theorem test_wordsThatAreIllegal_B : ([
  (0x800005C0, none)  ,
  (0x8000001C, none)  ,
  (0x80000014, none)  ,
  (0x80000001, none)  ,
  (0x84000007, none)  ,
  (0x88000582, none)  ,
  (0x88000052, none)  ,
  (0x88000001, none)  ,
  (0x8C050000, none)  ] : List (Nat × Option Instr)).all (fun p => decode p.1 = p.2) = true := by decide +kernel

/-- The same, further rows. -/
theorem test_wordsThatAreIllegal_C : ([
  (0x90200000, none)  ,
  (0x90010000, none)  ,
  (0x97200000, none)  ,
  (0x98000001, none)  ,
  (0x9C000000, none)  ,
  (0x9C004480, none)  ,
  (0xA0A50080, none)  ,
  (0xA4000001, none)  ,
  (0xA8004820, none)  ] : List (Nat × Option Instr)).all (fun p => decode p.1 = p.2) = true := by decide +kernel

/-- The same, further rows. -/
theorem test_wordsThatAreIllegal_D : ([
  (0xA8004006, none)  ,
  (0xAC00C000, none)  ,
  (0xB0000001, none)  ,
  (0xB400001C, none)  ,
  (0xB8000080, none)  ,
  (0xB8000040, none)  ,
  (0xC0000014, none)  ,
  (0xCC000004, none)  ,
  (0xD4001020, none)  ] : List (Nat × Option Instr)).all (fun p => decode p.1 = p.2) = true := by decide +kernel

/-- The same, further rows. -/
theorem test_wordsThatAreIllegal_E : ([
  (0xDC000001, none)  ,
  (0xDC000028, none)  ,
  (0xE4010000, none)  ,
  (0xE4002100, none)  ] : List (Nat × Option Instr)).all (fun p => decode p.1 = p.2) = true := by decide +kernel

/-- Terms that a check of WellFormed refuses: rounding, fcvtp, fmaRounding, fref, frel, dsps, tsave, trestore, barrierQuad. -/
theorem test_illFormed_A : ([
  .fadd 1 2 3 .f32 .sr,
  .fcvtp 1 2 .f64 .rup,
  .fma 1 2 3 4 .f64 .sr,
  .fref 0,
  .frel 0,
  .dsps 1 0,
  .tsave 25 1 0,
  .trestore 25 1 0,
  .arrive 1 .quad 8] : List Instr).all (fun i => !i.wf) = true := by decide +kernel

/-- Terms that a check of WellFormed refuses: barrierPod, qtry, mxr, mxw, mask, maskOne, vdot2, vsel, vcompress. -/
theorem test_illFormed_B : ([
  .wait 1 .pod 16,
  .qtry 5 5 0,
  .mxr 0 0 1 0 false true none,
  .mxw 1 true,
  .vadd ⟨0, 0, 0, false, 0, true⟩ .w8,
  .vfsqrt ⟨0, 0, 0, true⟩ .f32,
  .vdot2 ⟨0, 0, 0, false, 0, false⟩ .f32,
  .vsel ⟨0, 0, 0, false, 0, false⟩ .w8,
  .vcompress ⟨0, 0, 0, false⟩ false .w8] : List Instr).all (fun i => !i.wf) = true := by decide +kernel

/-- Terms that a check of WellFormed refuses: cvtSame, cvtInt, cvtSr, cvtV31, vldMask, bound, splat, route, channel. -/
theorem test_illFormed_C : ([
  .vcvt ⟨0, 0, 0, false⟩ .f32 .f32 .rne,
  .vcvt ⟨0, 0, 0, false⟩ .i8 .i16 .rtz,
  .vcvts ⟨0, 0, 0, false⟩ .f32 .f64 .sr,
  .vcvt ⟨31, 0, 0, false⟩ .f32 .f64 .rne,
  .vld 0 0 0 true .w8,
  .vst 0 0 0 .w16 (some 0),
  .vsplat 0 0 0 true .w8,
  .messageAccept ⟨.core 0xC00, .core 0⟩,
  .remoteStore ⟨.core 1, .chan 24⟩] : List Instr).all (fun i => !i.wf) = true := by decide +kernel

/-- Terms that a check of WellFormed refuses: barrierKey, barrierKeyQuad, barrierKeyPod, die, site, memory, rank, frame. -/
theorem test_illFormed_D : ([
  .barrierCompletion ⟨.die, 3, 0⟩,
  .barrierCompletion ⟨.quad, 768, 0⟩,
  .barrierCompletion ⟨.pod, 1, 0⟩,
  .prickingSelection 3,
  .sprayTreeWrite 0xC00 0 none,
  .patrolScrub 0x18000000000 [],
  .erasureRegisterWrite 48 0,
  .frameTagWrite 0x1800000 0] : List Instr).all (fun i => !i.wf) = true := by decide +kernel

/-! ### States and operands that meet the hypotheses of the statements

test_met_X is about the statement X: each conjunct meets the hypotheses of one of its clauses. -/

/-- The next state of an outcome has P. -/
def gives (o : Host.Outcome State Fault Refusal) (P : State → Bool) : Bool := match o with | .next t => P t | _ => false

/-- ADD g5, g6, g7 at the PC. -/
def sAdd : State := State.reset.withFetchWord 32 0x04A63800

/-- A replay of one step of ADD g5, g6, g7 with the stride 1 on gd, at its second iteration. -/
def sRep : State :=
  sAdd.modCtx fun x => { x with replaying := true, body := [0x04A63800], rep := repAt (repStart 3 0 1 0 0) 1 0 }

theorem test_met_StepRunsTheDecodedWord : (sAdd.agenda = [] ∧ ready sAdd.ctx = true ∧ sAdd.ctx.trapDue = none ∧
    sAdd.ctx.replaying = false ∧ issuedYet sAdd.ctx = false ∧ fetchAt sAdd sAdd.ctx.pc = (.word 0x04A63800, sAdd) ∧
      decode 0x04A63800 = some (.add 5 6 7)) ∧
    (let s := sAdd.modCtx fun x => { x with stall := some .other }; ready s.ctx = true ∧ issuedYet s.ctx = true ∧
      refetch s s.ctx.pc = (.word 0x04A63800, s)) ∧
    (s1.agenda = [] ∧ ready s1.ctx = true ∧ s1.ctx.trapDue = none ∧ s1.ctx.replaying = false ∧
      issuedYet s1.ctx = false ∧ fetchAt s1 s1.ctx.pc = (.word 0, s1) ∧ decode 0 = none) ∧
    (sRep.agenda = [] ∧ ready sRep.ctx = true ∧ sRep.ctx.trapDue = none ∧ sRep.ctx.replaying = true ∧
      sRep.ctx.body[repPos sRep.ctx.rep]? = some 0x04A63800#32 ∧ raised sRep.ctx.rep 0x04A63800 = some (.add 6 6 7)) := by
  decide +kernel

/-- A state with an entry on the agenda: the step of that core's commit, or a core beyond the last. -/
def sAgenda (c : CoreId) (o : Option Outside) : State := { s1 with agenda := [⟨3, c, o, some (.implicitCommit 0)⟩] }

theorem test_met_EventsRunFromTheAgenda :
    (∀ o ∈ [none, some (Outside.flip ⟨.scratch, 7, true⟩)],
      (sAgenda 0xBFF o).agenda = ⟨3, 0xBFF, o, some (.implicitCommit 0)⟩ :: []) ∧
    (0xBFF : CoreId).toNat < 0xC00 ∧ (sAgenda 0xC00 none).agenda = ⟨3, 0xC00, none, some (.implicitCommit 0)⟩ :: [] ∧
    0xC00 ≤ (0xC00 : CoreId).toNat := by decide +kernel

theorem test_met_DecodeOfEncode : (Instr.add 31 0 31).wf = true ∧ encode (.add 31 0 31) = some 0x07E0F800 ∧
    (Instr.vtsave 31 31 0x3FFF).wf = true ∧ (encode (.vtsave 31 31 0x3FFF)).isSome = true := by decide +kernel

theorem test_met_WordHasOneMeaning : decode 0x07E0F800 = some (.add 31 0 31) ∧ decode 0x04A63800 = some (.add 5 6 7) := by
  decide +kernel

theorem test_met_G0IsHardWired : (31 : Reg) ≠ 0 ∧ (s1.setGC 31 7 9).gr 31 = 7 ∧ (s1.setGC 31 7 9).gr 30 = 0 ∧
    (s1.setGC 0 7 9).gr 0 = 0 := by decide +kernel

/-- g6 and g7 hold x and y. -/
def sxy (x y : Word) : State := (s1.setG 6 x).setG 7 y

theorem test_met_DivisionResults :
    (let s := sxy 0x8000000000000000 2; s.gr 7 ≠ 0 ∧ ¬ (s.gr 6 = 0x8000000000000000 ∧ s.gr 7 = 0xFFFFFFFFFFFFFFFF)) ∧
    (let s := sxy 0x8000000000000000 0xFFFFFFFFFFFFFFFF; s.gr 6 = 0x8000000000000000 ∧ s.gr 7 = 0xFFFFFFFFFFFFFFFF) ∧
    (let s := sxy 0 0; s.gr 7 = 0 ∧ s.gr 6 = 0) ∧ (let s := sxy 1 0; s.gr 7 = 0 ∧ 0 < (s.gr 6).toInt ∧ s.gr 6 ≠ 0) ∧
    (let s := sxy 0xFFFFFFFFFFFFFFFF 0; s.gr 7 = 0 ∧ (s.gr 6).toInt < 0) := by decide +kernel

theorem test_met_JumpsAndLinks : ((sxy 0x1000 0).gr 6 + (BitVec.signExtend 64 (0xFFFC : BitVec 16))).toNat % 4 = 0 ∧
    ((sxy 0x1001 0).gr 6 + (BitVec.signExtend 64 (0xFFFC : BitVec 16))).toNat % 4 ≠ 0 := by decide +kernel

theorem test_met_FrameOfRegisterForms : destG (.qcnt 31 3) = some 31 ∧ (∀ c, waitsAt (s1.ctxAt c) 3 = none) ∧ destG (.add 0 6 7) = some 0 ∧ destG (.vrmin 31 4 3 .f64) = some 31 := by decide +kernel

theorem test_met_FrameOfVectorForms : destV (.vadd ⟨0, 0, 31, true, 3, true⟩ .w8) = some 0 ∧
    destV (.vsigw ⟨31, 0, 0, false⟩ .bf16) = some 31 := by decide +kernel

theorem test_met_FrameOfCheckedForms : checkedG (.fadd 0 6 7 .f64 .dyn) = some 0 ∧ s1.SigOff ∧
    checkedV (.vdot2 ⟨31, 1, 2, false, 0, false⟩ .bf16) = some 31 := by decide +kernel

/-- g6 holds the address of offset off of the own scratchpad. -/
def sAt (off : Nat) : State := s1.setG 6 (at_ off)

/-- The address of a form with g6 and an immediate. -/
abbrev ea {n : Nat} (s : State) (im : BitVec n) : Word := s.gr 6 + im.signExtend 64

theorem test_met_LoadsReadTheirBytes : loadForm (.ld 0 6 0xFFF8) = some (0, 6, 0xFFF8, 8, false) ∧
    (let s := sAt 0x18000; (ea s 0xFFF8#16).toNat % 8 = 0 ∧ OwnAt (ea s 0xFFF8#16) 0x17FF8 ∧
      Lets s (.scratch s.coreId) 0 0x17FF8 ∧ s.Clean) ∧
    loadForm (.lb 31 6 0) = some (31, 6, 0, 1, true) ∧
    (let s := sAt 0x17FFF; (ea s 0#16).toNat % 1 = 0 ∧ OwnAt (ea s 0#16) 0x17FFF ∧
      Lets s (.scratch s.coreId) 0 0x17FFF) := ⟨rfl, by decide +kernel, rfl, by decide +kernel⟩

theorem test_met_StoresWriteTheirBytes : storeForm (.sd 0 6 0xFFF8) = some (0, 6, 0xFFF8, 8) ∧
    (let s := sAt 0x18000; (ea s 0xFFF8#16).toNat % 8 = 0 ∧ OwnAt (ea s 0xFFF8#16) 0x17FF8 ∧
      Lets s (.scratch s.coreId) 1 0x17FF8 ∧ s.Clean) := by decide +kernel

/-- g6 holds the address of offset 0x17FF8 of core 2; user of a task without a wider reach, or privileged. -/
def sFar (p : Bool) : State := (if p then sp else s1).setG 6 0xFE00000002017FF8

/-- A store placed in the hoop for core 2. -/
def eff0 : Effect := ⟨1, 24, .core 2, none, ⟨0, 0, false⟩, 0, .store [], false, false, 1, none⟩

theorem test_met_RemoteLoadsAndStores : loadForm (.ld 5 6 0) = some (5, 6, 0, 8, false) ∧
    storeForm (.sd 5 6 0) = some (5, 6, 0, 8) ∧
    (let s := sFar false; (ea s 0#16).toNat % 8 = 0 ∧ classify (ea s 0#16) = .remote 2 0x17FF8 ∧
      inReach s.coreId s.ctx 2 = false) ∧
    (let s := sFar true; (ea s 0#16).toNat % 8 = 0 ∧ classify (ea s 0#16) = .remote 2 0x17FF8 ∧
      inReach s.coreId s.ctx 2 = true ∧ s.ctx.hoop = [] ∧ s.ctx.chunks = [] ∧ hoopUsed s.ctx + 24 ≤ 2048) ∧
    (let s := (sFar true).modCtx fun x => { x with hoop := [{ eff0 with op := .store [(0x17FF7, 1)] }] };
      ∀ e ∈ s.ctx.hoop, e.dst = .core 2 ∧ e.pkg = none ∧ ∀ k, k < 8 → effByte (0x17FF8 + k) e = none) := by
  decide +kernel

theorem test_met_MisalignedAccessesTrap : loadForm (.lh 5 6 0) = some (5, 6, 0, 2, true) ∧
    storeForm (.sh 5 6 0) = some (5, 6, 0, 2) ∧
    (let A := ea (sAt 1) 0#16; A.toNat % 2 ≠ 0 ∧ classify A = .own 0 1) ∧
    (let A := ea (s1.setG 6 0xFE0000000280FFFD) 0#16; A.toNat % 2 ≠ 0 ∧ classify A = .remI 2 0xFFFD) ∧
    (let A := ea (s1.setG 6 0xFE00000002C00FFD) 0#16; A.toNat % 2 ≠ 0 ∧ classify A = .remE 2 0xFFD) := by decide +kernel

theorem test_met_FloatingPointResults : s1.SigOff ∧ s2.SigOff := by decide +kernel

theorem test_met_FloatingPointConversions : s1.SigOff ∧ rndOf s1.ctx .sr true = .sr := by decide +kernel

/-- SIGMODE with a mode and INH; a handler at v. -/
def sSig (m : BitVec 2) (inh : Bool) (v : Word) : State :=
  s1.modCtx fun x => { x with sigmode := ⟨m, false, inh⟩, sigthr := 63, sigvec := v }

/-- The element FADD g5, g6, g7 of f64 checks. -/
def faddElem (s : State) : SigElem :=
  let x := fopnd s.ctx .f64 6; let y := fopnd s.ctx .f64 7
  ⟨0, (faddR f64F (rndOf s.ctx .rne false) x y).count, 53, [x, y], [x.c, y.c]⟩

/-- The same with 1.0 of count 1 in g6: its sum has fewer bits than SIGTHR asks for. -/
def sSig1 (m : BitVec 2) (inh : Bool) (v : Word) : State := (sSig m inh v).setGC 6 0x3FF0000000000000 1

theorem test_met_SignificanceTrapEntry : fmtP (precFmt .f64) = 53 ∧
    (let s := sSig1 2 false 0x1000; sigMeets s.ctx.sigthr (faddElem s) = true ∧ s.ctx.sigmode.mode = 2 ∧
      s.ctx.sigmode.inh = false ∧ s.ctx.sigvec ≠ 0) ∧
    (let s := sSig1 1 false 0; sigMeets s.ctx.sigthr (faddElem s) = true ∧ s.ctx.sigmode.mode = 1) ∧
    (let s := sSig1 2 true 0; sigMeets s.ctx.sigthr (faddElem s) = true ∧ s.ctx.sigmode.mode = 2 ∧ s.ctx.sigmode.inh = true) ∧
    (let s := sSig1 3 true 0; sigMeets s.ctx.sigthr (faddElem s) = true ∧ s.ctx.sigmode.mode = 3) ∧
    (let s := sSig1 2 false 0; sigMeets s.ctx.sigthr (faddElem s) = true ∧ s.ctx.sigmode.inh = false ∧ s.ctx.sigvec = 0) ∧
    (let s := sSig 2 true 0; s.ctx.sigmode.inh = true ∧ repAct s.ctx.rep = false) ∧
    (sSig 2 false 0).ctx.sigmode.inh = false := by decide +kernel

/-- The release of a scratchpad frame of core 2 by FREL of d2 in the open chunk, d1 held. -/
def sDrop : State :=
  s1.modCtx fun x => { x with
    hoop := [⟨1, 16, .core 2, none, ⟨0, 0, false⟩, 0, .frameRel 0x100, false, false, 1, some (2, frameDesc 2 0x100 1)⟩]
    d := x.d.set 1 5, held := 2 }

/-- A record that trapped again, with the reference of that frame kept. -/
def recKept : Record := { rec1 with trapped := some (.align, true), kept := some (#v[0, frameDesc 2 0x100 1, 0], 2) }

theorem test_met_AbortiveTrapEntry : (s1.ctxAt 0).task = some rec1 ∧
    (abortCtx s1 0 .illegal).core.inbox.length = 1 ∧
    ((sDrop.ctx.hoop.map fun e => e.drops.map Prod.fst) = [some 2] ∧
      (∃ e ∈ sDrop.ctx.hoop, e.drops = some (2, frameDesc 2 0x100 1)) ∧
      (abortCtx sDrop 0 .illegal).core.inbox.map Record.kept = [some (#v[5, frameDesc 2 0x100 1, 0], 3)]) ∧
    (let s := State.reset.modCore fun k => { k with inbox := [recKept], heldBands := 1 };
      trappedHead s.core 0 = some recKept ∧ recKept.trapped = some (.align, true) ∧ keptRefs recKept = [frameDesc 2 0x100 1] ∧
      dKind (frameDesc 2 0x100 1) = 1 ∧ recKept.launch = none ∧
      gives (exec (.recordDiscard 0) s) (fun t => decide (t.core.inbox = [] ∧
        t.net.map Packet.body = [.op (.frameRel 0x100)])) = true) :=
  ⟨by decide +kernel, by decide +kernel, by decide +kernel, by decide +kernel⟩

theorem test_met_AtomicsOfTheOwnScratchpad : atomicForm (.acas 0 6 7 .pod .acqrel .d) = some (9, 0, 6, 7, .pod, .acqrel, .d) ∧
    (let s := sAt 0x17FF8; (s.gr 6).toNat % sizeBytes .d = 0 ∧ OwnAt (s.gr 6) 0x17FF8 ∧
      Lets s (.scratch s.coreId) 2 0x17FF8 ∧ Quiet s ∧ s.Clean) ∧
    atomicForm (.afadd 5 6 7 .core .rlx .w) = some (10, 5, 6, 7, .core, .rlx, .w) := ⟨rfl, by decide +kernel, rfl⟩

/-- d0 names a frame of 8 slots (one unit of 64 bytes) at offset off of core c, counted or not; d0 held or not. -/
def sFrame (c : CoreId) (off : Nat) (counted held : Bool) : State :=
  s1.modCtx fun x =>
    { x with d := x.d.set 0 (if counted then frameDesc c off 1 else frameDesc c off 1 &&& ~~~(1#64 <<< 24)), held := if held then 1 else 0 }

theorem test_met_FrameSlotForms : (let s := sFrame 1 0x17FC0 true false;
    slotAt s 0 7 = some (.here 0x17FF8) ∧ Lets s (.scratch s.coreId) 0 0x17FF8 ∧ Lets s (.scratch s.coreId) 1 0x17FF8 ∧
    slotAt s 0 0 = some (.here 0x17FC0) ∧ Quiet s ∧ s.Clean ∧ slotAt s 0 8 = none ∧ s.heldBit 0 = false ∧
    Lets s (.scratch s.coreId) 5 (dOffset (s.dreg 0))) := by decide +kernel

theorem test_met_FrameReferences : (let s := sFrame 2 0x100 true false;
      s.ctx.frefWait = none ∧ dCounted (s.dreg 0) = true ∧ dKind (s.dreg 0) = 1 ∧ visible (dCore (s.dreg 0)) = true ∧
      hoopUsed s.ctx + 16 ≤ 2048 ∧ s.heldBit 0 = false) ∧ (sFrame 2 0x100 true true).heldBit 0 = true ∧
    (let s := (sFrame 2 0x100 true false).modCtx fun x => { x with frefWait := some (0, 9) };
      s.ctx.frefWait = some (0, 9) ∧ ∀ k ∈ s.ctx.chunks, ∀ f ∈ k.effs, f.eid ≠ 9) ∧
    (let s := sFrame 2 0x100 false false; s.ctx.frefWait = none ∧ dValid (s.dreg 0) = true ∧ dCounted (s.dreg 0) = false) := by
  decide +kernel

theorem test_met_CountsToAndFromMemory : (let s := sAt 0x17FF8;
      OwnAt (ea s 0#14) 0x17FF8 ∧ s.Clean ∧ (ea s 0#14).toNat % 8 = 0 ∧ Lets s (.scratch s.coreId) 1 0x17FF8 ∧
      Lets s (.scratch s.coreId) 0 0x17FF8 ∧ (24 : Reg).toNat ≤ 24) ∧
    (let s := sAt 0x17FE0;
      OwnAt (ea s 0#14) 0x17FE0 ∧ s.Clean ∧ (ea s 0#14).toNat % 32 = 0 ∧ Lets s (.scratch s.coreId) 1 0x17FE0 ∧
      Lets s (.scratch s.coreId) 0 0x17FE0) ∧
    (24 : Reg) + BitVec.ofNat 5 7 ≠ 0 := by decide +kernel

/-- g6 sends to core 2, with len blocks of payload at g7. -/
def sSend (len off : Nat) : State := (s1.setG 6 (BitVec.ofNat 64 (2 * 2 ^ 32 + len * 2 ^ 24))).setG 7 (at_ off)

theorem test_met_MessagesArePlaced : (let s := sSend 0 0;
      sendSpray (s.gr 6) = false ∧ visible (sendDest (s.gr 6)) = true ∧ hoopUsed s.ctx + 48 ≤ 2048 ∧ sendLen (s.gr 6) = 0 ∧
      dCounted (s.dreg 0) = false ∧ dCounted (s.dreg 1) = false ∧ dCounted (s.dreg 2) = false) ∧
    (let s := sSend 1 0x17FE0; sendSpray (s.gr 6) = false ∧ visible (sendDest (s.gr 6)) = true ∧ sendLen (s.gr 6) = 1 ∧
      s.Clean ∧ Lets s (.scratch s.coreId) 0 0x17FE0 ∧ (s.gr 7).toNat % 8 = 0 ∧ OwnAt (s.gr 7) 0x17FE0 ∧ 0x17FE0 + 32 ≤ spTop) := by decide +kernel

/-- A store placed in the open chunk. -/
def eff1 : Effect := ⟨1, 24, .core 2, none, ⟨0, 0, false⟩, 0, .store [(0, 1)], false, false, 1, none⟩

theorem test_met_EventsEndingsAndCommits : (cdAim 1 ((sAt 0x17FF0).gr 6) = .record 1 0x17FF0 ∧ hoopUsed (sAt 0).ctx + 16 ≤ 2048) ∧
    ((s1.modCtx fun x => { x with hoop := [eff1] }).ctx.hoop ≠ [] ∧ s1.ctx.hoop = [] ∧ s1.ctx.chunks = []) ∧
    ((s1.modCtx fun x => { x with latch := true }).ctx.latch = true ∧ s1.ctx.latch = false) ∧
    ((s1.setG 6 0xB001).gr 6).extractLsb' 0 12 = (1 : CoreId) ∧ visible 1 = true ∧
    (let s := sFrame 1 0x100 true false;
     enginesBusy s.core s.core.cur = false ∧ s.ctx.held = 0 ∧ (∀ n, (headAt s.ctx n).bnd = false) ∧ exitBar s.ctx = none ∧
     dKind (s.dreg 0) = 1 ∧ ownerOfD0 s s.core.cur = false ∧ lvHeld s s.core.cur = false ∧ s.ctx.task = some rec1) := by decide +kernel

/-- A barrier of the quad of core 1 with that core a member, whose phase is p. -/
def sBar (en p : Bool) : State :=
  let n := barOf 1 .quad 3
  let b := { Barrier.reset with en := en, p := p, cmask := BitVec.allOnes 3072 }
  s1.setBar n b

theorem test_met_FencesAndBarriers : Quiet (sBar true false) ∧ barUsable (sBar true true) (barOf 1 .quad 3) = true ∧
    ((sBar true true).bar (barOf 1 .quad 3)).p ≠ ((sBar true true).gr 0).getLsbD 0 ∧
    barUsable (sBar true false) (barOf 1 .quad 3) = true ∧
    ((sBar true false).bar (barOf 1 .quad 3)).p = ((sBar true false).gr 0).getLsbD 0 ∧
    barUsable (sBar false false) (barOf 1 .quad 3) = false ∧ (sBar false false).ctx.stall ≠ some (.barrier (barOf 1 .quad 3)) ∧
    (let s := (sBar false true).stallAs (.barrier (barOf 1 .quad 3)); barUsable s (barOf 1 .quad 3) = false ∧
      s.ctx.stall = some (.barrier (barOf 1 .quad 3)) ∧ (s.bar (barOf 1 .quad 3)).p ≠ (s.gr 0).getLsbD 0) := by decide +kernel

/-- Queue 3 holds n values. -/
def sQ (n : Nat) : State := s1.modCore fun k => { k with q := k.q.set 3 (List.replicate n 7) }

/-- Contexts 1 and 2 stall in QPOP of the empty queue 3. -/
def sPops : State :=
  (s1.modCtxAt 1 fun x => { x with stall := some (.queue 3 (.pop 9)), asleep := true }).modCtxAt 2 fun x =>
    { x with stall := some (.queue 3 (.pop 9)), asleep := true }

theorem test_met_QueuesAreFirstInFirstOut_two : (1 : CtxNo) < 2 ∧ (1 : CtxNo) ≠ sPops.core.cur ∧ (2 : CtxNo) ≠ sPops.core.cur ∧
    sPops.rings = [] ∧ qAt sPops.core 3 = [] ∧ waitsAt (sPops.ctxAt 1) 3 = some (.pop 9) ∧
    waitsAt (sPops.ctxAt 2) 3 = some (.pop 9) ∧ (∀ o, o ≠ 1 → o ≠ 2 → waitsAt (sPops.ctxAt o) 3 = none) ∧
    gives (exec (.qpush 6 3) (sPops.setG 6 77)) (fun t => decide (gval (t.ctxAt 1) 9 = 77 ∧ (t.ctxAt 1).stall = none ∧
      (t.ctxAt 2).stall = some (.queue 3 (.pop 9)) ∧ qAt t.core 3 = [] ∧ t.ctx.stall = none)) = true := by decide +kernel

theorem test_met_QueuesAreFirstInFirstOut : (∀ n ∈ [0, 2, 7, 8], ∀ c, waitsAt ((sQ n).ctxAt c) 3 = none) ∧ 8 ≤ (qAt (sQ 8).core 3).length ∧
    ((qAt (sQ 7).core 3).length < 8 ∧ Lets (sQ 7) (.queues (sQ 7).coreId) 1 (3 : BitVec 2).toNat) ∧
    qAt (sQ 0).core 3 = [] ∧ Lets (sQ 0) (.queues (sQ 0).coreId) 0 (3 : BitVec 2).toNat ∧
    (qAt (sQ 2).core 3 = 7 :: [7] ∧ Lets (sQ 2) (.queues (sQ 2).coreId) 0 (3 : BitVec 2).toNat) ∧ ((5 : Reg) ≠ 6) := by
  decide +kernel

/-- Head 3 bound to bank 255 at position p, with the bank held and at the counted position c. -/
def sHead (p c : BitVec 8) : State :=
  let y : Head := { Head.unbound with bank := 255, pos := p, step := 1, bnd := true }
  (s1.modCtx fun x => { x with h := x.h.set 3 y }).modCore fun k => setBank k 255 fun b =>
    { b with counted := c, track := (c.toNat : Int), holder := some (.head 0 3) }

theorem test_met_HeadForms : (let s := s1.setG 6 0x2FF; (headAt s.ctx 3).bnd = false ∧
      (bankAt s.core ((s.gr 6).extractLsb' 0 8)).holder = none ∧ (bankAt s.core ((s.gr 6).extractLsb' 0 8)).claims = [] ∧
      (bankAt s.core ((s.gr 6).extractLsb' 0 8)).failed = false ∧ (bankAt s.core ((s.gr 6).extractLsb' 0 8)).taken ≤ s.cyc + 1) ∧
    (let s := sHead 255 255; let y := headAt s.ctx 3; let k := bankAt s.core y.bank
      y.bnd = true ∧ k.failed = false ∧ k.holder = some (cur s 3) ∧ k.claims = [] ∧ alignedAt s (cur s 3) = true ∧
      s.Clean ∧ k.rewind = false ∧ k.moving = none ∧ k.taken ≤ s.cyc + 1 ∧ channelFree s = true ∧
      k.track = (y.pos.toNat : Int) ∧ k.spare = none ∧ Lets s (.bank s.coreId y.bank) 0 y.pos.toNat ∧
      Lets s (.bank s.coreId y.bank) 1 y.pos.toNat) ∧
    (let s := sHead 255 3; let y := headAt s.ctx 3; let k := bankAt s.core y.bank
      y.bnd = true ∧ k.failed = false ∧ k.holder = some (cur s 3) ∧ k.claims = [] ∧ alignedAt s (cur s 3) = false ∧ k.moving = none) ∧
    (let s := (sHead 255 3).modCore fun k => setBank k 255 fun b => { b with failed := true };
      (headAt s.ctx 3).bnd = true ∧ (bankAt s.core (headAt s.ctx 3).bank).failed = true) := by decide +kernel

/-- Its step shift under way in a line transfer's occupancy. -/
def sBusy : State := (sHead 8 7).modCore fun k => setBank k 255 fun b => { b with moving := some 8, taken := 2, began := 1 }

/-- The four channels held by the transfers of other banks. -/
def sChans : State := ([0, 1, 2, 3] : List (BitVec 8)).foldl (fun s n => s.modCore fun k => setBank k n fun b => { b with taken := 2 }) (sHead 7 7)

theorem test_met_HeadForms_busy : (let s := sBusy; let k := bankAt s.core 255; k.holder = some (cur s 3) ∧ k.claims = [] ∧
      s.cyc + 1 < k.taken ∧ k.moving = some 8 ∧ reached s.cyc k ≠ 8 ∧ k.rewind = false ∧
      gives (exec (.seek 6 3) (s.setG 6 3)) (fun t => decide ((bankAt t.core 255).moving = some 8 ∧ (headAt t.ctx 3).pos = 3)) = true) ∧
    (let s := sChans; alignedAt s (cur s 3) = true ∧ channelFree s = false ∧
      gives (exec (.rds 4 3) s) (fun t => decide (t.ctx.stall = some (.head 3) ∧ t.ctx.pc = s.ctx.pc)) = true) := by decide +kernel

/-- The matrix command WEIGHT LOAD of 64 bytes from offset 0x17FC0 of the scratchpad to the weight buffer. -/
def mxLoadCmd (off : Nat) : Vector Word 8 := #v[2, BitVec.ofNat 64 (apLocal + off), 64, 0, 0, 0, 0, 0]

/-- v1 holds a command, of whose kind n wait. -/
def sMx (d : Vector Word 8) (n : Nat) : State :=
  let w : VWord := BitVec.ofNat 512 (d.toList.foldr (fun x a => x.toNat + 2 ^ 64 * a) 0)
  (s1.modCtx fun x => { x with v := x.v.set 1 w }).modCore fun k =>
    { k with mxq := k.mxq.set 0 (List.replicate n ⟨mxLoadCmd 0, 0, 0, 0, 0, 0, 0⟩) }

theorem test_met_MatrixForms : (let s := sMx #v[0, 0, 0, 0, 0, 0, 0, 0] 0;
      mxFault s.coreId (dwords (s.vr 1)) (ctxSides s.ctx) = some .illegal) ∧
    (let s := sMx (mxLoadCmd 0x17FC0) 1; mxFault s.coreId (dwords (s.vr 1)) (ctxSides s.ctx) = none ∧
      (mxqAt s.core s.core.cur).length < 2) ∧ mxMine s1.core s1.core.cur = [] ∧
    (∀ m ∈ mxMine (sMx (mxLoadCmd 0) 1).core 0, 7 ∉ mxNames m.dw) ∧
    (let s := sMx (mxLoadCmd 0x17FC0) 2; mxFault s.coreId (dwords (s.vr 1)) (ctxSides s.ctx) = none ∧
      2 ≤ (mxqAt s.core s.core.cur).length) ∧
    (let ls := mxrLanes s1.core 7 15 true false;
      boundLanes ⟨0x3F800000, 0x7F800000, 2, false⟩ false ls = none ∧
      boundLanes ⟨0xFF800000, 0x7F800000, 0, false⟩ false ls = some (ls, false)) := by decide +kernel

/-- The copy command FILL of 8 doublewords of the own scratchpad from offset 0x17FC0. -/
def cpFillCmd : Vector Word 8 :=
  #v[BitVec.ofNat 64 (6 + 3 * 2 ^ 8 + 8 * 2 ^ 32 + 2 ^ 48), 0, at_ 0x17FC0, BitVec.ofNat 64 (8 * 2 ^ 32), 0, 0, 1, 5]

/-- A copy command as queued. -/
def mkCp (d : Vector Word 8) : CpCmd := ⟨d, ⟨0, 0, false⟩, 0, 0, 0, [], false, 0, 0⟩

/-- v1 holds a command of the copy engine, of whose kind n wait. -/
def sCp (d : Vector Word 8) (n : Nat) : State :=
  let w : VWord := BitVec.ofNat 512 (d.toList.foldr (fun x a => x.toNat + 2 ^ 64 * a) 0)
  (s1.modCtx fun x => { x with v := x.v.set 1 w }).modCore fun k =>
    { k with cpq := k.cpq.set 0 (List.replicate n (mkCp cpFillCmd)) }

theorem test_met_CopyForms : cpFault 1 (dwords ((sCp (cpFillCmd.set 0 0) 0).vr 1)) = some .illegal ∧
    (let s := sCp cpFillCmd 1; cpFault s.coreId (dwords (s.vr 1)) = none ∧ (cpqAt s.core s.core.cur).length < 2 ∧
      cpMine s.core s.core.cur = true) ∧ cpMine s1.core s1.core.cur = false ∧
    (let s := sCp cpFillCmd 2; cpFault s.coreId (dwords (s.vr 1)) = none ∧ 2 ≤ (cpqAt s.core s.core.cur).length) := by
  decide +kernel

theorem test_met_SystemRegisterAccess : sysAcc s1.priv .sigpc ≠ .none ∧ sysAcc s1.priv .framecfg = .none ∧
    sysAcc s1.priv .sigthr = .rw ∧ sysAcc s1.priv .gen ≠ .rw ∧ s1.forced = true := by decide +kernel

/-- Context 0 runs a task; three words ADD g5, g6, g7 follow its PC. -/
def sBody : State := s1.modCore fun k => { k with istore := wrBytes [] 4 (leBytes 4 0x04A63800 ++ leBytes 4 0x04A63800) }

theorem test_met_TrapReturnAndReplay : Quiet s1 ∧ sBody.ctx.sigmode.inh = false ∧
    (capture sBody sBody.ctx.pc ((1 : BitVec 4).toNat + 1 - sBody.ctx.caught.length) sBody.ctx.caught).getLeft? = some ([0x04A63800, 0x04A63800], sBody) ∧
    (sSig 2 true 0).ctx.sigmode.inh = true := by decide +kernel

/-- REPSTATE of a body of 2 words and 4 iterations at a position and an iteration. -/
def xRep (pos it : Nat) : Ctx :=
  { Ctx.reset 1 0 with rep := repAt (repStart 3 1 0 0 0) it pos, replaying := true }

theorem test_met_ReplaySteps : (∀ p ∈ [(0, 0), (1, 0), (1, 3)], let x := xRep p.1 p.2
    x.replaying = true ∧ repPos x.rep ≤ repLen x.rep ∧ repIter x.rep ≤ repCnt x.rep) ∧
    repPos (xRep 0 0).rep < repLen (xRep 0 0).rep ∧
    (repPos (xRep 1 0).rep = repLen (xRep 1 0).rep ∧ repIter (xRep 1 0).rep < repCnt (xRep 1 0).rep) ∧
    (repPos (xRep 1 3).rep = repLen (xRep 1 3).rep ∧ repIter (xRep 1 3).rep = repCnt (xRep 1 3).rep) := by decide +kernel

theorem test_met_VectorFloatingPointLanes : s1.SigOff := by decide +kernel

theorem test_met_ReductionsAndConversions : s1.SigOff ∧ Fmt.isInt .i8 = true ∧ (5 : Reg) ≠ 0 ∧
    (1 < cvtCount .f16 .f32) ∧ (cvtCount .f32 .f16 ≤ 16 ∧ 16 < 512 / Fmt.bits .f16) := by decide +kernel

/-- g6 holds offset o of the own scratchpad, g7 a stride, pointer 7 (of v31) the same offset, stride 64. -/
def sVec (o : Nat) (stride : Word) : State :=
  ((s1.setG 6 (at_ o)).setG 7 stride).modCtx fun x => { x with v := x.v.set 31 0 }

theorem test_met_VectorLoads_lets : ∀ q : Nat, Lets (sVec 0x17FC0 8) (.scratch 1) 0 q ∧ Lets (sVec 0x17FC0 8) (.scratch 1) 1 q :=
  fun _ => ⟨rfl, rfl⟩

theorem test_met_VectorLoads : (let s := sVec 0x17FC0 8; s.Clean ∧
    OwnAt (s.gr 6) 0x17FC0 ∧
    (∀ i, i < 512 / 64 → active s.ctx 0 i = true → (s.gr 6 + BitVec.ofNat 64 (i * 8)).toNat % 8 = 0 ∧
      OwnAt (s.gr 6 + BitVec.ofNat 64 (i * 8)) (0x17FC0 + i * 8) ∧ 0x17FC0 + i * 8 + 8 ≤ 0x18000) ∧
    (∀ i, i < 512 / 64 → active s.ctx 0 i = true → (s.gr 6 + BitVec.ofNat 64 i * s.gr 7).toNat % 8 = 0 ∧
      OwnAt (s.gr 6 + BitVec.ofNat 64 i * s.gr 7) (0x17FC0 + i * 8)) ∧
    (∀ i, i < 512 / 64 → active s.ctx 0 i = true → (s.gr 6 + BitVec.ofInt 64 ((s.lane 4 64 i).toInt * 8)).toNat % 8 = 0 ∧
      OwnAt (s.gr 6 + BitVec.ofInt 64 ((s.lane 4 64 i).toInt * 8)) 0x17FC0) ∧
    (let y := ptrLane s.ctx 0; (4 : Reg) ≠ 0 ∧ ptrWin y = 0 ∧ ptrOff y % 8 = 0 ∧
      (∀ i, i < 512 / 64 → active s.ctx 0 i = true → ptrOff y + i * 8 + 8 ≤ 0x18000))) := by decide +kernel

/-- Bound register 7 traps outside [0, 1]; v4 holds 2.0 in every lane of f32. -/
def sBound : State :=
  (sVec 0x17FC0 8).modCore (fun k => { k with bounds := k.bounds.set 7 ⟨0, 0x3F800000, 2, false⟩ }) |>.modCtx fun x =>
    { x with v := x.v.set 4 0x4000000040000000 }

theorem test_met_VectorStores : (let s := sBound; s.Clean ∧
    OwnAt (s.gr 6) 0x17FC0 ∧ (s.gr 6).toNat % 4 = 0 ∧ 0x17FC0 + 64 ≤ 0x18000 ∧ (boundAt s.core 7).act = 2 ∧
    (∃ i, i < 16 ∧ (let x := decodeF f32F (s.lane 4 32 i).toNat
      ltF x (decodeF f32F (boundAt s.core 7).lo.toNat) = true ∨ ltF (decodeF f32F (boundAt s.core 7).hi.toNat) x = true)) ∧
    (∀ p ∈ [(0 : BitVec 3), 7], ptrWin (ptrLane s.ctx p) = 0 ∧ ptrOff (ptrLane s.ctx p) % 64 = 0 ∧
      ptrOff (ptrLane s.ctx p) + 64 ≤ 0x18000) ∧ s.SigOff ∧ Lets s (.scratch s.coreId) 1 (ptrOff (ptrLane s.ctx 0))) := by
  decide +kernel

/-! ### The same for the events; gives says what such an event comes to -/

/-- Context 0 changed. -/
def s1x (f : Ctx → Ctx) : State := s1.modCtxAt 0 f

/-- Record rec1 in the inbox, all contexts free. -/
def sInbox (r : Record) : State := State.reset.modCore fun k => { k with inbox := [r] }

theorem test_met_ContextEvents_A : (512 ≤ ((s1x fun x => { x with sinceCommit := 512 }).ctxAt 0).sinceCommit) ∧
    (let s := (s1.modCtxAt 2 fun x => { x with phase := .running }).modCore fun k => { k with issued := 256 };
      256 ≤ s.core.issued ∧ nextReady s.core = some 2) ∧
    (let s := s1.modCore fun k => { k with issued := 256 };
      256 ≤ s.core.issued ∧ nextReady s.core = none ∧
      gives (exec .issueQuantumExpiry s) (fun t => decide (t.core.cur = 0 ∧ t.core.issued = 0)) = true) ∧
    (let s := sInbox rec1;
      s.stopped = false ∧ s.core.killed = false ∧ freeCtx s.core = some 0 ∧ nextRecord s.core = some (rec1, 0) ∧
      replayHolds s (.scratch s.coreId) (activateSeen s 0 0) = false ∧
      rec1.kept = none ∧ rec1.cap = none ∧ rec1.entry.d1.getLsbD 22 = false ∧
      gives (exec .taskDispatch s) (fun t =>
        decide ((t.ctxAt 0).phase = .running ∧ (t.ctxAt 0).task = some rec1 ∧ (t.ctxAt 0).pc = rec1.entry.d0 ∧
          t.core.inbox = [] ∧ t.core.frames = [(0, 1)] ∧ gval (t.ctxAt 0) 4 = taskInfo rec1 ∧
          gval (t.ctxAt 0) 10 = 0xFF00000000000040 ∧ gval (t.ctxAt 0) 12 = 1)) = true) ∧
    (let s := { sInbox rec1 with now := 2 ^ 20 };
      s.core.inbox[0]? = some rec1 ∧ rec1.since + 2 ^ 20 ≤ s.cyc ∧ rec1.band ≠ 3 ∧ bandHeld s.core rec1.band = false ∧
      gives (exec (.recordPromotion 0) s) (fun t => decide (t.core.inbox.map Record.band = [1])) = true) := by decide +kernel

theorem test_met_ContextEvents_B : (let s := s1x fun x => { x with wdAcc := 2 ^ 22 };
      (s.ctxAt 0).task = some rec1 ∧ (s.ctxAt 0).phase = .running ∧ (s.ctxAt 0).trapDue = none ∧
      2 ^ wdExp s.core rec1 ≤ wdCount s.cyc (s.ctxAt 0) ∧ (s.ctxAt 0).pending = none ∧ (s.ctxAt 0).stall = none ∧
      (s.ctxAt 0).asleep = false ∧
      gives (exec (.watchdogExpiry 0) s) (fun t => decide ((t.ctxAt 0).trapDue = some (.watchdog, false, []))) = true) ∧
    (let s := s1x fun x => { x with wdAcc := 2 ^ 22, asleep := true, stall := some .other }; (s.ctxAt 0).asleep = true ∧
      (s.ctxAt 0).stall.isSome = true ∧
      2 ^ wdExp s.core rec1 ≤ wdCount s.cyc (s.ctxAt 0) ∧
      gives (exec (.watchdogExpiry 0) s) (fun t => decide ((t.ctxAt 0).phase = .ending ∧ t.records.length = 1)) = true) ∧
    (let s := s1x fun x => { x with phase := .ending }; (s.ctxAt 0).phase = .ending ∧ (s.ctxAt 0).chunks = [] ∧
      gives (exec (.contextRelease 0) s) (fun t => decide ((t.ctxAt 0).phase = .free ∧ (t.ctxAt 0).task = none)) = true) ∧
    (let s := s1x fun x => { x with phase := .suspended (.trap 5) };
      (s.ctxAt 0).phase = .suspended (.trap 5) ∧ (s.ctxAt 0).replaying = false ∧
      gives (exec (.supervisorResume 0 [(7, 99)]) s) (fun t =>
        decide ((t.ctxAt 0).phase = .running ∧ (t.ctxAt 0).pc = 0xFF00000001000004 ∧ gval (t.ctxAt 0) 17 = 99)) = true) ∧
    (let s := s1x fun x => { x with phase := .suspended (.pageFault 64) };
      (s.ctxAt 0).phase = .suspended (.pageFault 64) ∧ (s.ctxAt 0).hoop = [] ∧ (s.ctxAt 0).chunks = [] ∧
      (∀ h, (headAt (s.ctxAt 0) h).bnd = false ∧ holds s (.head 0 h) = false) ∧ s.core.banks = [] ∧
      faultedOn (64 / 65536) ((s.ctxAt 0).gen.extractLsb' 0 16) (s.ctxAt 0) = true ∧
      gives (exec (.supervisorResume 0 []) s) (fun t =>
        decide ((t.ctxAt 0).phase = .running ∧ (t.ctxAt 0).pc = 0xFF00000001000000)) = true ∧
      gives (exec (.contextSave 0) s) (fun t => decide ((t.ctxAt 0).phase = .saved (.pageFault 64) ∧ (t.core.saves[0]).isSome = true)) = true) ∧
    (let r : Ctx := { s1.ctxAt 0 with latch := true };
      let s := (s1x fun x => { x with phase := .saved (.pageFault 64) }).modCore fun k => { k with saves := k.saves.set 0 (some r) };
      (s.ctxAt 0).phase = .saved (.pageFault 64) ∧ s.core.saves[(0 : CtxNo).toFin] = some r ∧
      gives (exec (.contextRestore 0) s) (fun t => decide ((t.ctxAt 0).phase = .running ∧ (t.ctxAt 0).latch = true ∧
        t.core.saves[0] = none)) = true) := by decide +kernel

/-- A record that an abortive trap returned. -/
def recT (committed : Bool) : Record := { rec1 with trapped := some (.align, committed) }

/-- A transfer of a head of context 0 that goes on at a bank it has left lets no save end (R219). -/
theorem test_save_waits_for_transfer :
    let s := (s1x fun x => { x with phase := .suspended (.trap 5) }).modCore fun k =>
      setBank k 7 fun b => { b with taken := 2, lastBy := some (.head 0 3) }
    gives (exec (.contextSave 0) s) (fun t => decide ((t.ctxAt 0).phase = .suspended (.trap 5))) = true := by decide +kernel

theorem test_met_ContextEvents_C : (let s := (sInbox (recT false)).modCore fun k => { k with heldBands := 1 };
      trappedHead s.core 0 = some (recT false) ∧ (recT false).trapped = some (.align, false) ∧ (recT false).retried = false ∧
      (∀ q ∈ s.core.inbox, q ≠ recT false → q.band = 0 → q.trapped = none) ∧
      gives (exec (.bandRelease 0) s) (fun t => !(bandHeld t.core 0) && decide (t.records = [] ∧
        t.core.inbox.map Record.retried = [true] ∧ t.core.inbox.map Record.trapped = [none])) = true) ∧
    (let s := (sInbox (recT true)).modCore fun k => { k with heldBands := 1 };
      trappedHead s.core 0 = some (recT true) ∧ (recT true).trapped = some (.align, true) ∧ (recT true).kept = none ∧
      (recT true).launch = none ∧
      gives (exec (.recordDiscard 0) s) (fun t =>
        decide (t.core.inbox = [] ∧ t.records = [.discarded 1 (some .align) 1 true])) = true) := by decide +kernel

/-- The areas an area register would set overlap those of the other, in force or pending. -/
def areaMeets (x : Word) (a : Area) : Bool :=
  let b : BitVec 8 := x.extractLsb' 0 8; let n : BitVec 8 := x.extractLsb' 8 8
  decide ((b.toNat < a.base.toNat + a.size.toNat ∧ a.base.toNat < b.toNat + n.toNat) ∨
    ∃ p ∈ a.pend.toList, b.toNat < p.1.toNat + p.2.toNat ∧ p.1.toNat < b.toNat + n.toNat)

theorem test_met_ConfigurationWrites_A :
    (let x : Word := 0x4000; let b : BitVec 8 := x.extractLsb' 0 8; let n : BitVec 8 := x.extractLsb' 8 8
     1 ≤ n.toNat ∧ 8 ≤ n.toNat ∧ n.toNat ≤ 192 ∧ b.toNat + n.toNat ≤ 192 ∧
     ¬ areaMeets x State.reset.core.inboxcfg ∧ ¬ areaMeets x State.reset.core.framecfg) ∧
    (areaMeets 0x20BF State.reset.core.inboxcfg ∧ areaMeets 0x2041 State.reset.core.framecfg ∧
      areaMeets 0x0100 ⟨0xA0, 0x20, some (0, 8)⟩ ∧ ¬ areaMeets 0x2080 State.reset.core.inboxcfg) := by decide +kernel

theorem test_met_ConfigurationWrites_B : gives (exec (.framecfgWrite 0x4000) State.reset) (fun t =>
      decide (t.core.framecfg = ⟨0x60, 0x40, some (0, 0x40)⟩)) = true ∧
    (192 < ((0x01C0 : Word).extractLsb' 0 8).toNat + ((0x01C0 : Word).extractLsb' 8 8).toNat) ∧
    ((0x0000 : Word).extractLsb' 8 8).toNat < 1 ∧
    (let s := s1.modCore fun k => { k with framecfg := { k.framecfg with pend := some (0, 0x40) } };
      s.core.framecfg.pend = some (0, 0x40) ∧ s.core.frames = [] ∧
      gives (exec .framecfgApply s) (fun t => decide (t.core.framecfg = ⟨0, 0x40, none⟩)) = true) ∧
    (let s := s1.modCore fun k => { k with inboxcfg := { k.inboxcfg with pend := some (0, 0x40) } };
      s.core.inboxcfg.pend = some (0, 0x40) ∧ (recPlaces State.reset.core = []) ∧
      gives (exec .inboxcfgApply { s with core := { Core.reset 1 with inboxcfg := s.core.inboxcfg } }) (fun t =>
        decide (t.core.inboxcfg = ⟨0, 0x40, none⟩)) = true) := by decide +kernel

/-- A configuration of a barrier. -/
def cfg1 (ctl : Word) : BarCfg := { ctl := ctl, cmask := 3, qmask := 1, dmask := 1, pmask := 0, red := none }

theorem test_met_ConfigurationWrites_C : (let k : BarKey := ⟨.quad, 0, 63⟩;
      (State.reset.bar (barNo k)).came = [] ∧ (State.reset.bar (barNo k)).podCame = [] ∧ (cfg1 0x1F).red = none ∧
      ((cfg1 0x1F).ctl.getLsbD 1 = true) ∧ (cfg1 0x1F).ctl.getLsbD 5 = false ∧ barScope (barNo k) ≠ 3 ∧
      gives (exec (.barrierConfigWrite k (cfg1 0x1F)) State.reset) (fun t =>
        decide ((t.bar (barNo k)).en = true ∧ (t.bar (barNo k)).pclass = 7 ∧ (t.bar (barNo k)).cmask = 3)) = true ∧
      ((s1.setBar (barNo k) { Barrier.reset with came := [1] }).bar (barNo k)).came ≠ []) ∧
    ((cfg1 0x22).ctl.getLsbD 1 = true ∧ (cfg1 0x22).ctl.getLsbD 5 = true ∧ barScope (barNo ⟨.pod, 0, 15⟩) = 3 ∧
      ((s1.setBar (barNo ⟨.pod, 0, 15⟩) { Barrier.reset with podCame := [7] }).bar (barNo ⟨.pod, 0, 15⟩)).podCame ≠ []) ∧
    (2 : BitVec 2) ≠ 3 ∧ (0xBFF : CoreId).toNat < 0xC00 ∧ ([5#128] : List (BitVec 128)) ≠ [] ∧
    gives (exec (.queueControlWrite 2 65535 7) State.reset) (fun t =>
      decide ((queueAt (t.die 2) 65535).en = true ∧ (queueAt (t.die 2) 65535).priv = true)) = true ∧
    gives (exec (.sprayTreeWrite 0xBFF 63 (some 31)) State.reset) (fun t =>
      decide (treeMask t (2 * 32 + nfld 0xBFF 0 5) (nfld 0xBFF 5 5) 63 = some 31)) = true ∧
    gives (exec (.traceRingControlWrite (.scratch 5) 5 [7#128]) State.reset) (fun t =>
      decide ((tget Ring.reset t.rings (portNo (.scratch 5))).log = [7#128])) = true ∧
    gives (exec (.erasureRegisterWrite 47 0xFFFFFFFF) State.reset) (fun t =>
      decide ((erasureOf t 47).marks = 0xFFFFFFFF)) = true ∧
    gives (exec (.frameTagWrite 0x17FFFFF 0x3FFFFFF) State.reset) (fun t =>
      decide (tget 0 t.ftags 0x17FFFFF = 0x3FFFFFF)) = true ∧
    gives (exec (.rootTableWrite 2 65535 9) State.reset) (fun t => decide (tget 0 (t.die 2).roots 65535 = 9)) = true ∧
    gives (exec (.hostCredentialInstall 7 1 2 3) State.reset) (fun t =>
      decide (tget none t.creds 7 = some ⟨1, 2, 3⟩)) = true := by decide +kernel

/-- The route from core 2 to core 1, and back. -/
def rt : Route := ⟨.core 2, .core 1⟩
def rtB : Route := ⟨.core 1, .core 2⟩

/-- A packet of context 0 of core 2, effect 40. -/
def pk (b : Body) : Packet := ⟨rt, .ctx 0, 40, false, false, ⟨0, 0, true⟩, 0, b, false⟩

/-- Core 1, with bytes at 0x100, to which a request comes; another packet of another route is in flight. -/
def pkO : Packet := ⟨⟨.core 3, .core 4⟩, .ctx 0, 41, false, false, ⟨0, 0, true⟩, 0, .ack, false⟩
def sReq (o : Op) : State := { s2 with net := [pk (.op o), pkO], booted := true }

/-- What each clause says of the network: the answer is behind what else is in flight. -/
def backIs (b : Body) (t : State) : Bool := decide (t.net = [pkO, { pk b with route := rtB }])

theorem test_met_RequestsArePerformed_A : (let o : Op := .load [0x107, 0x100];
      Deliverable (sReq o) rt 1 (pk (.op o)) [pkO] o ∧
      gives (exec (.remoteLoad rt) (sReq o)) (backIs (.loadReply [0x88, 0x81])) = true) ∧
    (let o : Op := .store [(0x17FFF, 9)]; Deliverable (sReq o) rt 1 (pk (.op o)) [pkO] o ∧
      gives (exec (.remoteStore rt) (sReq o)) (fun t => backIs .ack t && decide (rd8 t.core.mem 0x17FFF = 9)) = true) ∧
    (let o : Op := .slot0 0x100 0xFFFFFFFFFFFFFFFF; Deliverable (sReq o) rt 1 (pk (.op o)) [pkO] o ∧
      gives (exec (.remoteStore rt) (sReq o)) (fun t => backIs .ack t &&
        decide (rdNat t.core.mem 0x100 8 = mergeSlot0 0x8807060504030281 0xFFFFFFFFFFFFFFFF)) = true) ∧
    (let o : Op := .atomic 9 .w 0x100 5 0x04030281; Deliverable (sReq o) rt 1 (pk (.op o)) [pkO] o ∧
      gives (exec (.remoteAtomic rt) (sReq o)) (fun t => backIs (.atomicReply 0x04030281) t &&
        decide (rdNat t.core.mem 0x100 4 = 5)) = true) ∧
    (let o : Op := .sev 9; Deliverable (sReq o) rt 1 (pk (.op o)) [pkO] o ∧
      gives (exec (.sevLatchWrite rt) (sReq o)) (fun t => backIs .ack t &&
        decide (t.core.ctxs.toList.map Ctx.latch = [true, false, false, true])) = true) := 
  ⟨by decide +kernel, by decide +kernel, by decide +kernel, by decide +kernel, by decide +kernel⟩

/-- A doubleword at 0x200. -/
def sReq8 (x : Nat) (o : Op) : State := (sReq o).modCore fun k => { k with mem := wrBytes k.mem 0x200 (leBytes 8 x) }

theorem test_met_RequestsArePerformed_B : (let o : Op := .cdec 0x200 2 none; let s := sReq8 3 o;
      Deliverable s rt 1 (pk (.op o)) [pkO] o ∧ s.core.posts = [] ∧ 2 ≠ 0 ∧ 2 < nfld (rdNat s.core.mem 0x200 8) 0 32 ∧
      gives (exec (.countdownDecrement rt) s) (fun t => backIs .ack t && decide (rdNat t.core.mem 0x200 8 = 1)) = true) ∧
    (let o : Op := .frameInc 0x200 2; let s := sReq8 (2 ^ 41 + 3) o;
      Deliverable s rt 1 (pk (.op o)) [pkO] o ∧ sLv (rdNat s.core.mem 0x200 8) = true ∧
      gives (exec (.frameIncrement rt) s) (fun t => backIs .ack t && decide (rdNat t.core.mem 0x200 8 = 2 ^ 41 + 5)) = true) ∧
    (let o : Op := .frameRel 0x200; let s := sReq8 (2 ^ 41 + 3) o;
      Deliverable s rt 1 (pk (.op o)) [pkO] o ∧ s.core.posts = [] ∧ sLv (rdNat s.core.mem 0x200 8) = true ∧
      2 ≤ sLive (rdNat s.core.mem 0x200 8) ∧
      gives (exec (.frameRelease rt) s) (fun t => backIs .ack t && decide (rdNat t.core.mem 0x200 8 = 2 ^ 41 + 2)) = true) ∧
    (let o : Op := .entries [(255, ⟨5, 6⟩)]; Deliverable (sReq o) rt 1 (pk (.op o)) [pkO] o ∧ (sReq o).core.park = none ∧
      gives (exec (.entryTableWrite rt) (sReq o)) (fun t => backIs .ack t &&
        decide (tget ⟨0, 0⟩ t.core.entries 255 = ⟨5, 6⟩)) = true) ∧
    (let o : Op := .istore [(0xFFFF, 7)]; Deliverable (sReq o) rt 1 (pk (.op o)) [pkO] o ∧
      gives (exec (.instructionStoreWrite rt) (sReq o)) (fun t => backIs .ack t && decide (rd8 t.core.istore 0xFFFF = 7)) = true) :=
  ⟨by decide +kernel, by decide +kernel, by decide +kernel, by decide +kernel, by decide +kernel⟩

/-- A message of core src to core 1 with an entry, a code LT, an argument and a payload. -/
def msg1 (src entry lt arg : Nat) (pay : List Byte) : Msg :=
  { h0 := BitVec.ofNat 64 (entry + lt * 2 ^ 8 + (pay.length + 31) / 32 * 2 ^ 24 + 2 ^ 32 + src * 2 ^ 44)
    h1 := BitVec.ofNat 64 (7 + arg * 2 ^ 32), cap := none, payload := pay, coded := none, cls := 0, priv := true, quad := false
    launch := none, kept := none, arg := 0, tries := 0 }

/-- 32 bytes that begin with some. -/
def pay32 (bs : List Byte) : List Byte := bs ++ List.replicate (32 - bs.length) 0

/-- A launch record of entry 5: one task, without a gang, an exit barrier or bindings. -/
def launch64 : List Byte := leBytes 8 5 ++ leBytes 8 1 ++ List.replicate 48 0

/-- Queue 65535 of die 0 is enabled; entry 9 of core 1 is valid. -/
def sQueue (o : Op) : State :=
  ((sReq o).modDie 0 fun y => setQueue y 65535 { Queue.reset with en := true }).modCore fun k =>
    { k with entries := [(9, ⟨0x1000, 0x100001⟩)] }

/-- The messages of the three clauses. -/
def mBoot : Msg := msg1 0 252 0 0 (pay32 (leBytes 8 0xFFE8))
def mBoot2 : Msg := msg1 0 252 0 0 (pay32 (leBytes 8 (2 ^ 18 + 0x17FE8) ++ [1]))
def mAppend : Msg := msg1 2 253 0 65535 launch64
def mTask : Msg := msg1 2 9 0 77 (pay32 [1])

/-- The launch that mAppend carries. -/
def lAppend : Launch := ⟨takeMsg.recWords mAppend.payload, some (hSrc mAppend), ⟨0, 0, true⟩, 0, 0, 0⟩

theorem test_met_RequestsArePerformed_boot : (let o : Op := .msg mBoot; let s := sQueue o;
      Deliverable s rt 1 (pk (.op o)) [pkO] o) ∧
    (mBoot.coded = none ∧ hLt mBoot = 0 ∧ hEntry mBoot = 252 ∧ isSupervisor (hSrc mBoot) = true ∧ mBoot.priv = true ∧
      hLen mBoot ≠ 0 ∧ (sQueue (.msg mBoot)).core.park = none ∧ leNat (mBoot.payload.take 8) = 0xFFE8 ∧
      0xFFE8 + (mBoot.payload.drop 8).length ≤ 0x10000) ∧
    gives (exec (.bootLoad rt) (sQueue (.msg mBoot))) (fun t => backIs .ack t && decide (t.core.istore = [])) = true :=
  ⟨by decide +kernel, by decide +kernel, by decide +kernel⟩

theorem test_met_RequestsArePerformed_boot2 : (let o : Op := .msg mBoot2; let s := { sQueue o with booted := false };
      Deliverable s rt 1 (pk (.op o)) [pkO] o) ∧
    (mBoot2.coded = none ∧ hLt mBoot2 = 0 ∧ hEntry mBoot2 = 252 ∧ isSupervisor (hSrc mBoot2) = true ∧ mBoot2.priv = true ∧
      hLen mBoot2 ≠ 0 ∧ leNat (mBoot2.payload.take 8) = 2 ^ 18 + 0x17FE8 ∧
      0x17FE8 + (mBoot2.payload.drop 8).length ≤ 0x18000) ∧
    gives (exec (.bootLoad rt) { sQueue (.msg mBoot2) with booted := false }) (fun t =>
      backIs .ack t && decide (rd8 t.core.mem 0x17FE8 = 1)) = true := ⟨by decide +kernel, by decide +kernel, by decide +kernel⟩

theorem test_met_RequestsArePerformed_append : (let o : Op := .msg mAppend; let s := sQueue o;
      Deliverable s rt 1 (pk (.op o)) [pkO] o) ∧
    (mAppend.coded = none ∧ hLt mAppend = 0 ∧ hEntry mAppend = 253 ∧ hLen mAppend = 2 ∧ hArg mAppend < 65536 ∧
      (sQueue (.msg mAppend)).booted = true ∧ dieOf 1 ≠ 3 ∧ appendFault ((sQueue (.msg mAppend)).die (dieOf 1)) (hArg mAppend) true false 2 lAppend = none) ∧
    gives (exec (.prickingAppend rt) (sQueue (.msg mAppend))) (fun t => backIs .ack t &&
      decide ((queueAt (t.die 0) 65535).recs = [lAppend])) = true :=
  ⟨by decide +kernel, by decide +kernel, by decide +kernel⟩

theorem test_met_RequestsArePerformed_task : (let o : Op := .msg mTask; let s := sQueue o;
      Deliverable s rt 1 (pk (.op o)) [pkO] o) ∧
    (mTask.coded = none ∧ hLt mTask = 0 ∧ hEntry mTask ≠ 252 ∧ hEntry mTask ≠ 253 ∧ mTask.cls ≠ 6 ∧
      eValid (entryAt (sQueue (.msg mTask)).core 9) = true ∧
      entryGranules (entryAt (sQueue (.msg mTask)).core 9) ≤ (sQueue (.msg mTask)).core.framecfg.size.toNat ∧
      (sQueue (.msg mTask)).core.inboxcfg.pend = none ∧
      findPlace (sQueue (.msg mTask)).core false (recBytes mTask.cap.isSome mTask.payload.length) = some 0x14000) ∧
    gives (exec (.messageAccept rt) (sQueue (.msg mTask))) (fun t => backIs .ack t &&
      decide (t.core.inbox.map Record.place = [0x14000] ∧ t.core.inbox.map Record.payOff = [0x14040] ∧
        rd8 t.core.mem 0x14040 = 1 ∧ t.core.inbox.map Record.src = [2])) = true :=
  ⟨by decide +kernel, by decide +kernel, by decide +kernel⟩

/-! Landings: O = 0x100, where 81 02 03 04 05 06 07 88 stands. -/

/-- What a landing comes to: the doubleword at 0x100, and an acknowledgement. -/
def lands (i : Instr) (m : Msg) (x : Nat) : Bool :=
  gives (exec i (sReq (.msg m))) fun t => backIs .ack t && decide (rdNat t.core.mem 0x100 8 = x)

/-- The refusal of a landing: no byte changes, the message comes back with LANDING_BAD. -/
def landsNot (i : Instr) (m : Msg) : Bool :=
  gives (exec i (sReq (.msg m))) fun t => backIs (.nack 4 (.msg m)) t && decide (t.core.mem = s2.core.mem)

/-- A landing message comes to core 1, plain, of its transform. -/
def landsAt (m : Msg) (lt O : Nat) : Bool :=
  decide (Deliverable (sReq (.msg m)) rt 1 (pk (.op (.msg m))) [pkO] (.msg m)) &&
    decide (m.coded = none ∧ (sReq (.msg m)).booted = true ∧ hLt m = lt ∧ nfld (hArg m) 0 17 = O)

/-- For each transform the least aligned and the greatest offset at which its elements fit, which is met, and a
misaligned offset and one whose last element is outside the scratchpad, which are refused. -/
theorem test_met_LandingsTransformTheirElements :
    ([(1, 0x17FE0), (2, 0x17FC0), (3, 0x17FC0), (4, 0x17FE0), (5, 0x17E00), (6, 0x17FE0), (7, 0x17FE0)] : List (Nat × Nat)).all
      (fun p => landsAt (msg1 2 0 p.1 p.2 (if p.1 = 5 then List.replicate 512 0 else pay32 [])) p.1 p.2) = true ∧
    ([(1, 0x17FE1), (2, 0x102), (3, 0x101), (4, 0x104), (5, 0x104), (6, 0x102), (7, 0x104)] : List (Nat × Nat)).all
      (fun p => landsAt (msg1 2 0 p.1 p.2 (pay32 [])) p.1 p.2) = true := by decide +kernel

theorem test_landingBad :
    ([(.landingF32Add rt, 1, 0x17FE4), (.landingBf16Accumulate rt, 2, 0x17FC4), (.landingE4m3Widen rt, 3, 0x17FC2),
      (.landingStridedScatter rt, 4, 0x17FE8), (.landingTranspose rt, 5, 0x100), (.landingF32Max rt, 6, 0x17FE4),
      (.landingXor rt, 7, 0x17FE8), (.landingF32Add rt, 1, 0x102), (.landingBf16Accumulate rt, 2, 0x102),
      (.landingE4m3Widen rt, 3, 0x101), (.landingStridedScatter rt, 4, 0x104), (.landingF32Max rt, 6, 0x101),
      (.landingXor rt, 7, 0x104)] : List (Instr × Nat × Nat)).all
      (fun p => landsNot p.1 (msg1 2 0 p.2.1 (p.2.2 + if p.2.1 = 4 then 2 ^ 17 else 0) (pay32 []))) = true := by decide +kernel

theorem test_landings : lands (.landingXor rt) (msg1 2 0 7 0x100 (pay32 [0xFF])) 0x880706050403027E = true ∧
    lands (.landingStridedScatter rt) (msg1 2 0 4 (0xF0 + 2 * 2 ^ 17) (pay32 [0, 0, 0, 0, 0, 0, 0, 0, 5])) 5 = true ∧
    lands (.landingTranspose rt) (msg1 2 0 5 (0xC0 + 8 * 2 ^ 17) (List.replicate 8 0 ++ [6] ++ List.replicate 503 0)) 6 = true ∧
    lands (.landingE4m3Widen rt) (msg1 2 0 3 0x100 (pay32 [0x38, 0xB8])) 0x00000000BF803F80 = true ∧
    lands (.landingBf16Accumulate rt) (msg1 2 0 2 0xF0 (pay32 [0, 0, 0, 0, 0, 0, 0, 0, 0x80, 0x3F, 0, 0])) 0x880706053F800000 = true ∧
    lands (.landingF32Max rt) (msg1 2 0 6 0xFC (pay32 [0, 0, 0, 0, 0, 0, 0x80, 0x3F])) 0x3F800000 = true := by
  decide +kernel

/-! Answers: the reply comes from core 2 to context 0 of core 1, effect 40. -/

/-- The reply alone in flight, and context 0 changed. -/
def sRpl (b : Body) (f : Ctx → Ctx) : State := { s1x f with net := [{ pk b with route := rt }] }

/-- A chunk with effect 40. -/
def chunk40 : Chunk := ⟨[{ eff1 with eid := 40, sent := true }]⟩

def lateLoad (x : Ctx) : Ctx := { x with pending := some ⟨40, [none, none], [0, 1], [], .g 5 true⟩, stall := some .other }

theorem test_met_AnswersReachTheirSender_A : (let s := sRpl .ack fun x => { x with chunks := [chunk40] };
      ReplyAt s rt 1 (pk .ack) [] .ack ∧ (pk .ack).who = .ctx 0 ∧ exitBar (s.ctxAt 0) = none ∧
      (∀ k ∈ (s.ctxAt 0).chunks, ∀ e ∈ k.effs, e.eid = 40 → e.copies = 1) ∧
      gives (exec (.acknowledgement rt) s) (fun t => decide (t.net = [] ∧ (t.ctxAt 0).chunks.flatMap Chunk.effs = [])) = true) ∧
    (let s := sRpl (.loadReply [0xFE, 0xFF]) lateLoad;
      ReplyAt s rt 1 (pk (.loadReply [0xFE, 0xFF])) [] (.loadReply [0xFE, 0xFF]) ∧
      (s.ctxAt 0).pending = some ⟨40, List.replicate 2 none, List.range 2, [], .g 5 true⟩ ∧
      gives (exec (.loadReply rt) s) (fun t => decide (t.net = [] ∧ (t.ctxAt 0).pending = none ∧
        (t.ctxAt 0).pc = 0xFF00000001000004 ∧ gval (t.ctxAt 0) 5 = 0xFFFFFFFFFFFFFFFE ∧ (t.ctxAt 0).stall = none ∧
        (s.ctxAt 0).sinceCommit < 511 ∧ (t.ctxAt 0).sinceCommit = 1)) = true) := by
  decide +kernel

theorem test_met_AnswersReachTheirSender_B :
    (let s := sRpl (.atomicReply 9) fun x => { x with pending := some ⟨40, [], [], [], .amo 5⟩ };
      ReplyAt s rt 1 (pk (.atomicReply 9)) [] (.atomicReply 9) ∧ (s.ctxAt 0).pending = some ⟨40, [], [], [], .amo 5⟩ ∧
      gives (exec (.atomicReply rt) s) (fun t => decide (t.net = [] ∧ (t.ctxAt 0).pending = none ∧
        gval (t.ctxAt 0) 5 = 9)) = true) ∧
    (let s := sRpl (.err 1 none none) lateLoad; ReplyAt s rt 1 (pk (.err 1 none none)) [] (.err 1 none none) ∧
      (s.ctxAt 0).pending.map Pending.eid = some 40 ∧
      gives (exec (.errorPacket rt) s) (fun t => decide (t.net = [] ∧ (t.ctxAt 0).phase = .ending ∧
        t.records = [.fault 1 0 .access 0xFF00000001000000 1 false true [] (some false)])) = true) ∧
    (let s := sRpl (.nack 2 (.msg mTask)) fun x => { x with chunks := [chunk40] };
      ReplyAt s rt 1 (pk (.nack 2 (.msg mTask))) [] (.nack 2 (.msg mTask)) ∧
      mTask.tries < 17 ∧ (pk (.nack 2 (.msg mTask))).route.src = .core 2 ∧
      gives (exec (.nackReceipt rt) s) (fun t => decide (t.net = [] ∧ t.core.resend =
        [⟨.msg { mTask with tries := 1, coded := none, h0 := setFld mTask.h0 12 3 0 }, false, .ctx 0, 40, 2, false, ⟨0, 0, true⟩, 0, 512⟩])) = true) := by
  decide +kernel

/-- An atomic whose reply finds its route down was performed, and the fault record says so (R121). -/
theorem test_lost_reply_was_performed :
    let s := { sRpl (.atomicReply 9) fun x => { x with pending := some ⟨40, [], [], [], .amo 5⟩ } with downLinks := routeLinks rt }
    gives (exec (.atomicReply rt) s) (fun t => decide (t.records =
      [.fault 1 0 .access 0xFF00000001000000 1 false true [] (some true)])) = true := by decide +kernel

/-- A group of two stores, the second of which replay would hold back, does not begin (R343; log entry 75). -/
theorem test_group_does_not_stop_in_its_midst :
    let s0 : State := { s2 with net := [{ pk (.op (.store [(0x100, 1)])) with more := true }, pk (.op (.store [(0x108, 1)]))] }
    let e : Nat := 2 + 0 * 2 ^ 12 + 1 * 2 ^ 15
    let ring (l : List (BitVec 128)) : State :=
      { s0 with rings := [(portNo (.scratch 1), { Ring.reset with replay := true, log := l, left := l.length })] }
    gives (exec (.remoteStore rt) (ring [BitVec.ofNat 128 (e + 0x100 * 2 ^ 64), 1, 1])) (fun t =>
        decide (t.net.length = 2 ∧ rd8 t.core.mem 0x100 = 0x81)) = true ∧
      gives (exec (.remoteStore rt) (ring [BitVec.ofNat 128 (e + 0x100 * 2 ^ 64), BitVec.ofNat 128 (e + 0x108 * 2 ^ 64), 1])) (fun t =>
        decide (rd8 t.core.mem 0x100 = 1 ∧ rd8 t.core.mem 0x108 = 1)) = true := by decide +kernel

/-- A message due to be sent again. -/
def sResend : State := (s1.modCore fun k => { k with resend := [⟨.msg { mTask with tries := 1 }, false, .ctx 0, 40, 2, true, ⟨5, 6, true⟩, 7, 0⟩] })

theorem test_met_AnswersReachTheirSender_C : (let s := sResend;
      s.core.resend[0]? = some ⟨.msg { mTask with tries := 1 }, false, .ctx 0, 40, 2, true, ⟨5, 6, true⟩, 7, 0⟩ ∧ 0 ≤ s.now ∧
      samplerWaits s.core 2 = false ∧ hLen mTask < 2 ∧
      gives (exec (.nackResend 0) s) (fun t => decide (t.core.resend = [] ∧ t.net.map Packet.route = [rtB] ∧
        t.net.map Packet.eid = [40] ∧ t.net.map Packet.tag = [⟨5, 6, true⟩] ∧ t.net.map Packet.more = [true])) = true) ∧
    (let s := s1x fun x => { x with chunks := [⟨[eff1]⟩] };
      (s.ctxAt 0).chunks = [⟨[eff1]⟩] ∧ eff1.sent = false ∧ (∀ d ∈ [(2 : CoreId)], eff1.dst = .core d ∧ samplerWaits s.core d = false) ∧ eff1.pkg = none ∧ drainsFirst s.core eff1 = false ∧
      gives (exec (.chunkSend 0) s) (fun t => decide ((t.ctxAt 0).chunks = [⟨[{ eff1 with sent := true }]⟩] ∧
        t.net = [⟨rtB, .ctx 0, 1, false, false, ⟨0, 0, false⟩, 0, .op eff1.op, false⟩])) = true) ∧
    (let s := sReq (.load [0]);
      takeFirst (fun q => decide (q.route = rt)) s.net = some (pk (.op (.load [0])), [pkO]) ∧
      gives (exec (.poisonedPacket rt) s) (fun t => decide (t.net = [pkO] ∧ t.records = [.error 1 319 2])) = true) ∧
    (s1.downLinks.contains 5 = false ∧ tget 0 s1.retries 5 + 1 < 16 ∧
      gives (exec (.linkRetry 5) s1) (fun t => decide (tget 0 t.retries 5 = 1 ∧ t.downLinks = [])) = true ∧
      16 ≤ tget 0 ({ s1 with retries := [(5, 15)] } : State).retries 5 + 1 ∧
      gives (exec (.linkRetry 5) { s1 with retries := [(5, 15)] }) (fun t => decide (t.downLinks = [5, linkBack 5] ∧
        t.records = [.error 0 315 5])) = true) :=
  ⟨by decide +kernel, by decide +kernel, by decide +kernel, by decide +kernel⟩

/-- A post that waits; entry 9 is valid. -/
def post1 : Post := ⟨3, none, 9, 5, 1, 0, [], none, none, none, none⟩

theorem test_met_AnswersReachTheirSender_D :
    (let s := { s1.modCore fun k => { k with park := some (mTask, pk (.op (.msg mTask)), 0) } with now := 4096 };
      s.core.park = some (mTask, pk (.op (.msg mTask)), 0) ∧ 0 + 4096 ≤ s.now ∧
      gives (exec .parkTimeout s) (fun t => decide (t.core.park = none ∧ t.net = [answerTo (pk (.op (.msg mTask))) (.nack 1 (.msg mTask))])) = true) ∧
    (let s := s1.modCore fun k => { k with posts := [post1], entries := [(9, ⟨0x1000, 0x100001⟩)] };
      s.core.posts = post1 :: [] ∧ post1.frees = none ∧ post1.entryIx ≠ 252 ∧ post1.entryIx ≠ 253 ∧ s.rings = [] ∧ eValid (entryAt s.core 9) = true ∧
      entryGranules (entryAt s.core 9) ≤ s.core.framecfg.size.toNat ∧
      findPlace s.core true (recBytes post1.cap.isSome post1.payload.length) = some 0x14000 ∧
      gives (exec .localPostAccept s) (fun t => decide (t.core.posts = [] ∧ t.core.inbox.map Record.arg = [5] ∧
        t.core.inbox.map Record.place = [0x14000] ∧ t.core.inbox.map Record.cls = [3])) = true) ∧
    (let l : GLine := ⟨0x1000, 0x2000, none, List.replicate 64 none, ⟨0, 0, false⟩, (0, 0), 0, none⟩;
      ({ s1.modCore fun k => { k with gather := [l] } with now := 1024 } : State).core.gather[0]? = some l ∧ l.drain = none ∧ l.last + 1024 ≤ 1024) :=
  ⟨by decide +kernel, by decide +kernel, by decide +kernel⟩

theorem test_met_ShiftStoreEvents_A :
    (let s := (s1.modCtx fun x => { x with h := x.h.set 3 { Head.unbound with bank := 255, pos := 7, bnd := true } }).modCore fun k =>
        setBank k 255 fun b => { b with claims := [(.head 0 3, 0)] };
      bestClaim s.core (bankAt s.core 255).claims = some (.head 0 3, 0) ∧ grantable s (bankAt s.core 255) (.head 0 3) s.cyc = true ∧
      (headOf s (.head 0 3)).bank = 255 ∧
      gives (exec (.headClaimGrant 255) s) (fun t => decide ((bankAt t.core 255).holder = some (.head 0 3) ∧
        (bankAt t.core 255).claims = [] ∧ (bankAt t.core 255).moving = some 7)) = true) ∧
    (let s := (((sHead 7 3).modCtx fun x => { x with stall := some (.head 3) }).modCtxAt 1 fun x =>
        { x with h := x.h.set 2 { Head.unbound with bank := 255, pos := 1, bnd := true } }).modCore fun k =>
        setBank { k with cycles := 2, headpri := 4 } 255 fun b => { b with claims := [(.head 1 2, 0)], moving := some 7 };
      bestClaim s.core (bankAt s.core 255).claims = some (.head 1 2, 0) ∧ grantable s (bankAt s.core 255) (.head 1 2) s.cyc = true ∧
      (headOf s (.head 1 2)).bank = 255 ∧ (bankAt s.core 255).holder = some (.head 0 3) ∧ waitsFor s (.head 0 3) = true ∧
      gives (exec (.headClaimGrant 255) s) (fun t => decide ((bankAt t.core 255).holder = some (.head 1 2) ∧
        (bankAt t.core 255).counted = 5 ∧ (bankAt t.core 255).claims = [(.head 0 3, s.cyc - 1)] ∧
        (bankAt t.core 255).moving = some 1 ∧ (headAt t.ctx 3).disp = true)) = true) ∧
    (let s := (sHead 7 3).modCore fun k => setBank { k with cycles := 4 } 255 fun b => { b with moving := some 7 };
      enginesRun s.core = true ∧ reached s.cyc (bankAt s.core 255) = 7 ∧ (bankAt s.core 255).moving = some 7 ∧ (bankAt s.core 255).holder = some (.head 0 3) ∧
      (bankAt s.core 255).rewind = false ∧ s.core.inj.arm = false ∧ (headOf s (.head 0 3)).pos = 7 ∧
      gives (exec (.bankAligned 255) s) (fun t => decide ((bankAt t.core 255).counted = 7 ∧
        (bankAt t.core 255).moving = none ∧ (bankAt t.core 255).track = 7 ∧ (headAt t.ctx 3).busy = false)) = true) ∧
    (let s := (sHead 3 7).modCore fun k => setBank { k with cycles := 2 } 255 fun b => { b with moving := some 8, taken := 2, began := 1 };
      reached s.cyc (bankAt s.core 255) = 8 ∧ (headOf s (.head 0 3)).pos ≠ 8 ∧ s.cyc ≤ (bankAt s.core 255).taken ∧
      gives (exec (.bankAligned 255) s) (fun t => decide ((bankAt t.core 255).counted = 8 ∧ (bankAt t.core 255).moving = some 3)) = true) ∧
    (let s := ((sHead 7 3).modCtx fun x => { x with stall := some (.head 3) }).modCore fun k =>
        setBank { k with cycles := 7 } 255 fun b => { b with moving := some 0, rewind := true };
      enginesRun s.core = true ∧ rewindOver (bankAt s.core 255) ≤ s.cyc ∧ s.ctx.phase = .running ∧
      (bankAt s.core 255).moving = some 0 ∧ (bankAt s.core 255).holder = some (.head 0 3) ∧
      (bankAt s.core 255).rewind = true ∧ 0 ≤ (bankAt s.core 255).track ∧
      gives (exec (.bankAligned 255) s) (fun t => decide ((bankAt t.core 255).counted = 0 ∧ (bankAt t.core 255).track = 0 ∧
        (bankAt t.core 255).rewind = false ∧ (headAt t.ctx 3).pos = 0 ∧ t.ctx.pc = 0xFF00000001000004)) = true) ∧
    (let s := ((sHead 7 3).modCtx fun x => { x with stall := some (.head 3) }).modCore fun k =>
        setBank { k with cycles := 268 } 255 fun b => { b with moving := some 0, rewind := true, track := -1 };
      enginesRun s.core = true ∧ rewindOver (bankAt s.core 255) ≤ s.cyc ∧ s.ctx.phase = .running ∧
      (bankAt s.core 255).moving = some 0 ∧ (bankAt s.core 255).holder = some (.head 0 3) ∧
      (bankAt s.core 255).rewind = true ∧ (bankAt s.core 255).track < 0 ∧
      gives (exec (.bankAligned 255) s) (fun t => decide (t.ctx.phase = .ending ∧
        t.records = [.fault 1 0 .track 0xFF00000001000000 1 false false [255, 7] none])) = true) :=
  ⟨by decide +kernel, by decide +kernel, by decide +kernel, by decide +kernel, by decide +kernel, by decide +kernel⟩

/-- RDS v4, h3 at the PC, with the head aligned. -/
def sRds : State :=
  (sHead 7 7).modCore fun k => { k with istore := wrBytes [] 0 (leBytes 4 0xA480E000), lines := [(255 * 256 + 7, 0x55)] }

/-- WRS v4, h3 there. -/
def sWrs : State := sRds.modCore fun k => { k with istore := wrBytes [] 0 (leBytes 4 0xA404E800) }

/-- A copy command that runs, its next block b; one of the track kind. -/
def runCp (d : Vector Word 8) (b : Nat) : CpRun := ⟨0, mkCp d, b, none, [], [], false, false, none⟩
def trackRun : CpRun := runCp (cpFillCmd.set 0 (BitVec.ofNat 64 (7 + 5 * 2 ^ 8 + 8 * 2 ^ 32 + 2 ^ 48))) 0

theorem test_met_ShiftStoreEvents_B : (let s := sRds; let y := headAt s.ctx 3;
      s.ctx.phase = .running ∧ s.ctx.pending = none ∧ s.ctx.trapDue = none ∧ y.bnd = true ∧ alignedAt s (cur s 3) = true ∧ s.rings = [] ∧
      (bankAt s.core y.bank).track = (y.pos.toNat : Int) ∧ (bankAt s.core y.bank).spare = none ∧
      (bankAt s.core y.bank).failed = false ∧ (bankAt s.core y.bank).claims = [] ∧ s.Clean ∧ channelFree s = true ∧ Calm s) ∧
    ((match issueOf sRds with | (.run i, t) => decide (i = .rds 4 3 ∧ t = sRds) | _ => false) = true) ∧
    ((match issueOf sWrs with | (.run i, t) => decide (i = .wrs 4 3 ∧ t = sWrs) | _ => false) = true) ∧
    (gives (exec (.lineTransfer (.ctx 0)) sWrs) (fun t => decide (tget 0 t.core.lines (255 * 256 + 7) = 0 ∧
      (headAt (t.ctxAt 0) 3).pos = 8)) = true) ∧
    (gives (exec (.lineTransfer (.ctx 0)) sRds) (fun t => decide (vval (t.ctxAt 0) 4 = 0x55 ∧
      (headAt (t.ctxAt 0) 3).pos = 8)) = true) ∧
    (cpIsTrack trackRun.cmd.dw = true) ∧
    (([0, 1, 2, 3, 4, 5, 6, 7] : List Nat).find? (fun j => s1.core.spares.getLsbD j) = some 0 ∧ (bankAt s1.core 5).holder = none) ∧
    (gives (exec (.trackRemap 5) s1) (fun t => decide ((bankAt t.core 5).spare = some 0 ∧ t.core.spares = 0xFE)) = true) ∧
    (gives (exec (.trackRemap 5) (s1.modCore fun k => { k with spares := 0 })) (fun t => (bankAt t.core 5).failed) = true) :=
  ⟨by decide +kernel, by decide +kernel, by decide +kernel, by decide +kernel, by decide +kernel, by decide +kernel,
    by decide +kernel⟩

/-- An MMA of one K-step, format B by code; its run with n K-steps done. -/
def mmaCmd (b : Nat) : MxCmd := ⟨#v[BitVec.ofNat 64 (1 + b * 2 ^ 16 + 32 * 2 ^ 32), at_ 0, 64, 0, 0x8000, 0, 0, 0], 0, 0, 0, 0, 0, 0⟩
def mmaRun (b n : Nat) : MxRun := ⟨0, mmaCmd b, [], [], [], n, 0, none, [], none, none, 0, false⟩

/-- What runs at the matrix unit and at the copy engine, the governor letting g K-steps begin in a window. -/
def sRun (r : MxRun) : State := s1.modCore fun k => { k with mxrun := some r }
def sGov (g : BitVec 16) (r : MxRun) : State := (sRun r).modCore fun k => { k with mxgov := ⟨g, true, 7, 1⟩ }
def sCpRun (r : CpRun) : State := s1.modCore fun k => { k with cprun := some r }

/-- The engines of the core in focus run, no ring is in use, no word is struck. -/
def atWork (s : State) : Bool := decide (enginesRun s.core = true ∧ s.rings = [] ∧ s.Clean)

theorem test_met_EngineEvents_mma : (let s := s1.modCore fun k => { k with mxq := k.mxq.set 0 [mmaCmd 0] };
      atWork s = true ∧ s.core.mxrun = none ∧ mxPick s.govOn s.core = some (0, mmaCmd 0) ∧ isMma (mmaCmd 0).dw = true) ∧
    (let r := mmaRun 0 0; atWork (sGov 2 r) = true ∧ isMma r.cmd.dw = true ∧ isCodebook r.cmd.dw = false ∧
      r.steps < kSteps r.cmd.dw ∧ r.fetched = none ∧ govLets (sGov 2 r) = true ∧
      gives (exec .matrixCommandStart (sGov 2 r)) (fun t => decide (t.core.mxgov.begun = 2 ∧
        t.core.mxrun = some { r with fetched := some ([], []) })) = true ∧
      govLets (sGov 1 r) = false ∧ r.waited = false ∧
      gives (exec .matrixCommandStart (sGov 1 r)) (fun t => decide (t.core.mxgov.begun = 1 ∧ t.core.mxgov.stalled = 8 ∧
        t.core.mxrun = some { r with waited := true })) = true) ∧
    (let r := { mmaRun 0 0 with fetched := some ([(0, 1)], [(0, 2)]) }; atWork (sRun r) = true ∧ stepReady r = true ∧
      (tileCells (mxMode r.cmd.dw))[0]? = some (0, 0)) ∧
    (let r := mmaRun 0 1; atWork (sRun r) = true ∧ isMma r.cmd.dw = true ∧ kSteps r.cmd.dw ≤ r.steps ∧ mxCd r.cmd.dw = false) :=
  ⟨by decide +kernel, by decide +kernel, by decide +kernel, by decide +kernel⟩

/-- A codebook MMA waits for its first block's line: since core cycle 0, with n re-reads done. -/
def stallRun (n : Nat) : MxRun :=
  { mmaRun 5 0 with ahead := some (List.replicate 64 0), stall := some 0, reread := n, fetched := some ([], []) }
def sStall (n : Nat) (v : Byte) : State :=
  (sRun (stallRun n)).modCore fun k => { k with mem := if v = 0 then [] else [(0x8000, v)], cycles := if n = 0 then 16 else 65536 }

theorem test_met_EngineEvents_tables : (let r := { stallRun 0 with stall := none };
      atWork (sRun r) = true ∧ isCodebook r.cmd.dw = true ∧ r.steps < kSteps r.cmd.dw ∧ r.tables.length < 8 ∧
      r.stall = none ∧ r.ahead = some (List.replicate 64 0) ∧ lineValid (List.replicate 64 0) = false ∧
      gives (exec .matrixCommandStart (sRun r)) (fun t => decide (t.core.mxrun = some { r with stall := some 0, reread := 0 })) = true) ∧
    (∀ n ∈ [0, 4095], let s := sStall n 0; atWork s = true ∧ (stallRun n).stall = some 0 ∧ n < 4096 ∧
      0 + 16 * (n + 1) ≤ s.cyc ∧ (stallRun n).tables.length < 8 ∧ lineValid (tableLine s.core (stallRun n) 0) = false ∧
      gives (exec .tableReread s) (fun t => decide (t.core.mxrun.map MxRun.reread = some (n + 1))) = true) ∧
    (∀ n ∈ [0, 4095], let s := sStall n 5; lineValid (tableLine s.core (stallRun n) 0) = true ∧
      (stallRun n).fetched.isSome = true ∧
      gives (exec .tableReread s) (fun t => decide (t.core.mxrun.map (fun q => (q.tables.length, q.stall, q.tstall)) =
        some (1, none, 16 * (n + 1)))) = true) ∧
    (let s := sStall 4096 0; atWork s = true ∧ 4096 ≤ (stallRun 4096).reread ∧
      gives (exec .tableGiveUp s) (fun t => decide (t.records = [.error 1 251 0] ∧
        t.core.mxrun.map (fun q => (q.stall, q.tstall, q.tables.map fun n => bookEntry n 15)) = some (none, 65536, [0x7FC0]))) = true) :=
  ⟨by decide +kernel, by decide +kernel, by decide +kernel, by decide +kernel⟩

/-- A weight load of 64 bytes that runs. -/
def loadRun : MxRun := { mmaRun 0 0 with cmd := ⟨mxLoadCmd 0x100, 0, 0, 0, 0, 0, 0⟩ }

/-- The copy command COPY of 8 doublewords from offset 0x100 to 0x17FC0 of the own scratchpad. -/
def cpCopyCmd : Vector Word 8 :=
  #v[BitVec.ofNat 64 (1 + 3 * 2 ^ 8 + 8 * 2 ^ 32 + 2 ^ 48), at_ 0x100, at_ 0x17FC0, BitVec.ofNat 64 (8 + 8 * 2 ^ 32), 0, 0, 1, 0]

theorem test_met_EngineEvents_loads : (let s := (sRun loadRun).modCore fun k => { k with mem := [(0x13F, 9)] };
      atWork s = true ∧ mxKind loadRun.cmd.dw = 2 ∧ loadRun.steps = 0 ∧ mxCd loadRun.cmd.dw = false ∧
      64 * loadRun.steps < mxLen loadRun.cmd.dw ∧
      gives (exec .matrixCommandStart s) (fun t => decide (t.core.mxrun = some { loadRun with steps := 1 } ∧ t.core.wbuf = [(0x3F, 9)])) = true ∧
      gives (exec .matrixCommandComplete s) (fun t => decide (t.core.mxrun = none ∧ t.core.wbuf = [(0x3F, 9)])) = true) ∧
    ([(0xFFFFFF#24, 4#24), (4, 7), (7, 7)] : List (BitVec 24 × BitVec 24)).all (fun p =>
      gives (exec .bucketRefill (s1.modCore fun k => { k with mxbudget := ⟨5, 7, true, p.1⟩ })) fun t =>
        decide (t.core.mxbudget.bucket = p.2)) = true ∧
    (gives (exec .governorWindow (sGov 1 loadRun)) (fun t => decide (t.core.mxgov = ⟨1, true, 7, 0⟩)) = true) :=
  ⟨by decide +kernel, by decide +kernel, by decide +kernel⟩

theorem test_met_EngineEvents_copy : (let m := mkCp cpCopyCmd; let s := s1.modCore fun k => { k with cpq := k.cpq.set 0 [m] };
      enginesRun s.core = true ∧ s.core.cprun = none ∧ cpPick s.core = some (0, m) ∧
      gives (exec .copyCommandStart s) (fun t => decide (t.core.cprun.map CpRun.cmd = some m)) = true) ∧
    (let r := runCp cpCopyCmd 0; let s := (sCpRun r).modCore fun k => { k with mem := wrBytes [] 0x138 (leBytes 8 0x1122) };
      atWork s = true ∧ r.fault = none ∧ r.waits = [] ∧ r.block < cpBlocks r.cmd.dw ∧ cpFault 1 cpCopyCmd = none ∧
      cpKind cpCopyCmd = 1 ∧ cpPad cpCopyCmd = false ∧ cpGuarded cpCopyCmd = false ∧
      (∀ x ∈ cpElems cpCopyCmd 0, OwnAt (at_ (0x100 + 8 * x)) (0x100 + 8 * x) ∧ OwnAt (at_ (0x17FC0 + 8 * x)) (0x17FC0 + 8 * x) ∧
        srcAddr s.core cpCopyCmd x = some (at_ (0x100 + 8 * x)) ∧
        (match dstAddr s.core cpCopyCmd x with | .addr a => decide (a = at_ (0x17FC0 + 8 * x)) | _ => false) = true) ∧
      gives (exec .copyCommandStart s) (fun t => decide (t.core.cprun.map CpRun.block = some 1 ∧ t.core.cpdone[0] = 0 ∧
        rdNat t.core.mem 0x17FF8 8 = 0x1122 ∧ rdNat t.core.mem 0x17FC0 8 = 0)) = true) ∧
    (let r : CpRun := { runCp cpCopyCmd 0 with fault := some 64, got := [(0, 1)], checked := true };
      r.fault = some 64 ∧ r.waits = [] ∧
      gives (exec .copyFaultResume (sCpRun r)) (fun t => decide (t.core.cprun = some (runCp cpCopyCmd 0))) = true) ∧
    (let r := runCp cpCopyCmd 1; r.fault = none ∧ r.waits = [] ∧ cpBlocks r.cmd.dw ≤ r.block ∧ cpCd r.cmd.dw = false ∧
      enginesRun (sCpRun r).core = true ∧
      gives (exec .copyCommandComplete (sCpRun r)) (fun t => decide (t.core.cprun = none ∧ t.core.cpdone[0] = 1)) = true) :=
  ⟨by decide +kernel, by decide +kernel, by decide +kernel, by decide +kernel⟩

/-- A barrier of core 1 alone, whose member has arrived. -/
def sCame : State :=
  s1.setBar (barNo ⟨.quad, 0, 3⟩) { Barrier.reset with en := true, cmask := 1#3072 <<< memberOf 1, came := [1] }

/-- A launch of one task of entry 5 at the head of queue 7 of die 0. -/
def lOne : Launch := ⟨#v[5, 1, 0, 0, 0, 0, 0, 0], none, ⟨0, 0, false⟩, 0, 0, 0⟩
def sPrick : State := State.reset.modDie 0 fun y => setQueue y 7 { Queue.reset with en := true, recs := [lOne] }

theorem test_met_PackageEvents_A : (let n := barNo ⟨.quad, 0, 3⟩;
      (sCame.bar n).en = true ∧ allCame sCame n = true ∧ (sCame.bar n).held = false ∧ (sCame.bar n).told = false ∧
      barScope n ≠ 3 ∧ (sCame.bar n).exitb = false ∧
      gives (exec (.barrierCompletion ⟨.quad, 0, 3⟩) sCame) (fun t =>
        decide ((t.bar n).p = true ∧ (t.bar n).came = [] ∧ (t.bar n).en = true)) = true) ∧
    (let x : Start := ⟨2, msg1 0 5 0 0 (pay32 []), 0⟩;
      let s := s1.modDie 2 fun y => { y with starts := [x] };
      (s.die 2).incs = [] ∧ (s.die 2).starts = x :: []) ∧
    (let x : Start := ⟨2, msg1 0 5 0 0 (pay32 []), 0⟩;
      gives (exec (.startMessageSend 2) (s1.modDie 2 fun y => { y with starts := [x] })) (fun t =>
        decide ((t.die 2).starts = [] ∧ (t.die 2).msgCnt = nextId 0 ∧ t.net.map Packet.route = [⟨.core (supOf 2), .core 2⟩] ∧
          t.net.map Packet.eid = [s1.eids])) = true) ∧
    (let r : LaunchRef := ⟨0, 0, 0, none, false, false, []⟩;
      gives (exec .taskEndReport (s1.modCore fun k => { k with ends := [r] })) (fun t => decide (t.core.ends = [])) = true) ∧
    (s1.core.killed = false ∧ visible s1.coreId = true ∧
      gives (exec .coreKill s1) (fun t => decide (t.core.killed = true ∧ t.topoev = 1 ∧ t.count = 3068)) = true ∧
      (s1.modCore fun k => { k with killed := true }).core.killed = true) ∧
    (let s : State := { s1 with now := 2 ^ 17, rings := tput Ring.reset [] (portNo (.scratch 1)) { Ring.reset with replay := true } };
      (tget Ring.reset s.rings (portNo (.scratch 1))).replay = true ∧
      (tget Ring.reset s.rings (portNo (.scratch 1))).since + 2 ^ 17 ≤ s.now ∧
      gives (exec (.traceReplayTimeout (.scratch 1)) s) (fun t =>
        decide ((tget Ring.reset t.rings (portNo (.scratch 1))).lost = true ∧ t.records.length = 1)) = true) :=
  ⟨by decide +kernel, by decide +kernel, by decide +kernel, by decide +kernel, by decide +kernel, by decide +kernel⟩

theorem test_met_PackageEvents_prick : (2 : BitVec 2) ≠ 3 ∧ sPrick.stopped = false ∧ (sPrick.die 0).starts = [] ∧ (sPrick.die 0).placing = none ∧
    (pickQueue sPrick 0).map Prod.fst = some 7 ∧ (queueAt (sPrick.die 0) 7).recs = lOne :: [] ∧ placeHeld sPrick 0 7 = false := by decide +kernel

/-- A line of a weight load at the weight-buffer port of its core, whose ring logs: agent 5, a store (R349). -/
theorem test_ring_logs_matrix_unit :
    (let s : State := { sRun loadRun with rings := [(portNo (.weight s1.coreId), { Ring.reset with en := true })] };
      gives (exec .matrixCommandStart s) (fun t => decide (t.core.mxrun = some { loadRun with steps := 1 } ∧
        ((tget Ring.reset t.rings (portNo (.weight s1.coreId))).log.map fun e => (nfld e.toNat 0 19, nfld e.toNat 64 56)) = [(s.coreId.toNat + 5 * 2 ^ 12 + 2 ^ 15, mxWofs loadRun.cmd.dw)])) = true) := by
  decide +kernel

/-! Memory and translation: a page of 2^30 bytes at 0, read, write and execute, from the root table of die 0. -/

def sPage : State :=
  let s := s1.modDie 0 fun y => { y with roots := [(0, 0x1001)] }
  { s with dram := wrBytes (wrBytes [] 0x1000 (leBytes 8 0x2001)) 0x2000 (leBytes 8 0x1F), ftags := [(0, 0x3000000)]
           creds := [(7, some ⟨5, 0, 0⟩)], podcfg := 0x200 }

/-- A line no metadata code stands for. -/
def sLine : State := { s1 with dram := (List.range 16).map fun i => (8 * i + 7, BitVec.ofNat 8 (1 + i * i * 7)) }

theorem test_met_PackageEvents_B : (let bs : List Byte := List.replicate 64 7;
      0x17FFFFFFFC0 % 64 = 0 ∧ bs.length = 64 ∧ 0x17FFFFFFFC0 + 64 ≤ memTop ∧ s1.symErrs = [] ∧ s1.badWords = [] ∧
      gives (exec (.memoryLineWrite 0x17FFFFFFFC0 bs) { s1 with poison := [0x5FFFFFFFF] }) (fun t =>
        decide (rd8 t.dram 0x17FFFFFFFFF = 7 ∧ poisoned t 0x17FFFFFFFC0 = false)) = true) ∧
    (codewordAt 0 = .half 0 ∧ cwPoison sLine (.half 0) = false ∧ decodes (erasureOf sLine (cwRank (.half 0))) [0, 71] = true ∧
      gives (exec (.memoryLineRead 0 [0, 71]) sLine) (fun t =>
        decide (erasureOf t 0 = ⟨0, 1, 71⟩ ∧ cwErrs t (.half 0) = [0, 71] ∧ poisoned t 0 = false)) = true ∧
      gives (exec (.patrolScrub 0 [0, 71]) sLine) (fun t => decide (erasureOf t 0 = ⟨0, 1, 71⟩ ∧ t.symErrs = [] ∧ t.records = [])) = true) ∧
    (decodes (erasureOf sLine (cwRank (.half 0))) [0, 1, 2, 3, 4] = false ∧
      gives (exec (.memoryLineRead 0 [0, 1, 2, 3, 4]) sLine) (fun t => !(cwOk t (.half 0))) = true ∧
      gives (exec (.patrolScrub 0 [0, 1, 2, 3, 4]) sLine) (fun t => poisoned t 0 &&
        decide (t.records = [.error 0 368 0] ∧ t.symErrs = [])) = true) ∧
    (codewordAt memTop = .codes 0 0 ∧ cwPoison s1 (.codes 0 0) = false ∧ decodes (erasureOf s1 (cwRank (.codes 0 0))) [0, 1, 2, 3, 4] = false ∧
      gives (exec (.patrolScrub memTop [0, 1, 2, 3, 4]) s1) (fun t => decide (t.badWords = [.codes 0 0] ∧
        t.records = [.error 0 368 memTop])) = true) ∧
    (homeOf 8 = sPage.pkgNo ∧ sPage.rings = [] ∧ findLeaf sPage.core.tlb (ctxTag sPage.ctx) 8 = none ∧
      findLeaf (sPage.die (dieOf 1)).tcache (ctxTag sPage.ctx) 8 = none ∧
      walkRoot sPage (dieOf 1) (ctxTag sPage.ctx) 8 = .leaf ⟨0, 0, 30, 0, true, true, true, false⟩ ∧
      frameOk sPage (ctxTag sPage.ctx) (0 + 8 % 2 ^ 30) = true ∧
      gives (exec (.pageWalk 8 .read) sPage) (fun t => decide (t.core.tlb = [⟨0, 0, 30, 0, true, true, true, false⟩] ∧
        (t.die 0).tcache = [⟨0, 0, 30, 0, true, true, true, false⟩])) = true) :=
  ⟨by decide +kernel, by decide +kernel, by decide +kernel, by decide +kernel, by decide +kernel⟩

/-- The power controller changed. -/
def sPow (f : Power → Power) : State := { s1 with power := f s1.power, now := 80000000 }

theorem test_met_PowerEvents_A : (2 : BitVec 2) ≠ 3 ∧ frameCrcOk 0 = false ∧
    gives (exec .currentLimit s1) (fun t => decide (t.core.stretch = 1 ∧ t.core.clock = .stretched)) = true ∧
    gives (exec (.telemetryFrame 0) (s1.modPower fun p => { p with holdAt := some 3, restoreAt := some 3 })) (fun t =>
      decide (t.power.badFrames = 1 ∧ t.power.holdAt = some 3 ∧ t.power.restoreAt = none)) = true ∧
    gives (exec (.telemetryFrame 0xEDDBEDAA000303840000D2F00000C350) (s1.modPower fun p =>
      { p with fseq := some 3, holdAt := some 3, restoreAt := some 3 })) (fun t =>
      decide (t.power.lastFrame = 0 ∧ t.power.holdAt = some 3 ∧ t.power.restoreAt = none)) = true ∧
    gives (exec (.thermalTrip 2) s1) (fun t => (t.die 2).hot && decide (t.records.length = 1)) = true ∧
    frameCrcOk 0xEDDBEDAA000303840000D2F00000C350 = true ∧ s1.power.fseq ≠ some 3 ∧
    gives (exec (.telemetryFrame 0xEDDBEDAA000303840000D2F00000C350) s1) (fun t =>
      decide (t.power.fseq = some 3 ∧ t.power.headroom = 900 ∧ t.power.target = 2400)) = true ∧
    (let s := sPow id; s.power.lastFrame + 4000 * (40 + 20 * s.power.missed) < s.now ∧
      gives (exec .telemetryFrameMissing s) (fun t => decide (t.power.missed = 1)) = true ∧
      s.power.failsafe = false ∧ s.power.lastFrame + 800000 ≤ s.now ∧
      gives (exec .failsafeEntry s) (fun t => decide (t.power.failsafe = true ∧ t.power.tickAt = 80000000 ∧
        t.power.target = 2400)) = true) ∧
    (let s := sPow fun p => { p with failsafe := true }; s.power.failsafe = true ∧ s.power.tickAt + 80000 ≤ s.now ∧
      gives (exec .failsafeTick s) (fun t => decide (t.power.failsafe = true ∧ t.power.tickAt = 80000000 ∧
        t.power.target = 2400 ∧ t.power.restoreAt = none)) = true) := by decide +kernel

/-- The window closed after 80,000,000 ticks, of which core 1 issued for class 2 in the half; its energy is 4000 W per mille. -/
theorem test_windowClose : (let s := sPow fun p => { p with issued := [(1, (Vector.replicate 8 0).set 2 40000000)] };
      s.power.windowAt + 400000 ≤ s.now ∧
      gives (exec (.measuringWindowClose 5 [(1, 4000)] (Vector.replicate 48 1500)) s) (fun t => decide (t.power.shares.map Prod.fst = some 7 ∧
        shareOf t.power 2 = 2 ∧ shareOf t.power 3 = 0 ∧ t.power.windowAt = 80000000 ∧ t.power.issued = [] ∧
        t.power.regions[regionOf 1]? = some 5)) = true) := by decide +kernel

theorem test_met_PowerEvents_B : (let s := sPow fun p => { p with shed := 0x80 };
      isShed s.power 7 = true ∧ s.power.slowing.getLsbD 7 = false ∧ s.power.shedAt.toArray.getD 7 0 + 4000000 ≤ s.now ∧
      gives (exec (.classSlowdown 7) s) (fun t => decide (t.power.slowing = 0x80 ∧ t.power.shed = 0x80)) = true) ∧
    (let s := sPow fun p => { p with shed := 0xA0, slowing := 0xA0, restoreAt := some 0, lastFrame := 79900000 };
      frameMissing s = false ∧ lowestShed s.power = some 5 ∧ s.power.restoreAt = some 0 ∧ s.power.fwfail = false ∧ s.power.failsafe = false ∧
      0 + 80000000 ≤ s.now ∧ gives (exec .classRestore s) (fun t => decide (t.power.shed = 0x80 ∧ t.power.slowing = 0x80)) = true) ∧
    (let s := sPow fun p => { p with hwhold := 0xFF, holdAt := some 0, lastFrame := 79900000 };
      frameMissing s = false ∧ s.power.holdAt = some 0 ∧ s.power.hwhold ≠ 0 ∧ 0 + 80000000 ≤ s.now ∧
      gives (exec .hwholdClear s) (fun t => decide (t.power.hwhold = 0)) = true) ∧
    (let s := sPow id; s.power.fwfail = false ∧ s.power.kickAt + 40000000 ≤ s.now ∧
      gives (exec .firmwareWatchdogExpiry s) (fun t => t.power.fwfail && t.forced) = true ∧ s.power.updating = false ∧
      gives (exec .firmwareKick s) (fun t => decide (t.power.kickAt = s.now ∧ t.forced = false)) = true) ∧
    (let s := sPow fun p => { p with updating := true, fwfail := true };
      s.power.updating = true ∧
      gives (exec (.firmwareUpdate false) s) (fun t => decide (t.power.updating = false ∧ t.power.fwfail = false)) = true) ∧
    (powerBusy s1.power = false ∧ s1.power.idleFloor.toNat ≤ min (nfld 360 0 16) 2400 ∧
      floorSum s1.power.floors ≤ min (nfld 360 0 16) 2400 ∧
      gives (exec (.pcapWrite 360) s1) (fun t => decide (t.power.capReg = 360 ∧ t.power.status = 0)) = true ∧
      nfld 359 0 16 < s1.power.idleFloor.toNat ∧
      gives (exec (.pcapWrite 359) s1) (fun t => decide (t.power.capReg = 2400 ∧ t.power.status = 1)) = true ∧
      powerBusy { s1.power with updating := true } = true ∧
      gives (exec (.classfloorWrite 0) (s1.modPower fun p => { p with updating := true })) (fun t => decide (t.power.status = 4)) = true) ∧
    (((List.range 8).map fun i => nfld (2400 : BitVec 128).toNat (16 * i) 16).sum ≤ s1.power.capForce.toNat ∧
      gives (exec (.classfloorWrite 2400) s1) (fun t => decide (t.power.floors[0] = 2400)) = true) :=
  ⟨by decide +kernel, by decide +kernel, by decide +kernel, by decide +kernel, by decide +kernel, by decide +kernel,
    by decide +kernel⟩

/-- The droop curve of 16 points 0 to 15. -/
def curve15 : BitVec 1024 := BitVec.ofNat 1024 ((List.range 16).foldr (fun i a => (i + i * 2 ^ 32) * 2 ^ (64 * i) + a) 0)

theorem test_met_PowerEvents_C : curveOk (curveOf curve15) = true ∧
    gives (exec (.vcurveWrite curve15) s1) (fun t => decide (t.power.vcurve = curveOf curve15 ∧ t.power.status = 0)) = true := by decide +kernel

/-- A request of endpoint 5. -/
def hReq (op arg len : Nat) (data : List Byte) : HostReq :=
  ⟨5, BitVec.ofNat 128 (op + len * 2 ^ 16 + arg * 2 ^ 64), data, .ordered, .send⟩

/-- What answers a request: OP, status, LEN, ARG, with data. -/
def answered (op arg st : Nat) (data : List Byte) (t : State) : Bool :=
  decide (t.responses = [⟨5, BitVec.ofNat 128 (op + st * 2 ^ 8 + data.length * 2 ^ 16 + arg * 2 ^ 64), data⟩])

/-- The 8 physical addresses from a. -/
def eight (a : Nat) : List Nat := (List.range 8).map fun i => a + i

theorem test_met_HostOperations_drop : credOf s1 5 = none ∧
    gives (exec (.load (hReq 1 8 8 [])) s1) (fun t => decide (t.podDrop = 1 ∧ t.responses = [])) = true ∧
    gives (exec (.regWrite (hReq 8 8 8 (leBytes 8 1))) { s1 with podDrop := 0xFFFFFFFF }) (fun t =>
      decide (t.podDrop = 0xFFFFFFFF ∧ t.podcfg = 0)) = true ∧
    (∀ q ∈ [{ hReq 1 8 8 [] with service := .unreliable }, { hReq 1 8 8 [] with sem := .other }, { hReq 1 8 8 [] with sem := .write },
        { hReq 2 8 8 [] with sem := .read }, { hReq 4 8 8 [] with service := .unordered }], carried q = false) ∧
    (∀ q ∈ [hReq 1 8 1025 [], hReq (1 + 2 ^ 31) 8 8 [], hReq (1 + 2 ^ 8) 8 8 []], credOf sPage 5 = some ⟨5, 0, 0⟩ ∧ carried q = true ∧
      (nfld q.hdr.toNat 27 5 ≠ 0 ∨ nfld q.hdr.toNat 8 8 ≠ 0 ∨ 1024 < qLen q) ∧
      gives (exec (.load q) sPage) (fun t => decide (t.responses.map (fun r => nfld r.hdr.toNat 8 8) = [8])) = true) := by
  decide +kernel

theorem test_met_HostOperations_A : credOf sPage 5 = some ⟨5, 0, 0⟩ ∧ sPage.rings = [] ∧ homeOf 8 = sPage.pkgNo ∧
    (let q := hReq 1 0x1000 8 []; carried q = true ∧ nfld q.hdr.toNat 27 5 = 0 ∧ nfld q.hdr.toNat 8 8 = 0 ∧ qLen q ≤ 1024 ∧ qOp q = 1 ∧
      qArg q % 8 = 0 ∧ qLen q % 8 = 0 ∧ qArg q / 2 ^ 56 = 0 ∧
      (rangeXlate sPage (credTag ⟨5, 0, 0⟩) .read (qArg q) (qLen q)).1 = .inl (eight 0x1000) ∧
      chanRead sPage (eight 0x1000) = some (leBytes 8 0x2001) ∧
      gives (exec (.load q) sPage) (answered 1 0x1000 0 (leBytes 8 0x2001)) = true) ∧
    (let q := hReq 1 0x3000 8 []; let s := { sPage with poison := [0xC0] };
      (rangeXlate s (credTag ⟨5, 0, 0⟩) .read (qArg q) (qLen q)).1 = .inl (eight 0x3000) ∧
      chanRead (rangeXlate s (credTag ⟨5, 0, 0⟩) .read (qArg q) (qLen q)).2 (eight 0x3000) = none ∧
      gives (exec (.load q) s) (answered 1 0x3000 11 []) = true) ∧
    (let q := hReq 1 0x40000000 8 [];
      (match (rangeXlate sPage (credTag ⟨5, 0, 0⟩) .read (qArg q) (qLen q)).1 with | .inr e => decide (e ≠ .held) | _ => false) = true ∧
      gives (exec (.load q) sPage) (fun t => answered 1 0x40000000 10 [] t && decide (t.records = [.error 0 398 0x40000000])) = true) ∧
    (let q := hReq 1 (2 ^ 47) 8 []; qArg q / 2 ^ 56 = 0 ∧ homeOf (qArg q) ≠ sPage.pkgNo ∧
      gives (exec (.load q) sPage) (answered 1 (2 ^ 47) 9 []) = true) ∧
    (let q := hReq 2 8 8 (leBytes 8 9); carried q = true ∧ qOp q = 2 ∧ q.data.length = qLen q ∧
      (rangeXlate sPage (credTag ⟨5, 0, 0⟩) .write (qArg q) (qLen q)).1 = .inl (eight 8) ∧
      gives (exec (.store q) sPage) (fun t => answered 2 8 0 [] t && decide (rdNat t.dram 8 8 = 9)) = true) := by decide +kernel

theorem test_met_HostOperations_B :
    (let q := hReq 3 0x1000 24 (leBytes 8 1 ++ leBytes 8 0 ++ leBytes 8 16);
      carried q = true ∧ qOp q = 3 ∧ q.data.length = 24 ∧ qLen q = 24 ∧ qArg q % sizeBytes .d = 0 ∧
      (rangeXlate sPage (credTag ⟨5, 0, 0⟩) .atomic (qArg q) 8).1 = .inl (eight 0x1000) ∧
      (outsideAtomic sPage (eight 0x1000) 0 .d 1 0).map Prod.snd = some 0x2001 ∧
      gives (exec (.atomic q) sPage) (fun t => answered 3 0x1000 0 (leBytes 8 0x2001) t &&
        decide (rdNat t.dram 0x1000 8 = 0x2002)) = true) ∧
    (let q := hReq 5 0x1000 8 (leBytes 8 7 ++ leBytes 8 0xFF);
      carried q = true ∧ qOp q = 5 ∧ q.data.length = 8 + qLen q ∧ nfld (leNat (q.data.take 8)) 0 4 = 7 ∧ qLen q % 8 = 0 ∧
      gives (exec (.accumulate q) sPage) (fun t => answered 5 0x1000 0 [] t &&
        decide (rdNat t.dram 0x1000 8 = 0x20FE)) = true) ∧
    (let q := hReq 4 7 64 launch64; carried q = true ∧ qOp q = 4 ∧ q.data.length = 64 ∧ qLen q = 64 ∧
      gives (exec (.launchAppend q) (sPage.modDie 0 fun y => setQueue y 7 { Queue.reset with en := true })) (fun t =>
        answered 4 7 0 [] t && decide ((queueAt (t.die 0) 7).recs.length = 1)) = true) ∧
    (let q := hReq 7 1 0 []; carried q = true ∧ qOp q = 7 ∧ q.data = [] ∧ (regValue sPage 1 0 0).isSome = true ∧
      gives (exec (.regRead q) sPage) (fun t => decide (t.responses.length = 1)) = true) :=
  ⟨by decide +kernel, by decide +kernel, by decide +kernel, by decide +kernel⟩

/-- A register write of a host is answered with a status; g: what it leaves in the power controller. -/
def wrote (mk : HostReq → Instr) (f : Power → Power) (reg len : Nat) (data : List Byte) (st : Nat) (g : Power → Bool) : Bool :=
  gives (exec (mk (hReq 8 reg len data)) (sPage.modPower f)) fun t => answered 8 reg st [] t && g t.power

/-- A curve whose deviations do not rise. -/
def curveBad : List Byte := List.replicate 128 0

/-- Each status that R379 gives a write, for each register. -/
theorem test_met_HostOperations_writes :
    wrote .regWrite id 0 8 (leBytes 8 400) 0 (fun p => decide (p.capReg = 400)) = true ∧
    wrote .regWrite id 0 8 (leBytes 8 359) 1 (fun p => decide (p.capReg = 2400)) = true ∧
    wrote .regWrite (fun p => { p with floors := Vector.replicate 8 100 }) 0 8 (leBytes 8 799) 2 (fun p => decide (p.capReg = 2400)) = true ∧
    wrote .regWrite id 1 8 (leBytes 8 1) 8 (fun _ => true) = true ∧ wrote .regWrite id 9 8 (leBytes 8 1) 8 (fun _ => true) = true ∧
    wrote .regWrite id 2 16 (leBytes 16 2401) 2 (fun p => decide (p.floors[0] = 0)) = true ∧
    wrote .regWrite id 2 16 (leBytes 16 2400) 0 (fun p => decide (p.floors[0] = 2400)) = true ∧
    wrote .regWrite id 3 8 (leBytes 8 5) 0 (fun p => decide (p.nomv = 5)) = true ∧
    wrote .regWrite id 4 8 (leBytes 8 5) 0 (fun p => decide (p.nomf = 5)) = true ∧
    wrote .regWrite id 5 8 (leBytes 8 5) 0 (fun p => decide (p.vfloor = 5)) = true ∧
    wrote .regWrite id 6 128 curveBad 3 (fun p => decide (p.vcurve = curveReset)) = true ∧
    wrote .regWrite id 7 128 (leBytes 128 curve15.toNat) 0 (fun p => decide (p.fcurve = curveOf curve15)) = true ∧
    wrote .regWrite (fun p => { p with updating := true }) 0 8 (leBytes 8 400) 4 (fun p => decide (p.capReg = 2400)) = true ∧
    wrote .regWrite (fun p => { p with updating := true }) 2 16 (leBytes 16 0) 4 (fun _ => true) = true ∧
    wrote .regWrite (fun p => { p with updating := true }) 7 128 curveBad 4 (fun _ => true) = true ∧
    gives (exec (.regWrite (hReq 8 8 8 (leBytes 8 0x3FF))) sPage) (fun t => answered 8 8 0 [] t && decide (t.podcfg = 0x3FF)) = true := by
  decide +kernel

/-- Pod barrier 3 of packages 0, 1 and 2, of which this is number p. -/
def sPod (p : BitVec 10) (b : Barrier → Barrier) : State :=
  { sPage.setBar (podBarNo 3) (b { Barrier.reset with en := true, pmask := 7 }) with podcfg := 0x200 ||| p }

theorem test_met_PodEvents_A : (let s := sPod 0 id; let b := s.bar (podBarNo 3);
      s.podEn = true ∧ s.rings = [] ∧ b.en = true ∧ b.pmask.getLsbD 2 = true ∧ b.podCame.contains 2 = false ∧ (2 : BitVec 9) ≠ s.pkgNo ∧
      (podPkgs b).head? = some s.pkgNo ∧ (∃ o ∈ podPkgs b, o ≠ 2 ∧ b.podCame.contains o = false)) ∧
    (gives (exec (.podBarrierArrival 3 2 5) (sPod 0 id)) (fun t => decide ((t.bar (podBarNo 3)).podCame = [2])) = true) ∧
    (let s := sPod 0 fun b => { b with podCame := [0, 1], came := [1] }; let b := s.bar (podBarNo 3);
      b.podCame.contains 2 = false ∧ (∀ o ∈ podPkgs b, o = 2 ∨ b.podCame.contains o = true) ∧ b.exitb = false ∧
      gives (exec (.podBarrierArrival 3 2 5) s) (fun t => decide ((t.bar (podBarNo 3)).p = true ∧ (t.bar (podBarNo 3)).podCame = [] ∧
        t.podOut = [podBarrier 3 0 1 0 true, podBarrier 3 0 2 0 true])) = true) ∧
    (let s := sPod 1 fun b => { b with told := true }; let b := s.bar (podBarNo 3);
      s.podEn = true ∧ b.en = true ∧ b.told = true ∧ (podPkgs b).head? ≠ some s.pkgNo ∧ b.exitb = false) ∧
    (gives (exec (.podBarrierCompletion 3 5) (sPod 1 fun b => { b with told := true })) (fun t =>
      decide ((t.bar (podBarNo 3)).p = true ∧ (t.bar (podBarNo 3)).told = false)) = true) :=
  ⟨by decide +kernel, by decide +kernel, by decide +kernel, by decide +kernel, by decide +kernel⟩

/-- A load of two bytes of package 1 that context 0 awaits, the third and fourth of their doubleword. -/
def sAway : State :=
  { (sPage.modCtxAt 0 lateLoad) with
    podOut := [.access 0 1 0 40 (2 ^ 47 + 2) ⟨0, 0, false⟩ 1 (.load [2 ^ 47 + 2, 2 ^ 47 + 3]) false] }

/-- The addresses and the bytes of the first doubleword of sPage's page; a request of package 1 with TAG 7. -/
def at8 : List Nat := (List.range 8).map fun i => 0x1000 + i
def read8 : List Byte := at8.map (rd8 sPage.dram)
def podAsk (va : Word) (op : PodOp) : PodAccess := .request ⟨1, 5, 0, 0, false⟩ 7 va op

theorem test_met_PodEvents_B : (sPage.podEn = true ∧ sPage.rings = [] ∧ homeOf (0x1000 : Word).toNat = sPage.pkgNo ∧
      (∀ acc ∈ [Access.read, .fetch, .write], (rangeXlate sPage ⟨0, 0, false⟩ acc 0x1000 8).1 = .inl at8) ∧
      chanRead (rangeXlate sPage ⟨0, 0, false⟩ .read 0x1000 8).2 at8 = some read8) ∧
    (∀ op ∈ [PodOp.read 8, .fetch 8], gives (exec (.podRemoteAccess <| podAsk 0x1000 op) sPage) (fun t =>
      decide (t.podOut = [.reply (some 0x00000000000010000000000700080001) 1 (.data read8)])) = true) ∧
    (gives (exec (.podRemoteAccess <| podAsk 0x1000 (.write [9, 8, 7, 6, 5, 4, 3, 2])) sPage) (fun t =>
      decide (t.podOut = [.reply (some 0x00000000000010000000000700000002) 1 (.data [])] ∧ rdNat t.dram 0x1000 2 = 0x0809)) = true) ∧
    (gives (exec (.podRemoteAccess <| podAsk 0x1000 (.read 4)) sPage) (fun t =>
      decide (t.podOut = [.reply (some 0x00000000000010000000000700000801) 1 (.access false)])) = true ∧
      homeOf (0x800000000000 : Word).toNat ≠ sPage.pkgNo ∧ gives (exec (.podRemoteAccess <| podAsk 0x800000000000 (.read 8)) sPage) (fun t =>
        decide (t.podOut = [.reply (some 0x00008000000000000000000700000901) 1 (.access false)])) = true) ∧
    (let s := { sPage with ftags := [(0, 0x1070000)] };
      (match (rangeXlate s ⟨0, 0, false⟩ .read 0x1000 8).1 with | .inr e => decide (e = .stale) | _ => false) = true ∧
      gives (exec (.podRemoteAccess <| podAsk 0x1000 (.read 8)) s) (fun t =>
        decide (t.podOut = [.reply (some 0x00000000000010000000000700000A01) 1 .staleGen] ∧ t.records = [.error 0 398 0x1000])) = true) ∧
    (let s := sAway; s.podEn = true ∧ s.rings = [] ∧ (takeAway s.coreId 0 1 s.podOut).map Prod.snd = some [] ∧ s.core.killed = false ∧
      s.core.cprun = none ∧ (s.die (dieOf s.coreId)).incs.contains 40 = false ∧
      exitBar (s.ctxAt 0) = none ∧ (s.ctxAt 0).pending = some ⟨40, List.replicate 2 none, List.range 2, [], .g 5 true⟩) ∧
    ((List.range 2).map (fun j => 2 ^ 47 + 2 + j) = [2 ^ 47 + 2, 2 ^ 47 + 3] ∧ (2 ^ 47 + 2) % 8 + 2 ≤ 8) ∧
    (gives (exec (.podRemoteAccess (.answer 1 0 1 (.data [1, 2, 0xFE, 0xFF, 3, 4, 5, 6]))) sAway) (fun t => decide (t.podOut = [] ∧
      (t.ctxAt 0).pending = none ∧ (t.ctxAt 0).pc = 0xFF00000001000004 ∧ gval (t.ctxAt 0) 5 = 0xFFFFFFFFFFFFFFFE)) = true) ∧
    gives (exec (.podRemoteAccess .unsupported) s1) (fun t => decide (t.podDrop = 1)) = true :=
  ⟨by decide +kernel, by decide +kernel, by decide +kernel, by decide +kernel, by decide +kernel, by decide +kernel,
    by decide +kernel, by decide +kernel, by decide +kernel⟩

/-- A completion that replay holds back at a package stays until its write of RESADDR may be made (R350). -/
theorem test_pod_completion_waits :
    let s : State := { (sPod 1 fun b => { b with told := true }) with
      reds := [(3, { PodRed.reset with lt := 7, res := 0x1100 })]
      rings := [(portNo (.chan 17), { Ring.reset with replay := true, log := [1], left := 1 })] }
    gives (exec (.podBarrierCompletion 3 5) s) (fun t => decide ((t.bar (podBarNo 3)).p = false ∧
      (t.red 3).acc = some 5) && podDue t (podBarNo 3)) = true := by decide +kernel

/-- g6 holds an address of sPage's page, or of a word of it with a task's scope of a package. -/
def sFab (va : Word) : State := (sPage.setG 6 va).setG 5 0x0807060504030201

/-- A line of the buffer with the first byte of 0x1000 written. -/
def line0 : GLine := ⟨0x1000, 0x1000, none, some (9, 0) :: List.replicate 63 none, ⟨0, 0, false⟩, (0, 0), 0, none⟩

theorem test_met_RemoteLoadsAndStores_B :
    (let s := (sFab 0x1000).modCore fun k => { k with gather := [line0] }
     let u := (translate s (ctxTag s.ctx) s.ctx.stacklimit .read 0x1000 8).2
     (ea s 0#16).toNat % 8 = 0 ∧ classify (ea s 0#16) = .fabric 0x1000 ∧
       (translate s (ctxTag s.ctx) s.ctx.stacklimit .read 0x1000 8).1 = .ok 0x1000 ∧ u.rings = [] ∧ u.symErrs = [] ∧
       chanCut u 0x1000 = false ∧ frameOk u (ctxTag s.ctx) 0x1000 = true ∧ (∀ k, k < 8 → readable u (0x1000 + k) = true) ∧
       gives (exec (.ld 5 6 0) s) (fun t => decide (t.gr 5 = 0x2009 ∧ t.grc 5 = 63)) = true) ∧
    (let s := sFab 0x1038
     (translate s (ctxTag s.ctx) s.ctx.stacklimit .write 0x1038 8).1 = .ok 0x1038 ∧ 0x1038 % 64 = 0x1038 % 64 ∧ s.ctx.storing = none ∧
       s.core.gather = [] ∧ gives (exec (.sd 5 6 0) s) (fun t => decide (t.core.gather.map GLine.bytes =
         [List.replicate 56 none ++ [1, 2, 3, 4, 5, 6, 7, 8].map fun b => some (b, 0)] ∧ t.ctx.committed = true)) = true) ∧
    (let s := (sFab 0x1000).modCore fun k => { k with gather := [line0] }
     fullLine line0 = false ∧ openAt ⟨none, ctxTag s.ctx, 0x1000, 0x1000⟩ line0 = true ∧
       gives (exec (.sb 5 6 0) s) (fun t => decide (t.core.gather.map GLine.bytes =
         [some (1, 0) :: List.replicate 63 none])) = true) ∧
    (let s := sFab 0x1000
     (fenceW s).2 = true ∧ (s.gr 6).toNat % sizeBytes .d = 0 ∧ hoopUsed (fenceW s).1.ctx + 32 ≤ 2048 ∧
       (translate (fenceW s).1 (ctxTag s.ctx) s.ctx.stacklimit .atomic 0x1000 8).1 = .ok 0x1000 ∧
       gives (exec (.acas 5 6 7 .pkg .rel .d) s) (fun t => decide (t.ctx.chunks.length = 1 ∧ t.ctx.stall = some .other)) = true) ∧
    (let s := sFar true
     classify (s.gr 6) = .remote 2 0x17FF8 ∧ scopeCore s.coreId 2 .die = true ∧ inReach s.coreId s.ctx 2 = true ∧
       scopeCore s.coreId 2 .core = false ∧ (fenceW (s.modCtx fun x => { x with hoop := [eff1] })).2 = false) :=
  ⟨by decide +kernel, by decide +kernel, by decide +kernel, by decide +kernel, by decide +kernel⟩

/-! ### Single steps -/

/-- What FADD, FSUB and so on of one format leave in g5: the bits and the count. -/
def res5 (i : Instr) (s : State) (w : Word) (c : Count) : Bool :=
  gives (exec i s) fun t => decide (t.gr 5 = w ∧ t.grc 5 = c ∧ t.ctx.pc = s.ctx.pc + 4)

/-- g6, g7 and g8 with their counts. -/
def fops (x : Word) (cx : Count) (y : Word) (cy : Count) (z : Word) (cz : Count) : State :=
  ((s1.setGC 6 x cx).setGC 7 y cy).setGC 8 z cz

/-- The worked cases of counts, 03 (1 + 2^-52, 1.5, 1024.0, 0.1, 3.0, 2.5 as f64; the FMA and the small product as f32). -/
theorem test_countsOfTheWorkedCases :
    res5 (.fsub 5 6 7 .f64 .rne) (fops 0x3FF0000000000001 63 0x3FF0000000000000 63 0 63) 0x3CB0000000000000 1 = true ∧
    res5 (.fsub 5 6 7 .f64 .rne) (fops 0x3FF8000000000000 53 0x3FF4000000000000 53 0 63) 0x3FD0000000000000 51 = true ∧
    gives (exec (.fadd 5 6 7 .f64 .rne) (fops 0x4090000000000000 10 0x3FB999999999999A 63 0 63)) (fun t => decide (t.grc 5 = 10)) = true ∧
    res5 (.fadd 5 6 7 .f64 .rne) (fops 0x4008000000000000 53 0xC008000000000000 53 0 63) 0 0 = true ∧
    res5 (.fadd 5 6 7 .f64 .rne) (fops 0 63 0x4004000000000000 20 0 63) 0x4004000000000000 20 = true ∧
    gives (exec (.fmul 5 6 7 .f64 .rne) (fops 0x4008000000000000 30 0x4008000000000000 40 0 63)) (fun t => decide (t.grc 5 = 29)) = true ∧
    gives (exec (.fmul 5 6 7 .f64 .rne) (fops 0x4008000000000000 63 0x4008000000000000 12 0 63)) (fun t => decide (t.grc 5 = 12)) = true ∧
    gives (exec (.fsqrt 5 6 .f64 .rne) (fops 0x4008000000000000 12 0 63 0 63)) (fun t => decide (t.grc 5 = 13)) = true ∧
    res5 (.fma 5 6 7 8 .f32 .rne) (fops 0x40400000 63 0x40A00000 63 0xC1600000 63) 0x3F800000 21 = true ∧
    gives (exec (.fcvtp 5 6 .f32 .rne) (fops 0x4008000000000000 40 0 63 0 63)) (fun t => decide (t.grc 5 = 24)) = true ∧
    res5 (.fmul 5 6 7 .f32 .rne) (fops 0x1A000000 63 0x1B400000 63 0 63) 3 2 = true := by decide +kernel

/-- R112: the class words of -0.375 and of the least f64 subnormal. -/
theorem test_fclass : res5 (.fclass 5 6 .f64) (fops 0xBFD8000000000000 63 0 63 0 63) 0xFFFE000A 63 = true ∧
    res5 (.fclass 5 6 .f64) (fops 1 63 0 63 0 63) 0xFBCE0001 63 = true := by decide +kernel

/-- What VCVT of f32 to bf16 in lane 0 of v4 leaves; the context's random state is u. -/
def cvt0 (i : Instr) (u : BitVec 32) (w : VWord) (x : Nat) : Bool :=
  gives (exec i (s1.modCtx fun y => { y with v := y.v.set 4 w, lfsr := u })) fun t => decide (laneNat (t.vr 3) 16 0 = x)

/-- The worked conversions, 03: 1 + 3 * 2^-9, the tie 1 + 2^-8, and the negative; SR from the state 1; 500.0 to e4m3. -/
theorem test_workedConversions :
    ([(.rne, 0x3F81), (.rtz, 0x3F80), (.rdn, 0x3F80), (.rup, 0x3F81), (.rna, 0x3F81), (.sr, 0x3F81)] : List (Rnd × Nat)).all
      (fun p => cvt0 (.vcvt ⟨3, 4, 0, false⟩ .f32 .bf16 p.1) 1 0x3F80C000 p.2) = true ∧
    ([(.rne, 0x3F80), (.rtz, 0x3F80), (.rdn, 0x3F80), (.rup, 0x3F81), (.rna, 0x3F81)] : List (Rnd × Nat)).all
      (fun p => cvt0 (.vcvt ⟨3, 4, 0, false⟩ .f32 .bf16 p.1) 1 0x3F808000 p.2) = true ∧
    ([(.rne, 0xBF81), (.rtz, 0xBF80), (.rdn, 0xBF81), (.rup, 0xBF80), (.rna, 0xBF81)] : List (Rnd × Nat)).all
      (fun p => cvt0 (.vcvt ⟨3, 4, 0, false⟩ .f32 .bf16 p.1) 1 0xBF80C000 p.2) = true ∧
    cvt0 (.vcvt ⟨3, 4, 0, false⟩ .f32 .e4m3 .rne) 1 0x43FA0000 0x007F = true ∧
    cvt0 (.vcvts ⟨3, 4, 0, false⟩ .f32 .e4m3 .rne) 1 0x43FA0000 0x007E = true ∧ lfsrNext 1 = 3 := by decide +kernel

/-- g6 = x and g7 = y; g5 afterwards. -/
def int5 (i : Instr) (x y w : Word) : Bool := gives (exec i (sxy x y)) fun t => decide (t.gr 5 = w ∧ t.grc 5 = 63)

/-- By hand from R94 to R98: wraps, shift counts mod 64, high products by sign, the quotient that does not fit. -/
theorem test_integerForms : int5 (.add 5 6 7) 0xFFFFFFFFFFFFFFFF 1 0 = true ∧ int5 (.sll 5 6 7) 1 65 2 = true ∧
    int5 (.sra 5 6 7) 0x8000000000000000 63 0xFFFFFFFFFFFFFFFF = true ∧ int5 (.ror 5 6 7) 1 1 0x8000000000000000 = true ∧
    int5 (.sltu 5 6 7) 1 0xFFFFFFFFFFFFFFFF 1 = true ∧ int5 (.slt 5 6 7) 1 0xFFFFFFFFFFFFFFFF 0 = true ∧
    int5 (.mulhi 5 6 7) 0xFFFFFFFFFFFFFFFF 2 0xFFFFFFFFFFFFFFFF = true ∧ int5 (.mulhin 5 6 7) 0xFFFFFFFFFFFFFFFF 2 1 = true ∧
    int5 (.mulhix 5 6 7) 2 0xFFFFFFFFFFFFFFFF 1 = true ∧ int5 (.quo 5 6 7) 0x8000000000000000 0xFFFFFFFFFFFFFFFF 0x7FFFFFFFFFFFFFFF = true ∧
    int5 (.rmd 5 6 7) 0xFFFFFFFFFFFFFFF9 2 0xFFFFFFFFFFFFFFFF = true ∧ int5 (.quon 5 6 7) 7 0 0xFFFFFFFFFFFFFFFF = true ∧
    int5 (.clz 5 6) 0 0 64 = true ∧ int5 (.ctz 5 6) 8 0 3 = true ∧ int5 (.popc 5 6) 0xFF01 0 9 = true ∧
    int5 (.bswap 5 6) 0x0102030405060708 0 0x0807060504030201 = true ∧ int5 (.sexth 5 6) 0x8000 0 0xFFFFFFFFFFFF8000 = true ∧
    int5 (.sltiu 5 6 0xFFFF) 5 0 1 = true ∧ int5 (.liz 5 3 0x8001) 0 0 0x8001000000000000 = true := by decide +kernel

/-- By hand from R99 to R104. -/
theorem test_branches : gives (exec (.bltu 6 7 0xFFFF) (sxy 1 2)) (fun t => decide (t.ctx.pc = 0xFF00000000FFFFFC)) = true ∧
    gives (exec (.blt 6 7 0xFFFF) (sxy 1 0xFFFFFFFFFFFFFFFF)) (fun t => decide (t.ctx.pc = 0xFF00000001000004)) = true ∧
    gives (exec (.jalr 6 6 4) (sxy 0x1000 0)) (fun t => decide (t.ctx.pc = 0x1004 ∧ t.gr 6 = 0xFF00000001000004)) = true ∧
    gives (exec (.bsig 6 20 2) (s1.setGC 6 1 19)) (fun t => decide (t.ctx.pc = 0xFF00000001000008)) = true ∧
    gives (exec (.bsig 6 20 2) (s1.setGC 6 1 20)) (fun t => decide (t.ctx.pc = 0xFF00000001000004)) = true := by decide +kernel

/-- Bytes 81 02 03 04 05 06 07 88 stand at 0x100, whose address is in g6 (R107, R117, R151). -/
theorem test_loadsAndStores : gives (exec (.lb 5 6 0) s2) (fun t => decide (t.gr 5 = 0xFFFFFFFFFFFFFF81)) = true ∧
    gives (exec (.lhu 5 6 6) s2) (fun t => decide (t.gr 5 = 0x8807)) = true ∧
    gives (exec (.lw 5 6 4) s2) (fun t => decide (t.gr 5 = 0xFFFFFFFF88070605)) = true ∧
    gives (exec (.sh 6 6 2) s2) (fun t => decide (rdNat t.core.mem 0x100 8 = 0x8807060501000281)) = true ∧
    gives (exec (.aadd 5 6 7 .core .rlx .w) (s2.setG 7 0xFFFFFFFF)) (fun t =>
      decide (t.gr 5 = 0x04030281 ∧ rdNat t.core.mem 0x100 4 = 0x04030280)) = true ∧
    gives (exec (.amin 5 6 7 .core .rlx .d) (s2.setG 7 1)) (fun t => decide (rdNat t.core.mem 0x100 8 = 0x8807060504030281)) = true ∧
    gives (exec (.ld 5 6 4) s2) (fun t => decide (t.ctx.phase = .ending ∧ t.records.length = 1)) = true := by decide +kernel

/-- v4 and v5 hold x and y in their low lanes; the low lanes of v3 after. -/
def vec3 (i : Instr) (x y : VWord) (n : Nat) (w : Nat) : Bool :=
  gives (exec i (s1.modCtx fun c => { c with v := (c.v.set 4 x).set 5 y })) fun t => decide ((t.vr 3).toNat % 2 ^ n = w)

/-- By hand from R123, R130 to R134. -/
theorem test_vectorForms : vec3 (.vadd ⟨3, 4, 5, false, 0, false⟩ .w8) 0x00FF 0x0101 16 0x0100 = true ∧
    vec3 (.vmulh ⟨3, 4, 5, false, 0, false⟩ .w16) 0xFFFF8000 0x00028000 32 0xFFFF4000 = true ∧
    vec3 (.vadds ⟨3, 4, 5, false, 0, false⟩ .w16) 0x80007FFF 0xFFFF0001 32 0x80007FFF = true ∧
    vec3 (.vlt ⟨3, 4, 5, false, 0, false⟩ .w8) 0x01FF 0x0100 512 2 = false ∧
    vec3 (.vltu ⟨3, 4, 5, false, 0, false⟩ .w8) 0x00FF 0x0100 512 2 = true ∧
    vec3 (.vslideup ⟨3, 4, 0, false⟩ 0 .w16) 0xBEEF 0 512 0xBEEF = true ∧
    vec3 (.vperm ⟨3, 4, 0, false⟩ 5 .w16) 0x000300020001 0x20 32 0x00010000 = true ∧
    vec3 (.vfadd ⟨3, 4, 5, false, 0, false⟩ .f32) 0x3F80000040000000 0x3F80000040000000 64 0x4000000040800000 = true ∧
    vec3 (.mand 3 4 5 false .w64) 0x1FF 0xF81 512 0x81 = true := by decide +kernel

/-- The worked frame of 24: TARGET 1,500 and SHED 0xC0. -/
def sWorked : State :=
  let pt (d : Int) (f : Nat) : BitVec 32 × BitVec 11 := (BitVec.ofInt 32 d, BitVec.ofNat 11 f)
  let curve := (#v[pt (-8000) 512, pt (-6000) 512, pt (-2000) 1024] ++
    Vector.ofFn (n := 13) fun i => pt (-1999 + (i.val + 3)) 1024 : Vector (BitVec 32 × BitVec 11) 16)
  s1.modPower fun p =>
    { p with capReg := 2000, capForce := 2000, vcurve := curve, shares := some (400, #v[300, 0, 500, 0, 0, 0, 600, 150]) }

theorem test_workedFrame : gives (exec (.telemetryFrame 0x1E6210E4000303840000C3500000C2EC) sWorked) (fun t =>
    decide (t.power.target = 1500 ∧ t.power.shed = 0xC0 ∧ t.power.sl[6] = 600 ∧ t.power.sl[7] = 150)) = true := by decide +kernel

/-- The worked snapshot of 11: A[0][k]; B[k][0] is 1.0. -/
def workedA (k : Nat) : FVal := fval bf16F (if k = 0 then 0x3F81 else if k % 2 = 0 then 0x3F80 else 0xBF80) 63

/-- Its view of cell (0, 0) after the first n steps of k. -/
def workedCell (n : Nat) : Chain :=
  let p := chainRun fa40F workedA (fun _ => fval bf16F 0x3F80 63) (List.range n) (zeroChain, zeroChain)
  cellView fa40F zeroChain p.1 p.2

theorem test_workedSnapshot : workedCell 32 = ⟨0x3C00000000, 21⟩ ∧ workedCell 64 = ⟨0x3C00000000, 20⟩ := by decide +kernel
/-- Within a line transfer's occupancy a bank goes no further than the first position of its step shift (R205, R209,
R212): RDS in cycle 0 with STEP 4, HFREE in cycle 1. -/
theorem test_rds_occupies_its_bank :
    (let s := (sHead 7 7).modCtx fun x => { x with h := x.h.set 3 { headAt x 3 with step := 4 } };
      gives (exec (.rds 4 3) s) (fun t =>
        gives (exec (.hfree 3) (t.modCore fun k => { k with cycles := 1 })) fun u =>
          decide ((bankAt u.core 255).counted = 8 ∧ (bankAt u.core 255).holder = none ∧ (bankAt t.core 255).taken = 2)) = true) := by
  decide +kernel

theorem test_met_MemoryFormIsKept : sAdd.MemWf ∧ gives (step sAdd) (fun t => decide (t.ctx.pc = 0xFF00000001000004)) = true := by
  refine ⟨⟨by decide +kernel, by decide +kernel, ?_⟩, by decide +kernel⟩
  intro p h
  cases h


/-! ### Loads and stores through every window, of other cores, of fabric memory -/

/-- The own instruction store's last doubleword holds 0x88. -/
def sCode : State := (s1.setG 6 0xFF0000000100FFF8).modCore fun k => { k with istore := [(0xFFF8, 0x88)] }

theorem test_met_LoadsAndStores_elsewhere :
    ((ea sCode 0#16).toNat % 8 = 0 ∧ ea sCode 0#16 = BitVec.ofNat 64 (apLocal + 0x1000000 + 0xFFF8) ∧
      Lets sCode (.istore sCode.coreId) 0 0xFFF8 ∧ sCode.Clean ∧
      gives (exec (.ld 5 6 0) sCode) (fun t => decide (t.gr 5 = 0x88 ∧ t.grc 5 = 63)) = true ∧
      gives (exec (.lb 5 6 0) sCode) (fun t => decide (t.gr 5 = 0xFFFFFFFFFFFFFF88)) = true ∧
      gives (exec (.sd 5 6 0) sCode) (fun t => decide (t.records.length = 1 ∧ t.core.istore = sCode.core.istore)) = true) ∧
    (∀ k ∈ [1, 7], let s := s1.setG 6 (at_ (k * 0x40000 + 0x17FF8))
      (ea s 0#16).toNat % 8 = 0 ∧ ea s 0#16 = BitVec.ofNat 64 (apLocal + k * 0x40000 + 0x17FF8) ∧
      gives (exec (.ld 5 6 0) s) (fun t => decide (t.ctx.phase = .ending)) = true ∧
      gives (exec (.sd 5 6 0) s) (fun t => decide (t.ctx.phase = .ending)) = true) :=
  ⟨by decide +kernel, by decide +kernel⟩

/-- Mask 1 names lane 3 alone, mask 2 lanes 3 and 4; v4 holds tracked counts. -/
def sOne : State := s1.modCtx fun x => { x with
  v := ((x.v.set 1 8).set 2 24).set 4 (BitVec.ofNat 512 (5 * 2 ^ 48))
  vc := x.vc.set 4 (Vector.replicate 32 17) }

theorem test_met_ReductionsAndConversions_one :
    (List.range (512 / 16)).filter (active sOne.ctx 1) = [3] ∧ laneCount (sOne.vrc 4) 16 3 = 17 ∧
    gives (exec (.vradd 5 4 1 .w16) sOne) (fun t => decide (t.gr 5 = 5 ∧ t.grc 5 = 17)) = true ∧
    gives (exec (.vrand 5 4 1 .w16) sOne) (fun t => decide (t.gr 5 = 5 ∧ t.grc 5 = 17)) = true ∧
    (List.range (512 / 16)).filter (active sOne.ctx 2) = [3, 4] ∧
    gives (exec (.vradd 5 4 2 .w16) sOne) (fun t => decide (t.gr 5 = 5 ∧ t.grc 5 = 63)) = true ∧
    gives (exec (.vrand 5 4 0 .w16) sOne) (fun t => decide (t.gr 5 = 0 ∧ t.grc 5 = 63)) = true := by decide +kernel

/-- g6 names offset 0x100 of window k, g7 the stride 16, mask 1 lanes 0 and 1; v0 has pointer 7 there. The blocks of R196's
worked example, a bf16, f16, e4m3 and e5m2 1.5, an f64 with count byte 40. -/
def sWin (k : Nat) (w : List Byte) : State :=
  (((s1.setG 6 (at_ (k * 0x40000 + 0x100))).setG 7 16).modCtx fun x => { x with
    v := (x.v.set 31 (BitVec.ofNat 512 ((0x100 + k * 0x20000 + 32 * 2 ^ 32) * 2 ^ 448))).set 30 3
    scale5 := 0x8000, scale6 := 0x9000, tagbase := 0xA000 }).modCore fun c =>
      { c with mem := wrBytes (wrBytes (wrBytes (wrBytes [] 0x100 w) 0x8010 [0x7E]) 0x9010 [0, 0x3C]) 0xA020 [40] }

/-- Lane i of w bits of v5, with its count, after a load. -/
def lane5 (w i : Nat) (x : Nat) (c : Count) (t : State) : Bool := decide (laneNat (t.vr 5) w i = x ∧ laneCount (t.vrc 5) w i = c)

theorem test_met_VectorLoads_windows :
    gives (exec (.vld 5 6 0 false .w32) (sWin 1 [0xC0, 0x3F])) (lane5 32 0 0x3FC00000 63) = true ∧
    gives (exec (.vld 5 6 0 false .w32) (sWin 2 [0x00, 0x3E])) (lane5 32 0 0x3FC00000 63) = true ∧
    gives (exec (.vld 5 6 0 false .w16) (sWin 3 [0x3C])) (lane5 16 0 0x3FC0 63) = true ∧
    gives (exec (.vld 5 6 0 false .w16) (sWin 4 [0x3E])) (lane5 16 0 0x3FC0 63) = true ∧
    gives (exec (.vld 5 6 0 false .w16) (sWin 5 [0xB3])) (fun t => lane5 16 0 0x3F40 63 t && lane5 16 1 0xBF40 63 t) = true ∧
    gives (exec (.vld 5 6 0 false .w16) (sWin 6 [0x85])) (lane5 16 0 0xBF76 63) = true ∧
    gives (exec (.vld 5 6 0 false .w64) (sWin 7 [7])) (lane5 64 0 7 40) = true ∧
    gives (exec (.vlds 5 6 7 0 false .w64) (sWin 7 [7])) (fun t => lane5 64 0 7 40 t && lane5 64 1 0 0 t) = true ∧
    gives (exec (.vlds 5 6 7 0 false .w16) (sWin 5 [7])) (fun t => decide (t.ctx.phase = .ending)) = true ∧
    gives (exec (.vgather 5 6 4 0 false .w64) (sWin 7 [7])) (fun t => decide (t.ctx.phase = .ending)) = true := by decide +kernel

/-- The alignments, sources and side bytes of the witnesses above lie where the rules want them. -/
theorem test_met_VectorLoads_ends :
    (∀ k ∈ [1, 2, 3, 4, 5, 6, 7], (sWin k []).gr 6 = BitVec.ofNat 64 (apLocal + k * 0x40000 + 0x100)) ∧
    0x100 % 32 = 0 ∧ 0x100 + 63 + 8 ≤ 0x18000 ∧ 0x9000 % 2 = 0 ∧ 0xA000 + (0x100 + 8 * 7) / 8 < 0x18000 ∧
    (∀ i, i < 8 → (sWin 7 []).gr 6 + BitVec.ofNat 64 i * (sWin 7 []).gr 7 =
      BitVec.ofNat 64 (apLocal + 7 * 0x40000 + (0x100 + 16 * i)) ∧ (0x100 + 16 * i) % 8 = 0) := by decide +kernel

/-- v5 of the low lane x, with counts 40. -/
def put5 (x : Nat) (s : State) : State :=
  s.modCtx fun y => { y with v := y.v.set 5 (BitVec.ofNat 512 x), vc := y.vc.set 5 (Vector.replicate 32 40) }

theorem test_met_VectorStores_windows :
    gives (exec (.vst 5 6 0 .w32 none) (put5 0x3FC00000 (sWin 1 []))) (fun t => decide (rdNat t.core.mem 0x100 4 = 0x3FC0)) = true ∧
    gives (exec (.vst 5 6 0 .w32 none) (put5 0x3FC00000 (sWin 2 []))) (fun t => decide (rdNat t.core.mem 0x100 4 = 0x3E00)) = true ∧
    gives (exec (.vst 5 6 0 .w16 none) (put5 0x7F00 (sWin 3 []))) (fun t => decide (rdNat t.core.mem 0x100 2 = 0x7E)) = true ∧
    gives (exec (.vst 5 6 0 .w16 none) (put5 0x3FC0 (sWin 4 []))) (fun t => decide (rdNat t.core.mem 0x100 2 = 0x3E)) = true ∧
    gives (exec (.vst 5 6 0 .w64 none) (put5 7 (sWin 7 []))) (fun t => decide (rdNat t.core.mem 0x100 8 = 7 ∧
      rdNat t.core.mem 0xA020 8 = 0x2828282828282828)) = true ∧
    gives (exec (.vsts 5 6 7 0 .w64 none) (put5 7 (sWin 7 []))) (fun t => decide (rdNat t.core.mem 0xA020 4 = 0x280028)) = true ∧
    (∀ k ∈ [5, 6], gives (exec (.vst 5 6 0 .w16 none) (put5 7 (sWin k []))) (fun t => decide (t.ctx.phase = .ending)) = true) ∧
    (sWin 1 []).ctx.storing = none := by decide +kernel

/-- g6 names offset 0x17FC0 of core 2, within reach of the privileged task or out of reach of the other; v5 is 7. -/
def sFarV (p : Bool) : State := put5 7 ((if p then sp else s1).setG 6 0xFE00000002017FC0)

theorem test_met_VectorLoads_far :
    (let s := sFarV true
     (∀ j, j < 8 → (s.gr 6 + BitVec.ofNat 64 (j * 8)).toNat % 8 = 0 ∧
       classify (s.gr 6 + BitVec.ofNat 64 (j * 8)) = .remote 2 (0x17FC0 + j * 8)) ∧
     inReach s.coreId s.ctx 2 = true ∧ hoopUsed s.ctx + 80 ≤ 2048 ∧ s.ctx.storing = none ∧
     gives (exec (.vld 5 6 0 false .w64) s) (fun t => decide (t.ctx.stall = some .other ∧ t.net.map Packet.body =
       [.op (.load ((List.range 8).flatMap fun j => (List.range 8).map fun k => 0x17FC0 + j * 8 + k))])) = true ∧
     gives (exec (.vst 5 6 0 .w64 none) s) (fun t => decide (t.ctx.hoop.length = 1 ∧
       t.ctx.hoop.map (effByte 0x17FC0) = [some 7] ∧ t.ctx.hoop.map (effByte 0x17FFF) = [some 0] ∧
       t.ctx.hoop.map (effByte 0x17FBF) = [none])) = true) ∧
    (let s := sFarV false
     inReach s.coreId s.ctx 2 = false ∧ gives (exec (.vld 5 6 0 false .w64) s) (fun t => decide (t.ctx.phase = .ending)) = true ∧
     gives (exec (.vst 5 6 0 .w64 none) s) (fun t => decide (t.ctx.phase = .ending)) = true) :=
  ⟨by decide +kernel, by decide +kernel⟩

theorem test_met_VectorLoads_fabric :
    (let s := (sFab 0x1000).modCore fun k => { k with gather := [line0] }
     let x := (translate s (ctxTag s.ctx) 0 .read 0x1000 1).2
     (∀ j, j < 8 → (s.gr 6 + BitVec.ofNat 64 (j * 8)).toNat % 8 = 0 ∧
       classify (s.gr 6 + BitVec.ofNat 64 (j * 8)) = .fabric (0x1000 + j * 8)) ∧
     (translate s (ctxTag s.ctx) 0 .read 0x1000 1).1 = .ok (0 + 0x1000 % 65536) ∧ x.rings = [] ∧ x.symErrs = [] ∧
     (∀ j, j < 8 → ∀ k, k < 8 → let q := 0x1000 + j * 8 + k
       inGuard s.ctx.stacklimit q = false ∧ chanCut x q = false ∧ frameOk x (ctxTag s.ctx) q = true ∧ readable x q = true) ∧
     gives (exec (.vld 5 6 0 false .w64) s) (lane5 64 0 0x2009 63) = true) ∧
    (let s := (put5 (7 + 5 * 2 ^ 64) (sFab 0x1040)).modCtx fun x => { x with v := x.v.set 1 3 }
     (translate s (ctxTag s.ctx) 0 .write 0x1040 1).1 = .ok 0x1040 ∧ s.core.gather = [] ∧ s.ctx.storing = none ∧
     (List.range 8).filter (active s.ctx 1) = [0, 1] ∧
     gives (exec (.vst 5 6 1 .w64 none) s) (fun t => decide (t.core.gather.map (fun l => (l.va, l.pa, l.bytes)) =
       [(0x1040, 0x1040, ([7, 0, 0, 0, 0, 0, 0, 0, 5, 0, 0, 0, 0, 0, 0, 0].map fun b => some (b, 0)) ++ List.replicate 48 none)] ∧
       t.ctx.committed = true)) = true) :=
  ⟨by decide +kernel, by decide +kernel⟩

/-- A store of two lines to a full buffer keeps what is left and, once a line is free, goes on without its checks: here with a
bound register that would trap by then (R143, R285). -/
theorem test_store_goes_on_without_its_checks :
    (let s := (put5 7 (sFab 0x1040)).modCtx fun x => { x with storing := some [(⟨none, ⟨0, 0, false⟩, 0x1048, 0x1048⟩, 9)] }
     let s := s.modCore fun k => { k with bounds := k.bounds.set 7 ⟨0x3F800000, 0x3F800000, 2, false⟩ }
     gives (exec (.vst 5 6 0 .w64 (some 7)) s) (fun t => decide (t.ctx.storing = none ∧ t.ctx.phase = .running ∧
       t.core.gather.map (fun l => (l.va, l.bytes.filterMap id)) = [(0x1040, [(9, 0)])])) = true) := by decide +kernel

/-! ### What passes with time -/

/-- R12: while a core waits for frame space nothing is dispatched; a frame freed ends the wait. -/
theorem test_frame_wait :
    (let s := (sInbox rec1).modCore fun k => { k with frameWait := true }
     gives (exec .taskDispatch s) (fun t => decide (t.core.inbox = [rec1])) = true ∧
     (freeFrameAt { s.core with frames := [(0, 8)] } 0xC000).frameWait = false) ∧
    (let s := (sInbox rec1).modCore fun k => { k with frames := [(0, 0x40)] }
     (endStep s).core.frameWait = true) := by decide +kernel

/-- R202: a message is refused once 2,048 router cycles have passed in its park slot, whatever issues meanwhile. -/
theorem test_park_ends_with_time :
    (let s := s1.modCore fun k => { k with park := some (mTask, pk (.op (.msg mTask)), 0) }
     let t := passTime 4096 s
     t.core.park = none ∧ t.net = [answerTo (pk (.op (.msg mTask))) (.nack 1 (.msg mTask))]) ∧
    (let s := s1.modCore fun k => { k with park := some (mTask, pk (.op (.msg mTask)), 0) }
     (passTime 4095 s).core.park.isSome = true) := by decide +kernel

/-- R208: a claim of a higher level is granted in the cycle in which a line transfer's occupancy ends, as time passes. -/
theorem test_grant_with_time :
    (let s := (sHead 7 3).modCore fun k => setBank { k with headpri := 0x10 } 255 fun b =>
       { b with claims := [(.head 2 0, 0)], taken := 3, counted := 7, track := 7 }
     let s := s.modCtxAt 2 fun x => { x with h := x.h.set 0 { Head.unbound with bank := 255, pos := 9, bnd := true } }
     (bankAt (passTime 2 s).core 255).holder = some (.head 0 3) ∧ (bankAt (passTime 3 s).core 255).holder = some (.head 2 0) ∧
       (bankAt (passTime 5 s).core 255).moving = none ∧ (bankAt (passTime 5 s).core 255).counted = 9) := by decide +kernel

/-- R217: a rewind ends as its cycles pass, its steps and 4 more, and the RWD that waits for it is done. -/
theorem test_rewind_ends_with_time :
    (let s := ((sHead 7 3).modCtx fun x => { x with stall := some (.head 3) }).modCore fun k =>
       setBank k 255 fun b => { b with moving := some 0, rewind := true }
     (passTime 6 s).ctx.pc = 0xFF00000001000000 ∧ (passTime 7 s).ctx.pc = 0xFF00000001000004 ∧
       (bankAt (passTime 7 s).core 255).track = 0) := by decide +kernel

/-! ### Replay, and messages sent again -/

/-- R350: an abortive trap does not wait for the read of LV that replay holds back; the context is not free before it. -/
theorem test_lv_stays_due :
    (let s := { s1.modCtx (fun x => { x with d := x.d.set 0 (frameDesc 1 0xC000 8) }) with
       rings := [(portNo (.scratch 1), { Ring.reset with onlyrem := false, replay := true, log := [2], left := 1 })] }
     let t := abortCtx s 0 .access
     (t.ctxAt 0).phase = .ending ∧ (t.ctxAt 0).lvDue = true ∧
     gives (exec (.contextRelease 0) t) (fun u => decide ((u.ctxAt 0).phase = .ending)) = true ∧
     gives (exec (.contextRelease 0) { t with rings := [] }) (fun u => decide ((u.ctxAt 0).lvDue = false) &&
       gives (exec (.contextRelease 0) u) (fun v => decide ((v.ctxAt 0).phase = .free))) = true) := by decide +kernel

/-- R326: a record that came coded with DR is sent on raw, COMP and DR 0. -/
theorem test_restart_is_raw :
    (let m : Msg := { mTask with h0 := setFld mTask.h0 12 3 5, coded := some [true] }
     let q := restartMsg s1.core 2 { rec1 with msg := some m } none false
     q.h0.extractLsb' 12 3 = 0 ∧ q.coded = none ∧ q.h0.extractLsb' 32 12 = 2) := by decide +kernel

end Sys2Proof.Tests
end

section
/-! PROOFS. The canonical form of the byte memories is kept by every step (O48): for each function of the model that answers
a state, a core or an outcome, one lemma says that the form goes through it, in the order of the model's files; a function's
lemma rests on those of the functions it calls. At the end, what a step does with the first entry of the agenda (O3). -/
namespace Sys2Proof.Machine

/-! ### What it means that an answer keeps the canonical form -/

/-- The next state, where an outcome has one, has its memories in canonical form. -/
def OutMemWf : Out → Prop
  | .next t => t.MemWf
  | .fault _ | .refused _ => True

/-- The state that a rule goes on with, where it goes on, has its memories in canonical form. -/
def OptMemWf : Option State → Prop
  | some t => t.MemWf
  | none => True

/-- The same of what answers a value with a state, or ends the instruction. -/
def SumMemWf {α : Type} : (α × State) ⊕ Out → Prop
  | .inl p => p.2.MemWf
  | .inr o => OutMemWf o

/-- The same of what the service of a fetch miss comes to. -/
def FilledMemWf : Filled → Prop
  | .again t | .trap t _ _ | .lost t => t.MemWf

/-- The same of the core that a request decoded leaves. -/
def UncodedMemWf : Uncoded → Prop
  | .plain _ k | .refused k => k.MemWf

/-- The same of what a message comes to at its inbox. -/
def AcceptMemWf : Accept → Prop
  | .taken t | .parked t | .refused t _ => t.MemWf
  | .held => True

/-- The same of what a request comes to at its port. -/
def DelMemWf : Del → Prop
  | .performed t _ => t.MemWf
  | .held | .waits => True

theorem FilledMemWf.of_eq {a b : Filled} (h : FilledMemWf a) (e : a = b) : FilledMemWf b := e ▸ h
theorem UncodedMemWf.of_eq {a b : Uncoded} (h : UncodedMemWf a) (e : a = b) : UncodedMemWf b := e ▸ h
theorem AcceptMemWf.of_eq {a b : Accept} (h : AcceptMemWf a) (e : a = b) : AcceptMemWf b := e ▸ h
theorem DelMemWf.of_eq {a b : Del} (h : DelMemWf a) (e : a = b) : DelMemWf b := e ▸ h

theorem OutMemWf.of_next {o : Out} {t : State} (h : OutMemWf o) (e : o = .next t) : t.MemWf := by subst e; exact h

theorem OptMemWf.of_some {o : Option State} {t : State} (h : OptMemWf o) (e : o = some t) : t.MemWf := by subst e; exact h

theorem SumMemWf.of_inl {α : Type} {r : (α × State) ⊕ Out} {a : α} {t : State} (h : SumMemWf r) (e : r = .inl (a, t)) :
    t.MemWf := by subst e; exact h

theorem SumMemWf.of_inr {α : Type} {r : (α × State) ⊕ Out} {o : Out} (h : SumMemWf r) (e : r = .inr o) : OutMemWf o := by
  subst e; exact h

theorem fst_memWf {α : Type} {p : State × α} {t : State} {a : α} (h : p.1.MemWf) (e : p = (t, a)) : t.MemWf := by
  subst e; exact h

theorem snd_memWf {α : Type} {p : α × State} {t : State} {a : α} (h : p.2.MemWf) (e : p = (a, t)) : t.MemWf := by
  subst e; exact h

theorem getD_memWf {o : Option State} {s : State} (ho : OptMemWf o) (h : s.MemWf) : (o.getD s).MemWf := by
  cases o with
  | none => exact h
  | some t => exact ho

theorem bind_memWf {o : Option State} {f : State → Option State} (ho : OptMemWf o) (hf : ∀ t, t.MemWf → OptMemWf (f t)) :
    OptMemWf (o.bind f) := by
  cases o with
  | none => trivial
  | some t => exact hf t ho

theorem map_memWf {o : Option State} {f : State → State} (ho : OptMemWf o) (hf : ∀ t, t.MemWf → (f t).MemWf) :
    OptMemWf (o.map f) := by
  cases o with
  | none => trivial
  | some t => exact hf t ho

theorem orElse_memWf {o : Option State} {f : Unit → Option State} (ho : OptMemWf o) (hf : OptMemWf (f ())) :
    OptMemWf (o.orElse f) := by
  cases o with
  | none => exact hf
  | some t => exact ho

/-- A rule that looks at a value first. -/
theorem valueBind_memWf {α : Type} {o : Option α} {f : α → Option State} (hf : ∀ a, OptMemWf (f a)) :
    OptMemWf (o.bind f) := by
  cases o with
  | none => trivial
  | some a => exact hf a

theorem valueMap_memWf {α : Type} {o : Option α} {f : α → State} (hf : ∀ a, (f a).MemWf) : OptMemWf (o.map f) := by
  cases o with
  | none => trivial
  | some a => exact hf a

theorem firstSome_memWf {α : Type} {f : α → Option State} {l : List α} (hf : ∀ a ∈ l, OptMemWf (f a)) :
    OptMemWf (firstSome f l) := by
  induction l with
  | nil => trivial
  | cons a l ih =>
    simp only [firstSome]
    split
    · exact (hf a (by simp)).of_some ‹_›
    · exact ih fun b hb => hf b (by simp [hb])

/-- What every entry of a list keeps, all of them one after the other keep. -/
theorem foldl_memWf {α : Type} {f : State → α → State} {l : List α} {s : State} (h : s.MemWf)
    (hf : ∀ t a, t.MemWf → (f t a).MemWf) : (l.foldl f s).MemWf := by
  induction l generalizing s with
  | nil => exact h
  | cons a l ih => exact ih (hf s a h)

theorem foldIdx_core_memWf {α : Type} {f : Nat → α → Core → Core} {l : List α} {n : Nat} {k : Core} (h : k.MemWf)
    (hf : ∀ i a k, k.MemWf → (f i a k).MemWf) : (foldIdx f n l k).MemWf := by
  induction l generalizing n k with
  | nil => exact h
  | cons a l ih => exact ih (hf n a k h)

theorem foldl_core_memWf {α : Type} {f : Core → α → Core} {l : List α} {k : Core} (h : k.MemWf)
    (hf : ∀ k a, k.MemWf → (f k a).MemWf) : (l.foldl f k).MemWf := by
  induction l generalizing k with
  | nil => exact h
  | cons a l ih => exact ih (hf k a h)

theorem foldl_optMemWf {α : Type} {f : Option State → α → Option State} {l : List α} {o : Option State} (h : OptMemWf o)
    (hf : ∀ o a, OptMemWf o → OptMemWf (f o a)) : OptMemWf (l.foldl f o) := by
  induction l generalizing o with
  | nil => exact h
  | cons a l ih => exact ih (hf o a h)

/-! ### The state: what has no byte memory, and the core in focus -/

/-- The form says nothing of what lies outside the memories and the cores. -/
theorem State.MemWf.frame {s t : State} (h : s.MemWf) (hd : t.dram = s.dram)
    (hc : t.core = s.core) (ho : t.others = s.others) : t.MemWf := by
  simpa only [State.MemWf, hd, hc, ho] using h

theorem dram_memWf {s : State} (h : s.MemWf) : Memory.wf s.dram = true := h.1
theorem core_memWf {s : State} (h : s.MemWf) : s.core.MemWf := h.2.1
theorem mem_memWf {k : Core} (h : k.MemWf) : Memory.wf k.mem = true := h.1
theorem wbuf_memWf {k : Core} (h : k.MemWf) : Memory.wf k.wbuf = true := h.2.1
theorem istore_memWf {k : Core} (h : k.MemWf) : Memory.wf k.istore = true := h.2.2

theorem modCore_memWf {s : State} {f : Core → Core} (h : s.MemWf) (hf : ∀ k, k.MemWf → (f k).MemWf) : (s.modCore f).MemWf :=
  ⟨h.1, hf _ h.2.1, h.2.2⟩

theorem modCtxAt_memWf {s : State} {c : CtxNo} {f : Ctx → Ctx} (h : s.MemWf) : (s.modCtxAt c f).MemWf := h

/-! ### Writes of byte memories -/

/-- A core whose scratchpad was written, and perhaps more that has no byte memory. -/
theorem Core.MemWf.withMem {k l : Core} (h : k.MemWf) (hm : Memory.wf l.mem = true) (hw : l.wbuf = k.wbuf)
    (hi : l.istore = k.istore) : l.MemWf :=
  ⟨hm, hw ▸ h.2.1, hi ▸ h.2.2⟩

theorem wrBytes_memWf {k l : Core} {n : Nat} {bs : List Byte} (h : k.MemWf) (hm : l.mem = wrBytes k.mem n bs)
    (hw : l.wbuf = k.wbuf) (hi : l.istore = k.istore) : l.MemWf :=
  h.withMem (hm ▸ wrBytes_wf _ _ _ (mem_memWf h)) hw hi

theorem wrCells_memWf {k l : Core} {cs : List Host.Cell} (h : k.MemWf) (hm : l.mem = wrCells k.mem cs)
    (hw : l.wbuf = k.wbuf) (hi : l.istore = k.istore) : l.MemWf :=
  h.withMem (hm ▸ wrCells_wf _ _ (mem_memWf h)) hw hi

/-- The same of its weight buffer. -/
theorem Core.MemWf.withWbuf {k l : Core} (h : k.MemWf) (hw : Memory.wf l.wbuf = true) (hm : l.mem = k.mem)
    (hi : l.istore = k.istore) : l.MemWf :=
  ⟨hm ▸ h.1, hw, hi ▸ h.2.2⟩

/-- The same of its instruction store. -/
theorem Core.MemWf.withIstore {k l : Core} (h : k.MemWf) (hi : Memory.wf l.istore = true) (hm : l.mem = k.mem)
    (hw : l.wbuf = k.wbuf) : l.MemWf :=
  ⟨hm ▸ h.1, hw ▸ h.2.1, hi⟩

/-- A state whose byte memories are those of another. -/
theorem State.MemWf.sameMem {s t : State} (h : s.MemWf) (hd : t.dram = s.dram) (hm : t.core.mem = s.core.mem)
    (hw : t.core.wbuf = s.core.wbuf) (hi : t.core.istore = s.core.istore) (ho : t.others = s.others) : t.MemWf :=
  ⟨hd ▸ h.1, ⟨hm ▸ h.2.1.1, hw ▸ h.2.1.2.1, hi ▸ h.2.1.2.2⟩, ho ▸ h.2.2⟩

/-! ### The other cores -/

theorem mem_of_mem_tdel {α : Type} {t : Table α} {a : Nat} {p : Nat × α} (hp : p ∈ tdel t a) : p ∈ t := by
  induction t with
  | nil => exact hp
  | cons q t ih =>
    simp only [tdel] at hp
    split at hp
    · exact .tail _ (ih hp)
    · rcases List.mem_cons.mp hp with rfl | hp
      · exact .head _
      · exact .tail _ (ih hp)

theorem mem_of_mem_tins {α : Type} {t : Table α} {a : Nat} {x : α} {p : Nat × α} (hp : p ∈ tins t a x) :
    p ∈ t ∨ p = (a, x) := by
  induction t with
  | nil => exact .inr (by simpa [tins] using hp)
  | cons q t ih =>
    simp only [tins] at hp
    split at hp
    · rcases List.mem_cons.mp hp with rfl | hp
      · exact .inr rfl
      · exact .inl hp
    · split at hp
      · rcases List.mem_cons.mp hp with rfl | hp
        · exact .inr rfl
        · exact .inl (.tail _ hp)
      · rcases List.mem_cons.mp hp with rfl | hp
        · exact .inl (.head _)
        · exact (ih hp).imp_left (.tail _)

/-- An entry of a table after a write was in it before, or is what was written. -/
theorem mem_of_mem_tput {α : Type} [DecidableEq α] {d : α} {t : Table α} {a : Nat} {x : α} {p : Nat × α}
    (hp : p ∈ tput d t a x) : p ∈ t ∨ p = (a, x) := by
  unfold tput at hp
  split at hp
  · exact .inl (mem_of_mem_tdel hp)
  · exact mem_of_mem_tins hp

theorem freshCore_memWf {c : CoreId} : (freshCore c).MemWf := reset_core_memWf c

theorem tget_core_memWf {t : Table Core} {k : Core} {a : Nat} (ht : ∀ p ∈ t, p.2.MemWf) (hk : k.MemWf) :
    (tget k t a).MemWf := by
  induction t with
  | nil => exact hk
  | cons p t ih =>
    simp only [tget]
    split
    · exact ht p (.head _)
    · exact ih fun q hq => ht q (.tail _ hq)

theorem tput_core_memWf {t : Table Core} {d k : Core} {a : Nat} (ht : ∀ p ∈ t, p.2.MemWf) (hk : k.MemWf) :
    ∀ p ∈ tput d t a k, p.2.MemWf := by
  intro p hp
  rcases mem_of_mem_tput hp with hp | rfl
  · exact ht p hp
  · exact hk

theorem coreAt_memWf {s : State} {c : CoreId} (h : s.MemWf) : (s.coreAt c).MemWf := by
  unfold State.coreAt
  split
  · exact core_memWf h
  · exact tget_core_memWf h.2.2 freshCore_memWf

theorem setCore_memWf {s : State} {c : CoreId} {k : Core} (h : s.MemWf) (hk : k.MemWf) : (s.setCore c k).MemWf := by
  unfold State.setCore
  split
  · exact ⟨h.1, hk, h.2.2⟩
  · exact ⟨h.1, h.2.1, tput_core_memWf h.2.2 hk⟩

theorem modCoreAt_memWf {s : State} {c : CoreId} {f : Core → Core} (h : s.MemWf) (hf : ∀ k, k.MemWf → (f k).MemWf) :
    (s.modCoreAt c f).MemWf :=
  setCore_memWf h (hf _ (coreAt_memWf h))

/-- Turning to another core moves cores, and makes none but a fresh one. -/
theorem focus_memWf {s : State} {c : CoreId} (h : s.MemWf) : (s.focus c).MemWf := by
  unfold State.focus
  split
  · exact h
  · exact ⟨h.1, tget_core_memWf h.2.2 freshCore_memWf, tput_core_memWf (tput_core_memWf h.2.2 freshCore_memWf) (core_memWf h)⟩

theorem onCore_memWf {s : State} {c : CoreId} {f : State → State} (h : s.MemWf) (hf : ∀ t, t.MemWf → (f t).MemWf) :
    (s.onCore c f).MemWf :=
  focus_memWf (hf _ (focus_memWf h))

section
variable {s : State} {k : Core}

/-! ### The shared operations (Machine/Ops.lean) -/

theorem modCtx_memWf {f} (h : s.MemWf) : (s.modCtx f).MemWf := modCtxAt_memWf h

theorem modDie_memWf {d f} (h : s.MemWf) : (s.modDie d f).MemWf := h.frame rfl rfl rfl

theorem setGC_memWf {r w c} (h : s.MemWf) : (s.setGC r w c).MemWf := modCtx_memWf h

theorem setG_memWf {r w} (h : s.MemWf) : (s.setG r w).MemWf := setGC_memWf h

theorem setVC_memWf {r w c} (h : s.MemWf) : (s.setVC r w c).MemWf := modCtx_memWf h

theorem advance_memWf (h : s.MemWf) : s.advance.MemWf := modCtx_memWf h

theorem jump_memWf {a} (h : s.MemWf) : (s.jump a).MemWf := modCtx_memWf h

theorem stallAs_memWf {w} (h : s.MemWf) : (s.stallAs w).MemWf := modCtx_memWf h

theorem stallOut_memWf (h : s.MemWf) : OutMemWf (stallOut s) := stallAs_memWf h

theorem done_memWf (h : s.MemWf) : OutMemWf (done s) := advance_memWf h

theorem setClock_memWf {now a} (h : k.MemWf) : (setClock now k a).MemWf := by
  unfold setClock
  split <;> exact h

theorem stretchCycle_memWf {now} (h : k.MemWf) : (stretchCycle now k).MemWf := h

theorem commit_memWf (h : s.MemWf) : s.commit.MemWf := modCtx_memWf h

theorem place_memWf {es} (h : s.MemWf) : (s.place es).1.MemWf := by
  unfold State.place
  split
  · exact h.sameMem rfl rfl rfl rfl rfl
  · exact commit_memWf h

theorem placing_memWf {f : State → Out} {a op} (h : s.MemWf) (hf : ∀ t, t.MemWf → OutMemWf (f t)) :
    OutMemWf (placing s a op f) := by
  unfold placing
  split
  · exact hf _ (fst_memWf (place_memWf h) ‹_›)
  · exact stallOut_memWf (fst_memWf (place_memWf h) ‹_›)

theorem noteAccess_memWf {p e} (h : s.MemWf) : (noteAccess s p e).MemWf := by
  unfold noteAccess
  dsimp only
  split
  · exact h
  · split
    · exact h.frame rfl rfl rfl
    · split
      · exact h.frame rfl rfl rfl
      · exact h

theorem seenAt_memWf {p e} (h : s.MemWf) : OptMemWf (seenAt s p e) := by
  unfold seenAt
  split
  · trivial
  · exact noteAccess_memWf h

theorem consume_memWf {m ws} (h : s.MemWf) : (s.consume m ws).1.MemWf := by
  unfold State.consume
  split
  · exact h
  · exact modCore_memWf h fun _ hk => hk

theorem freshWords_memWf {m ws} (h : k.MemWf) : (freshWords m ws k).MemWf := by
  unfold freshWords
  split <;> exact h

theorem rewrite_memWf {m n cs} (h : s.MemWf) : (s.rewrite m n cs).1.MemWf := by
  unfold State.rewrite
  split
  · exact h
  · exact modCore_memWf (consume_memWf h) fun _ => freshWords_memWf

theorem report_memWf {r} (h : s.MemWf) : (s.report r).MemWf := h.frame rfl rfl rfl

theorem freeFrameAt_memWf {off} (h : k.MemWf) : (freeFrameAt k off).MemWf := h

theorem setBank_memWf {b f} (h : k.MemWf) : (setBank k b f).MemWf := h

theorem shiftBy_memWf {b d p} (h : k.MemWf) : (shiftBy k b d p).MemWf := by
  unfold shiftBy
  split
  · exact h
  · exact setBank_memWf h

theorem moveBank_memWf {cyc b} (h : k.MemWf) : (moveBank cyc k b).MemWf := by
  refine setBank_memWf ?_
  split
  · exact setBank_memWf h
  · exact shiftBy_memWf h

theorem stopBank_memWf {n b} (h : k.MemWf) : (stopBank n k b).MemWf := setBank_memWf (moveBank_memWf h)

theorem leaveBank_memWf {cyc h b} (hk : k.MemWf) : (leaveBank cyc k h b).MemWf := by
  unfold leaveBank
  dsimp only
  split
  · refine setBank_memWf ?_
    split
    · exact setBank_memWf (setBank_memWf hk)
    · exact stopBank_memWf (setBank_memWf hk)
  · exact setBank_memWf hk

theorem setEng_memWf {h y} (hk : k.MemWf) : (setEng k h y).MemWf := hk

theorem modHead_memWf {w f} (h : s.MemWf) : (modHead s w f).MemWf := by
  unfold modHead
  split
  · exact modCtxAt_memWf h
  · exact modCore_memWf h fun _ => setEng_memWf

theorem arriveOnce_memWf {n bank} (h : s.MemWf) : (arriveOnce n s bank).MemWf := by
  unfold arriveOnce
  dsimp only
  split
  · split
    · split
      · exact modHead_memWf (modCore_memWf h fun _ hk => setBank_memWf (moveBank_memWf hk))
      · exact modCore_memWf (modCore_memWf h fun _ hk => setBank_memWf (moveBank_memWf hk)) fun _ => setBank_memWf
    · exact h
  · exact h

theorem arriveAt_memWf {n bank} (h : s.MemWf) : (arriveAt n s bank).MemWf := arriveOnce_memWf (arriveOnce_memWf h)

theorem arrive_memWf {bank} (h : s.MemWf) : (arrive s bank).MemWf := arriveAt_memWf h

theorem moveBanks_memWf (h : s.MemWf) : (moveBanks s).MemWf := by
  refine foldl_memWf h fun _ _ ht => ?_
  dsimp only
  split
  · exact modCore_memWf (arrive_memWf ht) fun _ => moveBank_memWf
  · exact ht

theorem freeHead_memWf {c h} (hs : s.MemWf) : (freeHead s c h).MemWf := by
  unfold freeHead
  dsimp only
  split
  · exact modCtxAt_memWf (modCore_memWf hs fun _ => leaveBank_memWf)
  · exact hs

theorem freeHeads_memWf {c} (h : s.MemWf) : (freeHeads s c).MemWf :=
  freeHead_memWf (freeHead_memWf (freeHead_memWf (freeHead_memWf h)))

theorem holdBand_memWf {b now} (h : k.MemWf) : (holdBand k b now).MemWf := by
  unfold holdBand
  split <;> exact h

theorem freeBand_memWf {b now} (h : k.MemWf) : (freeBand k b now).MemWf := by
  unfold freeBand
  split <;> exact h

theorem clockCore_memWf {now heldB hot} (h : k.MemWf) : (clockCore now heldB hot k).MemWf := setClock_memWf h

theorem clockUpdate_memWf (h : s.MemWf) : s.clockUpdate.MemWf := modCore_memWf h fun _ => clockCore_memWf

theorem readLv_memWf {c} (h : s.MemWf) : (readLv s c).1.MemWf := by
  unfold readLv
  dsimp only
  split
  · exact consume_memWf (noteAccess_memWf h)
  · exact h

theorem readLvDoom_memWf {c} (h : s.MemWf) : (readLvDoom s c).MemWf := by
  unfold readLvDoom
  dsimp only
  split
  · exact modCore_memWf (readLv_memWf h) fun _ hk => hk
  · exact readLv_memWf h

theorem dropD0_memWf {c} (h : s.MemWf) : (dropD0 s c).MemWf := by
  unfold dropD0
  dsimp only
  split
  · exact (readLvDoom_memWf h).sameMem rfl rfl rfl rfl rfl
  · exact modCore_memWf (readLvDoom_memWf h) fun _ => freeFrameAt_memWf

theorem endD0_memWf {c} (h : s.MemWf) : (endD0 s c).MemWf := by
  unfold endD0
  split
  · exact modCtxAt_memWf h
  · exact dropD0_memWf h

theorem dropQueues_memWf {c} (h : k.MemWf) : (dropQueues k c).MemWf := h

theorem abortAs_memWf {c cause contained adds performed} (h : s.MemWf) :
    (abortAs s c cause contained adds performed).MemWf := by
  refine report_memWf (modCtxAt_memWf (modCore_memWf (endD0_memWf (freeHeads_memWf (modCtxAt_memWf h))) fun _ hk =>
    dropQueues_memWf ?_))
  dsimp only
  split
  · exact hk
  · exact holdBand_memWf hk

theorem abortWith_memWf {c cause contained adds} (h : s.MemWf) : (abortWith s c cause contained adds).MemWf := abortAs_memWf h

theorem abortCtx_memWf {c cause} (h : s.MemWf) : (abortCtx s c cause).MemWf := abortWith_memWf h

theorem trapOut_memWf {cause} (h : s.MemWf) : OutMemWf (trapOut s cause) := abortCtx_memWf h

theorem suspendCtx_memWf {c w} (h : s.MemWf) : (suspendCtx s c w).MemWf := report_memWf (modCtxAt_memWf h)

theorem faultOut_memWf {w} (h : s.MemWf) : OutMemWf (faultOut s w) := suspendCtx_memWf h

theorem sigTrap_memWf {op} (h : s.MemWf) : (sigTrap s op).MemWf := modCtx_memWf h

theorem activate_memWf {c : CtxNo} {r : Record} {g : Nat} (h : s.MemWf) : (activate s c r g).MemWf := by
  unfold activate
  extract_lets t n off ds isMsg s1
  have h1 : s1.MemWf := by
    refine modCore_memWf (noteAccess_memWf h) fun k hk => freshWords_memWf (hk.withMem ?_ rfl rfl)
    clear_value off
    generalize leBytes 16 0 = bs
    exact wrBytes_wf _ _ _ (mem_memWf hk)
  clear_value s1
  exact modCtxAt_memWf h1

/-! ### Accesses of the memory of the package (Machine/Fabric.lean) -/

theorem atOwnPort_memWf {f : State → Out} {p kind addr} (h : s.MemWf) (hf : ∀ t, t.MemWf → OutMemWf (f t)) :
    OutMemWf (atOwnPort s p kind addr f) := by
  unfold atOwnPort
  dsimp only
  split
  · exact stallOut_memWf h
  · exact hf _ (noteAccess_memWf h)

theorem setErasure_memWf {rank e} (h : s.MemWf) : (setErasure s rank e).MemWf := h.frame rfl rfl rfl

theorem setErrs_memWf {w errs} (h : s.MemWf) : (setErrs s w errs).MemWf := h.frame rfl rfl rfl

theorem countHalves_memWf {hs} (h : s.MemWf) : (countHalves s hs).MemWf := foldl_memWf h fun _ _ => setErasure_memWf

theorem countReads_memWf {as} (h : s.MemWf) : (countReads s as).MemWf := by
  unfold countReads
  split
  · exact h
  · exact countHalves_memWf h

theorem countLine_memWf {l} (h : s.MemWf) : (countLine s l).MemWf := by
  unfold countLine
  split
  · exact h
  · exact countHalves_memWf h

theorem setPoison_memWf {half on} (h : s.MemWf) : (s.setPoison half on).MemWf := h.frame rfl rfl rfl

theorem mergeHalf_memWf {cs : List Host.Cell} {bad : Bool} {k : Nat} (h : s.MemWf) :
    (mergeHalf cs bad s k).MemWf := by
  have hd := mergeHalf_wf cs bad s k (dram_memWf h)
  revert hd
  unfold mergeHalf
  dsimp only
  split
  · exact fun hd => ⟨hd, h.2⟩
  · split
    · exact fun _ => h
    · exact fun hd => ⟨hd, h.2⟩

theorem noteRaw_memWf {l raw} (h : s.MemWf) : (noteRaw s l raw).MemWf := h.frame rfl rfl rfl

theorem writeLineCells_memWf {cs l} (h : s.MemWf) : (writeLineCells cs s l).MemWf := by
  unfold writeLineCells
  dsimp only
  split
  · exact noteRaw_memWf (foldl_memWf h fun _ _ => mergeHalf_memWf)
  · exact noteRaw_memWf (foldl_memWf (foldl_memWf (countLine_memWf h) fun _ _ => mergeHalf_memWf) fun _ _ => setErrs_memWf)

theorem chanWrite_memWf {cs} (h : s.MemWf) : (chanWrite s cs).MemWf := foldl_memWf h fun _ _ => writeLineCells_memWf

theorem chanUpdate_memWf {as cs} (h : s.MemWf) : (chanUpdate s as cs).MemWf := chanWrite_memWf (countReads_memWf h)

theorem walkNotes_memWf {die : BitVec 2} {t : Tag} {va : Nat} (h : s.MemWf) :
    OptMemWf (walkNotes s die t va) := by
  unfold walkNotes
  refine foldl_optMemWf (o := some s) h fun u a hu => bind_memWf hu fun v hv => ?_
  dsimp only
  split
  · trivial
  · exact noteAccess_memWf (countReads_memWf hv)

theorem badTable_memWf {c contained va} (h : s.MemWf) : (badTable s c contained va).MemWf := by
  unfold badTable
  split
  · exact h
  · exact report_memWf h

theorem translateHere_memWf {t acc va} (h : s.MemWf) : (translateHere s t acc va).2.MemWf := by
  unfold translateHere
  dsimp only
  split
  · split <;> exact h
  · split
    · split <;> exact modCore_memWf h fun _ hk => hk
    · split
      · exact h
      · have ht : State.MemWf _ := (walkNotes_memWf h).of_some ‹_›
        split
        · exact ht
        · exact badTable_memWf ht
        · split
          · split <;> exact modDie_memWf (modCore_memWf ht fun _ hk => hk)
          · exact ht

theorem translate_memWf {t limit acc va n} (h : s.MemWf) : (translate s t limit acc va n).2.MemWf := by
  unfold translate
  split
  · exact h
  · split
    · exact translateHere_memWf h
    · exact h

theorem performDrain_memWf {l} (h : s.MemWf) : (performDrain s l).MemWf := by
  unfold performDrain
  dsimp only
  split
  · exact chanWrite_memWf (noteAccess_memWf h)
  · exact report_memWf (noteAccess_memWf h)

theorem drainLine_memWf {n} (h : s.MemWf) : (drainLine s n).MemWf := by
  unfold drainLine
  split
  · exact h
  · dsimp only
    split
    · exact h
    · split
      · exact modCore_memWf h fun _ hk => hk
      · split
        · split
          · exact modCore_memWf (h.frame rfl rfl rfl) fun _ hk => hk
          · exact modCore_memWf h fun _ hk => hk
        · split
          · exact modCore_memWf h fun _ hk => hk
          · exact performDrain_memWf (modCore_memWf h fun _ hk => hk)
    · split
      · exact modCore_memWf h fun _ hk => hk
      · split
        · split
          · exact modCore_memWf (h.frame rfl rfl rfl) fun _ hk => hk
          · exact modCore_memWf h fun _ hk => hk
        · split
          · exact modCore_memWf h fun _ hk => hk
          · exact performDrain_memWf (modCore_memWf h fun _ hk => hk)

theorem drainSome_memWf {p : GLine → Bool} {fuel : Nat} (h : s.MemWf) :
    (drainSome p fuel s).MemWf := by
  induction fuel generalizing s with
  | zero => exact h
  | succ fuel ih =>
    simp only [drainSome]
    split
    · exact h
    · exact ih (drainLine_memWf h)

theorem drainWhere_memWf {p} (h : s.MemWf) : (drainWhere s p).MemWf := drainSome_memWf h

theorem gatherRoom_memWf {p} (h : s.MemWf) : (gatherRoom p s).1.MemWf := by
  unfold gatherRoom
  split
  · exact h
  · dsimp only
    split
    · split
      · exact modCtx_memWf (drainSome_memWf h)
      · exact modCtx_memWf (modCore_memWf (modCtx_memWf (drainSome_memWf h)) fun _ hk => hk)
    · split
      · exact h
      · exact modCtx_memWf (modCore_memWf h fun _ hk => hk)

theorem gatherByte_memWf {p a} (h : s.MemWf) : (gatherByte p a s).MemWf :=
  modCtx_memWf (drainWhere_memWf (modCore_memWf h fun _ hk => hk))

theorem gatherCells_memWf {cs : List (LinePlace × Byte)} (h : s.MemWf) :
    (gatherCells cs s).1.MemWf := by
  induction cs generalizing s with
  | nil => exact h
  | cons c cs ih =>
    simp only [gatherCells]
    split
    · exact ih (gatherByte_memWf (fst_memWf (gatherRoom_memWf h) ‹_›))
    · exact fst_memWf (gatherRoom_memWf h) ‹_›

/-! ### Barriers (Machine/Barrier.lean) -/

theorem setBar_memWf {n b} (h : s.MemWf) : (s.setBar n b).MemWf := h.frame rfl rfl rfl

theorem onWaiters_memWf {n f} (h : s.MemWf) : (onWaiters s n f).MemWf :=
  foldl_memWf h fun _ _ ht => onCore_memWf ht fun _ ht1 => clockUpdate_memWf (modCore_memWf ht1 fun _ hk => hk)

theorem holdIfShed_memWf {n} (h : s.MemWf) : (holdIfShed s n).MemWf := by
  unfold holdIfShed
  dsimp only
  split
  · exact onWaiters_memWf (setBar_memWf h)
  · exact h

theorem signalArrival_memWf {n c} (h : s.MemWf) : (signalArrival s n c).MemWf := by
  unfold signalArrival
  dsimp only
  split
  · exact h
  · exact holdIfShed_memWf (setBar_memWf h)

theorem leaveCore_memWf {c} (h : s.MemWf) : (leaveCore s c).MemWf := by
  refine modCtxAt_memWf ?_
  split
  · exact modCore_memWf h fun _ => freeFrameAt_memWf
  · exact h

theorem unparkCtx_memWf {id c} (h : s.MemWf) : (unparkCtx id s c).MemWf := by
  unfold unparkCtx
  dsimp only
  split
  · exact modCtxAt_memWf (endD0_memWf h)
  · exact h

theorem unparkCore_memWf {id l c} (h : s.MemWf) : (unparkCore id l s c).MemWf := by
  refine onCore_memWf h fun _ ht => ?_
  dsimp only
  split
  · exact clockUpdate_memWf (foldl_memWf ht fun _ _ => unparkCtx_memWf)
  · exact modCore_memWf ht fun _ hk => hk

theorem completePhase_memWf {n} (h : s.MemWf) : (completePhase s n).MemWf := by
  unfold completePhase
  dsimp only
  split
  · exact modDie_memWf (foldl_memWf (onWaiters_memWf (setBar_memWf h)) fun _ _ => unparkCore_memWf)
  · exact onWaiters_memWf (setBar_memWf h)

theorem redAddr_memWf {t : State} {r : PodRed} {a : Word} {o : Option Nat} (h : s.MemWf) (e : redAddr s r a = some (o, t)) :
    t.MemWf := by
  unfold redAddr at e
  obtain ⟨u, hu, e⟩ := Option.map_eq_some_iff.mp e
  cases e
  exact (walkNotes_memWf h).of_some hu

theorem podSource_memWf {t : State} {id : Nat} {x : Word} (h : s.MemWf) (e : podSource s id = some (x, t)) :
    t.MemWf := by
  unfold podSource at e
  dsimp only at e
  split at e
  · cases e
    exact h
  · split at e
    · cases e
    · have hu : State.MemWf _ := redAddr_memWf h ‹_›
      cases e
      exact report_memWf (hu.frame rfl rfl rfl)
    · obtain ⟨v, hv, e⟩ := Option.map_eq_some_iff.mp e
      have hw : v.MemWf := (seenAt_memWf (redAddr_memWf h ‹_›)).of_some hv
      split at e
      · cases e
        exact report_memWf (hw.frame rfl rfl rfl)
      · cases e
        exact countReads_memWf hw

theorem podComplete_memWf {n a} (h : s.MemWf) : OptMemWf (podComplete s n a) := by
  unfold podComplete
  dsimp only
  split
  · exact completePhase_memWf (h.frame rfl rfl rfl)
  · split
    · trivial
    · have hu : State.MemWf _ := redAddr_memWf h ‹_›
      exact completePhase_memWf (hu.sameMem rfl rfl rfl rfl rfl)
    · exact map_memWf (seenAt_memWf (redAddr_memWf h ‹_›)) fun _ ht =>
        completePhase_memWf ((chanWrite_memWf ht).frame rfl rfl rfl)

theorem podArrive_memWf {n pkg a} (h : s.MemWf) : (podArrive s n pkg a).MemWf := by
  unfold podArrive
  dsimp only
  split
  · exact getD_memWf (podComplete_memWf (h.sameMem rfl rfl rfl rfl rfl)) (h.sameMem rfl rfl rfl rfl rfl)
  · exact h.sameMem rfl rfl rfl rfl rfl

theorem podKeep_memWf {n a} (h : s.MemWf) : (podKeep s n a).MemWf := h.sameMem rfl rfl rfl rfl rfl

theorem tryCompletion_memWf {n : BarNo} (h : s.MemWf) :
    OptMemWf (tryCompletion s n) := by
  unfold tryCompletion
  dsimp only
  split
  · exact podComplete_memWf h
  · split
    · split
      · cases e : podSource s (barId n) with
        | none => trivial
        | some r =>
          have hr : (r.2.setBar n { s.bar n with told := true }).MemWf := setBar_memWf (podSource_memWf h e)
          dsimp only [Option.map]
          split
          · exact podArrive_memWf hr
          · exact hr.frame rfl rfl rfl
      · exact completePhase_memWf h
    · trivial

theorem leaveBarriers_memWf {c} (h : s.MemWf) : (leaveBarriers s c).MemWf := by
  refine foldl_memWf h fun _ _ ht => ?_
  dsimp only
  split
  · exact holdIfShed_memWf (setBar_memWf ht)
  · exact setBar_memWf ht

/-! ### Messages and the inbox (Machine/Inbox.lean) -/

theorem putRecord_memWf {r payload} (h : s.MemWf) : (putRecord s r payload).MemWf :=
  clockUpdate_memWf (modCore_memWf h fun _ hk => freshWords_memWf (wrBytes_memWf hk rfl rfl rfl))

theorem lookEntry_memWf {i} (h : s.MemWf) : OptMemWf (lookEntry s i) := seenAt_memWf h

theorem tryPost_memWf {p} (h : s.MemWf) : OptMemWf (tryPost s p) := by
  unfold tryPost
  split
  · exact report_memWf h
  · refine bind_memWf (lookEntry_memWf h) fun _ ht => ?_
    dsimp only
    split
    · exact report_memWf ht
    · split
      · exact report_memWf ht
      · split
        · trivial
        · exact map_memWf (seenAt_memWf ht) fun _ => putRecord_memWf

theorem postTask_memWf {p} (h : s.MemWf) : (postTask s p).MemWf := by
  unfold postTask
  split
  · split
    · exact (tryPost_memWf h).of_some ‹_›
    · exact modCore_memWf h fun _ hk => hk
  · exact modCore_memWf h fun _ hk => hk

theorem countdown_memWf {a n user} (h : s.MemWf) : (countdown s a n user).MemWf := by
  unfold countdown
  dsimp only
  split
  · exact report_memWf h
  · split
    · exact h
    · split
      · exact postTask_memWf (modCore_memWf h fun _ hk => wrBytes_memWf hk rfl rfl rfl)
      · exact modCore_memWf h fun _ hk => wrBytes_memWf hk rfl rfl rfl

theorem sendPkt_memWf {p} (h : s.MemWf) : (s.sendPkt p).MemWf := h.frame rfl rfl rfl

theorem releaseAt_memWf {a src} (h : s.MemWf) : (releaseAt s a src).MemWf := by
  unfold releaseAt
  dsimp only
  split
  · exact report_memWf h
  · split
    · refine modCore_memWf ?_ fun _ hk => wrBytes_memWf hk rfl rfl rfl
      split
      · refine postTask_memWf (modCore_memWf h fun _ hk => ?_)
        split
        · exact freeFrameAt_memWf hk
        · exact hk
      · refine modCore_memWf h fun _ hk => ?_
        split
        · exact freeFrameAt_memWf hk
        · exact hk
    · exact modCore_memWf h fun _ hk => wrBytes_memWf hk rfl rfl rfl

theorem incrementAt_memWf {a n src} (h : s.MemWf) : (incrementAt s a n src).MemWf := by
  unfold incrementAt
  dsimp only
  split
  · exact report_memWf h
  · exact modCore_memWf h fun _ hk => wrBytes_memWf hk rfl rfl rfl

theorem ownIncrement_memWf {a} (h : s.MemWf) : (ownIncrement s a).MemWf :=
  modCore_memWf h fun _ hk => wrBytes_memWf hk rfl rfl rfl

theorem releaseFabric_memWf {pa src} (h : s.MemWf) : (releaseFabric s pa src).MemWf := by
  unfold releaseFabric
  split
  · exact report_memWf h
  · dsimp only
    split
    · exact report_memWf (countReads_memWf h)
    · split
      · refine chanWrite_memWf ?_
        split
        · split
          · exact h.sameMem rfl rfl rfl rfl rfl
          · exact report_memWf h
        · exact h
      · exact chanWrite_memWf h

theorem incrementFabric_memWf {pa n src} (h : s.MemWf) : (incrementFabric s pa n src).MemWf := by
  unfold incrementFabric
  split
  · exact report_memWf h
  · dsimp only
    split
    · exact report_memWf (countReads_memWf h)
    · exact chanWrite_memWf h

theorem acceptValid_memWf {grp m p e} (h : s.MemWf) : AcceptMemWf (acceptValid s grp m p e) := by
  unfold acceptValid
  split
  · exact h
  · dsimp only
    split
    · exact h
    · split
      · trivial
      · exact putRecord_memWf ((seenAt_memWf h).of_some ‹_›)

theorem acceptMsg_memWf {grp m p} (h : s.MemWf) : AcceptMemWf (acceptMsg s grp m p) := by
  unfold acceptMsg
  split
  · exact postTask_memWf h
  · split
    · trivial
    · dsimp only
      split
      · exact acceptValid_memWf ((lookEntry_memWf h).of_some ‹_›)
      · split
        · exact modCore_memWf ((lookEntry_memWf h).of_some ‹_›) fun _ hk => hk
        · exact (lookEntry_memWf h).of_some ‹_›

/-! ### Sampler coding (Machine/Sampler.lean) -/

theorem codeMsg_memWf {dst m} (h : k.MemWf) : (codeMsg k dst m).2.MemWf := by
  unfold codeMsg
  split
  · exact h
  · dsimp only
    split <;> split <;> exact h

theorem codeFrom_memWf {src dst m} (h : s.MemWf) : (codeFrom s src dst m).2.MemWf := by
  unfold codeFrom
  dsimp only
  split
  · exact setCore_memWf h (codeMsg_memWf (coreAt_memWf h))
  · exact h

/-! ### Launches in flight, ends of tasks and killed cores (Machine/Kill.lean) -/

theorem takeId_memWf {c} (h : s.MemWf) : (takeId s c).2.MemWf := modCoreAt_memWf h fun _ hk => hk

theorem hostReport_memWf {kind data} (h : s.MemWf) : (hostReport s kind data).MemWf := h.frame rfl rfl rfl

theorem reportDiscard_memWf {c cause id com} (h : s.MemWf) : (reportDiscard s c cause id com).MemWf :=
  hostReport_memWf (report_memWf h)

theorem slowUpdate_memWf {c} (h : s.MemWf) : (slowUpdate s c).MemWf := by
  unfold slowUpdate
  dsimp only
  split
  · exact h
  · exact onCore_memWf h fun _ ht => clockUpdate_memWf (modCore_memWf ht fun _ hk => hk)

theorem codeOp_memWf {src dst a} (h : s.MemWf) : (codeOp s src dst a).2.MemWf := by
  unfold codeOp
  split
  · exact codeFrom_memWf h
  · exact h

theorem sendFrom_memWf {src who dst op} (h : s.MemWf) : (sendFrom s src who dst op).MemWf :=
  (codeOp_memWf h).sameMem rfl rfl rfl rfl rfl

theorem launchDone_memWf {d f} (h : s.MemWf) : (launchDone s d f).MemWf := by
  unfold launchDone
  dsimp only
  split
  · exact h
  · exact sendFrom_memWf h

theorem closeFlights_memWf {d} (h : s.MemWf) : (closeFlights s d).MemWf :=
  foldl_memWf (modDie_memWf h) fun _ _ => launchDone_memWf

theorem endTask_memWf {d id c} (h : s.MemWf) : (endTask s d id c).MemWf :=
  closeFlights_memWf (slowUpdate_memWf (modDie_memWf h))

theorem placeAgain_memWf {d id c} (h : s.MemWf) : (placeAgain s d id c).MemWf := by
  unfold placeAgain
  split
  · exact h
  · exact slowUpdate_memWf (modDie_memWf h)

theorem coreEvent_memWf {dst block} (h : s.MemWf) : (coreEvent s dst block).MemWf := by
  unfold coreEvent
  split
  · exact h
  · exact sendFrom_memWf (takeId_memWf h)

theorem powerEvents_memWf {kind cls floor} (h : s.MemWf) : (powerEvents s kind cls floor).MemWf :=
  foldl_memWf h fun _ _ => coreEvent_memWf

theorem endLaunch_memWf {c r} (h : s.MemWf) : (endLaunch s c r).MemWf := by
  unfold endLaunch
  split
  · exact h
  · exact endTask_memWf h

theorem restartRecord_memWf {c q} (hs : s.MemWf) : (restartRecord c k s q).MemWf := by
  unfold restartRecord
  dsimp only
  split
  · exact endLaunch_memWf (reportDiscard_memWf hs)
  · split
    · split
      · exact endLaunch_memWf hs
      · exact placeAgain_memWf hs
    · split
      · exact sendFrom_memWf hs
      · exact reportDiscard_memWf hs

theorem loseNumber_memWf {c : CoreId} (h : s.MemWf) :
    (loseNumber s c).MemWf := by
  unfold loseNumber
  extract_lets old last holder moved s1 s2 block
  clear_value holder
  have h1 : s1.MemWf := by
    unfold s1
    split
    · exact h
    · exact h.frame rfl rfl rfl
  have h2 : s2.MemWf := h1.frame rfl rfl rfl
  exact foldl_memWf h2 fun _ _ => coreEvent_memWf

theorem deadCore_memWf {now} (h : k.MemWf) : (deadCore now k).MemWf := h

theorem endSignalled_memWf {c} (h : s.MemWf) : (endSignalled s c k).MemWf := foldl_memWf h fun _ _ => endTask_memWf

theorem killCore_memWf (h : s.MemWf) : (killCore s).MemWf := by
  unfold killCore
  extract_lets c k gone s1 s2 s3 s5 pricks s4 s6
  split
  · exact h
  · have h1 : s1.MemWf := modCore_memWf h fun _ => deadCore_memWf
    have h2 : s2.MemWf := by
      unfold s2
      split
      · exact h1
      · exact sendPkt_memWf h1
    have h3 : s3.MemWf := report_memWf h2
    split
    · exact loseNumber_memWf (leaveBarriers_memWf (endSignalled_memWf
        (foldl_memWf (foldl_memWf h3 fun _ _ => restartRecord_memWf) fun _ _ => endLaunch_memWf)))
    · have h4 : s4.MemWf := modDie_memWf h3
      split
      · have h6 : s6.MemWf := hostReport_memWf (report_memWf h4)
        exact h6.frame rfl rfl rfl
      · split
        · exact h4
        · exact modCoreAt_memWf h4 fun _ hk => hk

theorem taking_memWf {f : State → State} {m n as} (h : s.MemWf) (hf : ∀ t, t.MemWf → (f t).MemWf) :
    (taking s m n as f).MemWf := by
  unfold taking
  split
  · exact killCore_memWf (fst_memWf (consume_memWf h) ‹_›)
  · exact hf _ (fst_memWf (consume_memWf h) ‹_›)

theorem killOut_memWf (h : s.MemWf) : OutMemWf (killOut s) := killCore_memWf h

/-! ### Significance events (Machine/Flags.lean) -/

theorem sigEvent_memWf {e vec} (h : s.MemWf) : OutMemWf (sigEvent s e vec) := by
  unfold sigEvent
  dsimp only
  split
  · exact abortCtx_memWf (modCtx_memWf (modCtx_memWf h))
  · split
    · split
      · exact abortCtx_memWf (modCtx_memWf (modCtx_memWf h))
      · exact sigTrap_memWf (modCtx_memWf h)
    · exact done_memWf (modCtx_memWf h)

theorem checked_memWf {es vec} (h : s.MemWf) : OutMemWf (checked s es vec) := by
  unfold checked
  dsimp only
  split
  · exact done_memWf h
  · split
    · exact done_memWf h
    · exact sigEvent_memWf h

/-! ### Operand forms (Machine/Operands.lean) -/

theorem loadDone_memWf {d bs} (h : s.MemWf) : OutMemWf (loadDone s d bs) := done_memWf (modCtx_memWf h)

theorem consuming_memWf {f : State → Out} {m n as} (h : s.MemWf) (hf : ∀ t, t.MemWf → OutMemWf (f t)) :
    OutMemWf (consuming s m n as f) := by
  unfold consuming
  split
  · exact killOut_memWf (fst_memWf (consume_memWf h) ‹_›)
  · exact hf _ (fst_memWf (consume_memWf h) ‹_›)

theorem rewriting_memWf {f : State → Out} {m n cs} (h : s.MemWf) (hf : ∀ t, t.MemWf → OutMemWf (f t)) :
    OutMemWf (rewriting s m n cs f) := by
  unfold rewriting
  split
  · exact killOut_memWf (fst_memWf (rewrite_memWf h) ‹_›)
  · exact hf _ (fst_memWf (rewrite_memWf h) ‹_›)

theorem loadLocal_memWf {d as} (h : s.MemWf) : OutMemWf (loadLocal s d as) :=
  atOwnPort_memWf h fun _ ht => consuming_memWf ht fun _ => loadDone_memWf

theorem loadRemote_memWf {c d as} (h : s.MemWf) : OutMemWf (loadRemote s c d as) := by
  unfold loadRemote
  dsimp only
  split
  · exact loadDone_memWf h
  · exact stallOut_memWf (modCtx_memWf (h.sameMem rfl rfl rfl rfl rfl))

theorem askAway_memWf {pkg va op p} (h : s.MemWf) : OutMemWf (askAway s pkg va op p) := by
  unfold askAway
  split
  · exact stallOut_memWf (modCtx_memWf (h.frame rfl rfl rfl))
  · exact abortWith_memWf h

theorem loadAway_memWf {d fwd asks} (h : s.MemWf) : OutMemWf (loadAway s d fwd asks) := by
  unfold loadAway
  split
  · exact loadDone_memWf h
  · exact askAway_memWf h

theorem xlateTrap_memWf {va a} (h : s.MemWf) : OutMemWf (xlateTrap s va a) := by
  unfold xlateTrap
  split
  · exact faultOut_memWf h
  · exact abortWith_memWf h
  · exact trapOut_memWf h
  · exact stallOut_memWf h
  · exact stallOut_memWf h
  · exact stallOut_memWf h

theorem atChannel_memWf {f : State → Out} {kind va pa} (h : s.MemWf) (hf : ∀ t, t.MemWf → OutMemWf (f t)) :
    OutMemWf (atChannel s kind va pa f) := by
  unfold atChannel
  dsimp only
  split
  · exact xlateTrap_memWf h
  · split
    · exact stallOut_memWf h
    · split
      · exact hf _ (noteAccess_memWf h)
      · exact xlateTrap_memWf (noteAccess_memWf h)

theorem loadFabric_memWf {hoop d va n} (h : s.MemWf) : OutMemWf (loadFabric s hoop d va n) := by
  unfold loadFabric
  extract_lets x tg
  split
  · next pa t e =>
    have ht : t.MemWf := snd_memWf (translate_memWf h) e
    extract_lets off fwd
    clear_value fwd
    split
    · exact loadDone_memWf ht
    · refine atChannel_memWf ht fun _ hu => ?_
      dsimp only
      split
      · exact killOut_memWf (countReads_memWf hu)
      · exact loadDone_memWf (countReads_memWf hu)
  · next pkg t e =>
    have ht : t.MemWf := snd_memWf (translate_memWf h) e
    extract_lets fwd
    clear_value fwd
    split
    · exact loadDone_memWf ht
    · exact loadAway_memWf ht
  · exact xlateTrap_memWf (snd_memWf (translate_memWf h) ‹_›)

theorem scalarLoad_memWf {a n d} (h : s.MemWf) : OutMemWf (scalarLoad s a n d) := by
  unfold scalarLoad
  split
  · exact trapOut_memWf h
  · split
    · exact loadLocal_memWf h
    · exact atOwnPort_memWf h fun _ ht => consuming_memWf ht fun _ => loadDone_memWf
    · split
      · exact loadRemote_memWf h
      · exact trapOut_memWf h
    · exact loadFabric_memWf h
    · exact trapOut_memWf h
    · exact trapOut_memWf h
    · exact trapOut_memWf h
    · exact trapOut_memWf h

theorem storeLocal_memWf {cs} (h : s.MemWf) : OutMemWf (storeLocal s cs) :=
  atOwnPort_memWf h fun _ ht => rewriting_memWf ht fun _ ht1 => done_memWf (modCore_memWf ht1 fun _ hk =>
    wrCells_memWf hk rfl rfl rfl)

theorem gathering_memWf {cs} (h : s.MemWf) : OutMemWf (gathering s cs) := by
  unfold gathering
  split
  · exact done_memWf (modCtx_memWf (fst_memWf (gatherCells_memWf h) ‹_›))
  · exact stallOut_memWf (modCtx_memWf (fst_memWf (gatherCells_memWf h) ‹_›))

theorem storingOr_memWf {a : Out} (h : s.MemWf) (ha : OutMemWf a) : OutMemWf (storingOr s a) := by
  unfold storingOr
  split
  · exact gathering_memWf h
  · exact ha

theorem storeFabric_memWf {va bs} (h : s.MemWf) : OutMemWf (storeFabric s va bs) := by
  unfold storeFabric
  dsimp only
  split
  · exact gathering_memWf (snd_memWf (translate_memWf h) ‹_›)
  · exact gathering_memWf (snd_memWf (translate_memWf h) ‹_›)
  · exact xlateTrap_memWf (snd_memWf (translate_memWf h) ‹_›)

theorem scalarStore_memWf {a bs word} (h : s.MemWf) : OutMemWf (scalarStore s a bs word) := by
  unfold scalarStore
  split
  · exact trapOut_memWf h
  · split
    · exact storeLocal_memWf h
    · split
      · exact placing_memWf h fun _ => done_memWf
      · exact trapOut_memWf h
    · split
      · exact placing_memWf h fun _ => done_memWf
      · exact trapOut_memWf h
    · exact storingOr_memWf h (storeFabric_memWf h)
    · exact trapOut_memWf h
    · exact trapOut_memWf h
    · exact trapOut_memWf h
    · exact trapOut_memWf h

theorem fenceW_memWf (h : s.MemWf) : (fenceW s).1.MemWf := drainWhere_memWf (commit_memWf h)

theorem xfence_memWf (h : s.MemWf) : (xfence s).1.MemWf := drainWhere_memWf (commit_memWf h)

theorem afterFenceW_memWf {f : State → Out} (h : s.MemWf) (hf : ∀ t, t.MemWf → OutMemWf (f t)) :
    OutMemWf (afterFenceW s f) := by
  unfold afterFenceW
  split
  · exact hf _ (fst_memWf (fenceW_memWf h) ‹_›)
  · exact stallOut_memWf (fst_memWf (fenceW_memWf h) ‹_›)

/-! ### Integer forms (Machine/Int.lean) -/

theorem intRR_memWf {d a b f} (h : s.MemWf) : OutMemWf (intRR d a b f s) := done_memWf (setG_memWf h)

theorem intR_memWf {d a f} (h : s.MemWf) : OutMemWf (intR d a f s) := done_memWf (setG_memWf h)

/-! ### Scalar loads, stores and atomics (Machine/LoadStore.lean) -/

theorem sendAtomic_memWf {a op d} (h : s.MemWf) : OutMemWf (sendAtomic s a op d) :=
  placing_memWf h fun _ ht => stallOut_memWf (modCtx_memWf (commit_memWf ht))

theorem atomicAt_memWf {fn d a b sc z} (h : s.MemWf) : OutMemWf (atomicAt fn d a b sc z s) := by
  unfold atomicAt
  extract_lets A B E x
  split
  · exact trapOut_memWf h
  · split
    · refine atOwnPort_memWf h fun _ ht => consuming_memWf ht fun u hu => done_memWf (setG_memWf ?_)
      exact modCore_memWf hu fun _ hk =>
        freshWords_memWf (hk.withMem (amoAt_wf _ _ _ _ _ _ (mem_memWf (core_memWf hu))) rfl rfl)
    · split
      · exact sendAtomic_memWf h
      · exact trapOut_memWf h
    · have hx {t r va} (e : translate s (ctxTag x) x.stacklimit .atomic va (sizeBytes z) = (r, t)) : t.MemWf :=
        snd_memWf (translate_memWf h) e
      split
      case h_1 | h_2 | h_3 => exact trapOut_memWf h
      all_goals
        split
        · exact sendAtomic_memWf (drainWhere_memWf (hx ‹_›))
        · split
          · exact sendAtomic_memWf (drainWhere_memWf (hx ‹_›))
          · exact trapOut_memWf (hx ‹_›)
        · exact xlateTrap_memWf (hx ‹_›)
    all_goals exact trapOut_memWf h

theorem amo_memWf {fn d a b sc o z} (h : s.MemWf) : OutMemWf (amo fn d a b sc o z s) := by
  unfold amo
  split
  · exact afterFenceW_memWf h fun _ => atomicAt_memWf
  · exact afterFenceW_memWf h fun _ => atomicAt_memWf
  · exact atomicAt_memWf h
  · exact atomicAt_memWf h

/-! ### Scalar floating point (Machine/Float.lean) -/

theorem putF_memWf {d r} (h : s.MemWf) : (putF s d r).MemWf := setGC_memWf h

theorem fpChecked_memWf {d f r srcs} (h : s.MemWf) : OutMemWf (fpChecked s d f r srcs) := checked_memWf (putF_memWf h)

theorem fp2_memWf {op d a b p r} (h : s.MemWf) : OutMemWf (fp2 op d a b p r s) := fpChecked_memWf h

theorem fp1_memWf {op d a p r} (h : s.MemWf) : OutMemWf (fp1 op d a p r s) := fpChecked_memWf h

theorem stepLfsr_memWf {r} (h : s.MemWf) : (stepLfsr s r).MemWf := by
  unfold stepLfsr
  split
  · exact modCtx_memWf h
  · exact h

theorem fcpsOp_memWf {g d a b p} (h : s.MemWf) : OutMemWf (fcpsOp g d a b p s) := done_memWf (putF_memWf h)

theorem fcmp_memWf {g d a b p} (h : s.MemWf) : OutMemWf (fcmp g d a b p s) := done_memWf (setG_memWf h)

theorem fcvtToInt_memWf {nat d a p r} (h : s.MemWf) : OutMemWf (fcvtToInt nat d a p r s) := done_memWf (setG_memWf h)

theorem fcvtFromInt_memWf {nat d a p r} (h : s.MemWf) : OutMemWf (fcvtFromInt nat d a p r s) :=
  done_memWf (putF_memWf (stepLfsr_memWf h))

theorem fp3_memWf {n5 n4 d a b c p r} (h : s.MemWf) : OutMemWf (fp3 n5 n4 d a b c p r s) := fpChecked_memWf h

theorem execFcvtp_memWf {d a p r} (h : s.MemWf) : OutMemWf (execFcvtp d a p r s) := by
  unfold execFcvtp
  split
  · exact fpChecked_memWf (stepLfsr_memWf h)
  · exact fpChecked_memWf h

/-! ### Frame slots and references (Machine/Frame.lean) -/

theorem loadSlot_memWf {d n slot} (h : s.MemWf) : OutMemWf (loadSlot d n slot s) := by
  unfold loadSlot
  split
  · exact trapOut_memWf h
  · exact loadLocal_memWf h
  · exact loadRemote_memWf h
  · exact loadFabric_memWf h

theorem storeSlot_memWf {d n slot} (h : s.MemWf) : OutMemWf (storeSlot d n slot s) := by
  unfold storeSlot
  dsimp only
  split
  · exact trapOut_memWf h
  · split
    · exact atOwnPort_memWf h fun _ ht => consuming_memWf ht fun _ ht1 => done_memWf (modCore_memWf ht1 fun _ hk =>
        freshWords_memWf (wrBytes_memWf hk rfl rfl rfl))
    · exact storeLocal_memWf h
  · exact placing_memWf h fun _ => done_memWf
  · split
    · exact placing_memWf (snd_memWf (translate_memWf h) ‹_›) fun _ => done_memWf
    · exact placing_memWf (snd_memWf (translate_memWf h) ‹_›) fun _ => done_memWf
    · exact xlateTrap_memWf (snd_memWf (translate_memWf h) ‹_›)

theorem execStfr_memWf {d n slot} (h : s.MemWf) : OutMemWf (execStfr d n slot s) := by
  unfold execStfr
  split
  · exact trapOut_memWf h
  · exact afterFenceW_memWf h fun _ => storeSlot_memWf
  · exact afterFenceW_memWf h fun _ => storeSlot_memWf
  · split
    · exact afterFenceW_memWf (snd_memWf (translate_memWf h) ‹_›) fun _ => storeSlot_memWf
    · exact afterFenceW_memWf (snd_memWf (translate_memWf h) ‹_›) fun _ => storeSlot_memWf
    · exact xlateTrap_memWf (snd_memWf (translate_memWf h) ‹_›)

theorem execFadr_memWf {d n slot} (h : s.MemWf) : OutMemWf (execFadr d n slot s) := by
  unfold execFadr
  split
  · exact trapOut_memWf h
  · exact done_memWf (setG_memWf h)
  · exact done_memWf (setG_memWf h)
  · exact done_memWf (setG_memWf h)

theorem refAim_memWf {d : Word} (h : s.MemWf) :
    (refAim s d).2.MemWf := by
  unfold refAim
  split
  · exact h
  · split
    · split
      · exact h
      · exact h
    · split
      · exact snd_memWf (translate_memWf h) ‹_›
      · exact snd_memWf (translate_memWf h) ‹_›
      · exact snd_memWf (translate_memWf h) ‹_›

/-- What ends an instruction whose reference cannot be made. -/
theorem refAim_stop_memWf {t u : State} {d : Word} {o : State → Out} (e : refAim s d = (.stop o, t)) (h : u.MemWf) :
    OutMemWf (o u) := by
  unfold refAim at e
  split at e
  · cases e
    exact trapOut_memWf h
  · split at e
    · split at e
      · cases e
      · cases e
        exact trapOut_memWf h
    · split at e
      · cases e
      · cases e
      · cases e
        exact xlateTrap_memWf h

theorem execFkeep_memWf (h : s.MemWf) : OutMemWf (execFkeep s) := by
  refine atOwnPort_memWf h fun _ ht => consuming_memWf ht fun _ ht1 => ?_
  dsimp only
  split
  · exact done_memWf ht1
  · exact done_memWf (modCore_memWf ht1 fun _ hk => freshWords_memWf (wrBytes_memWf hk rfl rfl rfl))

theorem execFref_memWf {n} (h : s.MemWf) : OutMemWf (execFref n s) := by
  unfold execFref
  dsimp only
  split
  · split
    · exact stallOut_memWf h
    · exact done_memWf (modCtx_memWf h)
  · split
    · exact trapOut_memWf h
    · split
      · exact done_memWf h
      · split
        · exact refAim_stop_memWf ‹_› (snd_memWf (refAim_memWf h) ‹_›)
        · exact placing_memWf (snd_memWf (refAim_memWf h) ‹_›) fun _ ht =>
            stallOut_memWf (modCtx_memWf (commit_memWf ht))

theorem releaseD_memWf {n : BitVec 2} {k : State → Out} (h : s.MemWf) (hk : ∀ t, t.MemWf → OutMemWf (k t)) :
    OutMemWf (releaseD n s k) := by
  unfold releaseD
  dsimp only
  split
  · exact refAim_stop_memWf ‹_› (snd_memWf (refAim_memWf h) ‹_›)
  · have ht := snd_memWf (refAim_memWf h) ‹_›
    split
    · exact hk _ (modCtx_memWf (fst_memWf (place_memWf ht) ‹_›))
    · exact stallOut_memWf (fst_memWf (place_memWf ht) ‹_›)

theorem execFrel_memWf {n} (h : s.MemWf) : OutMemWf (execFrel n s) := by
  unfold execFrel
  split
  · exact releaseD_memWf h fun _ => done_memWf
  · exact done_memWf h

theorem execDsps_memWf {d n} (h : s.MemWf) : OutMemWf (execDsps d n s) := by
  unfold execDsps
  dsimp only
  split
  · exact releaseD_memWf h fun _ ht => done_memWf (modCtx_memWf ht)
  · exact done_memWf (modCtx_memWf h)

/-! ### The instructions that send (Machine/Message.lean) -/

theorem spawnIncs_memWf {ns : List (BitVec 2)} {acc : List Effect} (h : s.MemWf) :
    SumMemWf (spawnIncs s ns acc) := by
  induction ns generalizing s acc with
  | nil => exact h
  | cons n ns ih =>
    simp only [spawnIncs]
    split
    · split
      · exact refAim_stop_memWf ‹_› (snd_memWf (refAim_memWf h) ‹_›)
      · exact ih (snd_memWf (refAim_memWf h) ‹_›)
    · exact ih h

theorem sendMsg_memWf {d h0 arg cls cap payload incs} (h : s.MemWf) : OutMemWf (sendMsg d h0 arg cls cap payload incs s) := by
  unfold sendMsg
  dsimp only
  split
  · exact done_memWf (setG_memWf (modCore_memWf (fst_memWf (place_memWf h) ‹_›) fun _ hk => hk))
  · exact stallOut_memWf (fst_memWf (place_memWf h) ‹_›)

theorem sendPayload_memWf {f : Nat → Out} {a b okay} (h : s.MemWf) (hf : ∀ x, OutMemWf (f x)) :
    OutMemWf (sendPayload s a b okay f) := by
  unfold sendPayload
  dsimp only
  split
  · exact trapOut_memWf h
  · split
    · exact trapOut_memWf h
    · split
      · exact hf _
      · split
        · split
          · exact hf _
          · exact trapOut_memWf h
        · exact trapOut_memWf h

theorem readPayload_memWf {f : State → List Byte → Out} {off l} (h : s.MemWf) (hf : ∀ t, t.MemWf → ∀ x, OutMemWf (f t x)) :
    OutMemWf (readPayload s off l f) := by
  unfold readPayload
  split
  · exact hf _ h _
  · exact atOwnPort_memWf h fun _ ht => consuming_memWf ht fun _ ht1 => hf _ ht1 _

theorem sendFrames_memWf {d a c cls cap incs off} (h : s.MemWf) : OutMemWf (sendFrames d a c cls cap incs off s) := by
  unfold sendFrames
  extract_lets l
  generalize (if cap.isSome then 32 else 0) = n
  split
  · exact readPayload_memWf h fun _ ht _ => sendMsg_memWf ht
  · exact stallOut_memWf (commit_memWf h)

theorem execSendm_memWf {d a b c} (h : s.MemWf) : OutMemWf (execSendm d a b c s) := by
  unfold execSendm
  dsimp only
  split
  · exact trapOut_memWf h
  · split
    · exact trapOut_memWf h
    · exact sendMsg_memWf h

theorem execSpawnCap_memWf {d a b c} (h : s.MemWf) : OutMemWf (execSpawnCap d a b c s) := by
  refine sendPayload_memWf h fun _ => ?_
  split
  · exact (spawnIncs_memWf h).of_inr ‹_›
  · exact sendFrames_memWf ((spawnIncs_memWf h).of_inl ‹_›)

theorem execCdec_memWf {a b} (h : s.MemWf) : OutMemWf (execCdec a b s) := by
  unfold execCdec
  dsimp only
  split
  · exact trapOut_memWf h
  · exact placing_memWf h fun _ => done_memWf

theorem releaseIfHeld_memWf {f : State → Out} {n} (h : ∀ t, t.MemWf → OutMemWf (f t)) (hs : s.MemWf) :
    OutMemWf (releaseIfHeld n f s) := by
  unfold releaseIfHeld
  split
  · exact releaseD_memWf hs fun _ => h _
  · exact h _ hs

theorem readingLv_memWf {f : State → Out} (h : ∀ t, t.MemWf → OutMemWf (f t)) (hs : s.MemWf) : OutMemWf (readingLv f s) := by
  unfold readingLv
  split
  · exact killOut_memWf (fst_memWf (readLv_memWf hs) ‹_›)
  · exact h _ (fst_memWf (readLv_memWf hs) ‹_›)

theorem releaseOwner_memWf {f : State → Out} (h : ∀ t, t.MemWf → OutMemWf (f t)) (hs : s.MemWf) :
    OutMemWf (releaseOwner f s) := by
  unfold releaseOwner
  split
  · exact stallOut_memWf hs
  · dsimp only
    split
    · exact placing_memWf hs fun _ => readingLv_memWf (fun _ ht1 => h _ (modCtx_memWf ht1))
    · exact readingLv_memWf (fun _ => h _) hs

theorem settle_memWf {c} (h : s.MemWf) : (settle s c).MemWf := by
  unfold settle
  dsimp only
  split
  · exact h
  · split
    · exact clockUpdate_memWf (signalArrival_memWf (modCtxAt_memWf h))
    · exact h

theorem settleAll_memWf (h : s.MemWf) : (settleAll s).MemWf := foldl_memWf h fun _ _ => settle_memWf

theorem exitLast_memWf (h : s.MemWf) : OutMemWf (exitLast s) := by
  unfold exitLast
  dsimp only
  split
  · exact leaveCore_memWf (commit_memWf h)
  · exact settle_memWf (modCtx_memWf (drainWhere_memWf (commit_memWf h)))

theorem execExit_memWf (h : s.MemWf) : OutMemWf (execExit s) := by
  unfold execExit
  split
  · exact stallOut_memWf h
  · refine releaseIfHeld_memWf (fun _ ht => releaseIfHeld_memWf (fun _ ht1 => releaseIfHeld_memWf (fun _ ht2 =>
      ?_) ht1) ht) (freeHeads_memWf h)
    split
    · exact exitLast_memWf ht2
    · exact releaseOwner_memWf (fun _ => exitLast_memWf) ht2

theorem eretLast_memWf (h : s.MemWf) : OutMemWf (eretLast s) := by
  refine modCtx_memWf (modCore_memWf ?_ fun _ hk => ?_)
  · split
    · exact modCore_memWf (commit_memWf h) fun _ => freeFrameAt_memWf
    · exact commit_memWf h
  · split <;> exact hk

theorem execEret_memWf (h : s.MemWf) : OutMemWf (execEret s) := by
  unfold execEret
  split
  · exact stallOut_memWf h
  · exact releaseOwner_memWf (fun _ => eretLast_memWf) (freeHeads_memWf h)

theorem execCommitW_memWf (h : s.MemWf) : OutMemWf (execCommitW s) := by
  unfold execCommitW
  dsimp only
  split
  · exact done_memWf (commit_memWf h)
  · exact stallOut_memWf (commit_memWf h)

theorem execWfe_memWf (h : s.MemWf) : OutMemWf (execWfe s) := by
  unfold execWfe
  split
  · exact done_memWf (modCtx_memWf h)
  · exact stallOut_memWf h

theorem setLatches_memWf {m} (h : k.MemWf) : (setLatches k m).MemWf := h

theorem execSev_memWf {a} (h : s.MemWf) : OutMemWf (execSev a s) := by
  unfold execSev
  dsimp only
  split
  · exact trapOut_memWf h
  · split
    · exact done_memWf (modCore_memWf h fun _ => setLatches_memWf)
    · exact placing_memWf h fun _ => done_memWf

/-! ### Fences, barriers and queues as a context names them (Machine/Sync.lean) -/

theorem execXfence_memWf (h : s.MemWf) : OutMemWf (execXfence s) := by
  unfold execXfence
  split
  · exact done_memWf (fst_memWf (xfence_memWf h) ‹_›)
  · exact stallOut_memWf (fst_memWf (xfence_memWf h) ‹_›)

theorem execArrive_memWf {d sc i} (h : s.MemWf) : OutMemWf (execArrive d sc i s) := by
  unfold execArrive
  dsimp only
  split
  · refine afterFenceW_memWf h fun _ ht => ?_
    split
    · exact done_memWf (signalArrival_memWf (setG_memWf ht))
    · exact trapOut_memWf ht
  · exact trapOut_memWf h

theorem waitStall_memWf {n} (h : s.MemWf) : (waitStall s n).MemWf := by
  refine clockUpdate_memWf ?_
  split
  · exact modCtx_memWf (stallAs_memWf h)
  · exact stallAs_memWf h

theorem execWait_memWf {a sc i} (h : s.MemWf) : OutMemWf (execWait a sc i s) := by
  unfold execWait
  dsimp only
  split
  · split
    · exact waitStall_memWf h
    · exact done_memWf h
  · exact trapOut_memWf h

theorem execBtest_memWf {d a sc i} (h : s.MemWf) : OutMemWf (execBtest d a sc i s) := by
  unfold execBtest
  dsimp only
  split
  · exact done_memWf (setG_memWf h)
  · exact trapOut_memWf h

theorem setQ_memWf {q l} (h : k.MemWf) : (setQ k q l).MemWf := h

theorem queueDone_memWf {f : State → State} {me c kind q} (h : ∀ t, t.MemWf → (f t).MemWf) (hs : s.MemWf) :
    (queueDone me c kind q f s).MemWf := by
  unfold queueDone
  split
  · exact hs
  · exact modCtxAt_memWf (h _ ((seenAt_memWf hs).of_some ‹_›))

theorem tryPush_memWf {me q c} (h : s.MemWf) : (tryPush me q s c).MemWf := by
  unfold tryPush
  split
  · split
    · exact h
    · exact queueDone_memWf (fun _ ht => modCore_memWf ht fun _ => setQ_memWf) h
  · exact h
  · exact h

theorem tryPop_memWf {me q c} (h : s.MemWf) : (tryPop me q s c).MemWf := by
  unfold tryPop
  split
  · exact queueDone_memWf (fun _ ht => modCtxAt_memWf (modCore_memWf ht fun _ => setQ_memWf)) h
  · exact h

theorem queuePushes_memWf {me q} (h : s.MemWf) : (queuePushes me q s).MemWf := foldl_memWf h fun _ _ => tryPush_memWf

theorem queuePops_memWf {me q p} (h : s.MemWf) : (queuePops me q p s).MemWf := foldl_memWf h fun _ _ => tryPop_memWf

theorem queueRound_memWf {me q} (h : s.MemWf) : (queueRound me q s).MemWf := queuePops_memWf (queuePushes_memWf h)

theorem queueRounds_memWf {but} (h : s.MemWf) : (queueRounds but s).MemWf := foldl_memWf h fun _ _ => queueRound_memWf

theorem queueIssue_memWf {q o} (h : s.MemWf) : OutMemWf (queueIssue q o s) := queueRound_memWf (stallAs_memWf h)

theorem execQtry_memWf {d a q} (h : s.MemWf) : OutMemWf (execQtry d a q s) := by
  unfold execQtry
  dsimp only
  split
  · exact stallOut_memWf (queuePops_memWf (queuePushes_memWf h))
  · refine done_memWf (queuePops_memWf ?_)
    split
    · exact setG_memWf ((seenAt_memWf (queuePops_memWf (queuePushes_memWf h))).of_some ‹_›)
    · exact setG_memWf (setG_memWf (modCore_memWf ((seenAt_memWf
        (queuePops_memWf (queuePushes_memWf h))).of_some ‹_›) fun _ => setQ_memWf))

/-! ### System registers (Machine/Sys.lean) -/

theorem sysWrite_memWf {r w} (h : s.MemWf) : (sysWrite s r w).MemWf := by
  unfold sysWrite
  split
  · exact h
  · exact h
  · exact h
  · exact h
  · exact h
  · exact h
  · exact modCtx_memWf h
  · exact modCtx_memWf h
  · exact modCtx_memWf h
  · exact modCtx_memWf h
  · exact modCtx_memWf h
  · exact modCtx_memWf h
  · exact modCtx_memWf h
  · exact modCtx_memWf h
  · exact modCtx_memWf h
  · exact modCore_memWf h fun _ hk => hk
  · exact modCore_memWf h fun _ hk => hk
  · exact modCore_memWf h fun _ hk => hk
  · exact modCore_memWf h fun _ hk => hk
  · exact modCore_memWf (moveBanks_memWf h) fun _ hk => hk
  · exact modCore_memWf h fun _ hk => hk
  · exact modCore_memWf h fun _ hk => hk
  · exact modCtx_memWf h
  · exact modCtx_memWf h
  · exact modCtx_memWf h
  · exact modCore_memWf h fun _ hk => hk
  · exact modCore_memWf h fun _ hk => hk
  · exact modCore_memWf h fun _ hk => hk

theorem execSrr_memWf {d r} (h : s.MemWf) : OutMemWf (execSrr d r s) := by
  unfold execSrr
  split
  · exact trapOut_memWf h
  · exact done_memWf (setG_memWf h)
  · exact done_memWf (setG_memWf h)

theorem execSrw_memWf {a r} (h : s.MemWf) : OutMemWf (execSrw a r s) := by
  unfold execSrw
  split
  · exact trapOut_memWf h
  · exact trapOut_memWf h
  · exact done_memWf (sysWrite_memWf h)

theorem execSrx_memWf {d a r} (h : s.MemWf) : OutMemWf (execSrx d a r s) := by
  unfold execSrx
  split
  · exact trapOut_memWf h
  · exact trapOut_memWf h
  · exact done_memWf (setG_memWf (sysWrite_memWf h))

theorem execSret_memWf (h : s.MemWf) : OutMemWf (execSret s) := by
  unfold execSret
  dsimp only
  split
  · exact modCtx_memWf h
  · exact trapOut_memWf h

/-! ### Fetching and replay (Machine/Fetch.lean) -/

theorem fetchAt_memWf {a} (h : s.MemWf) : (fetchAt s a).2.MemWf := by
  unfold fetchAt
  split
  · exact h
  · split
    · split
      · exact h
      · split <;> exact fst_memWf (consume_memWf ((seenAt_memWf h).of_some ‹_›)) ‹_›
    · next va _ =>
      have ht := translate_memWf (t := ctxTag s.ctx) (limit := 0) (acc := .fetch) (va := va) (n := 4) h
      generalize translate s (ctxTag s.ctx) 0 .fetch va 4 = r at ht ⊢
      obtain ⟨x, t⟩ := r
      split
      · exact h
      · cases x <;> exact ht
    · exact h
    · exact h
    · exact h
    · exact h
    · exact h

theorem refetch_memWf {a} (h : s.MemWf) : (refetch s a).2.MemWf := by
  unfold refetch
  split
  · exact h
  · exact fetchAt_memWf h

theorem cacheLine_memWf {va gen bytes} (h : k.MemWf) : (cacheLine k va gen bytes).MemWf := by
  unfold cacheLine
  exact h

/-- What the service of a fetch miss comes to, where replay does not hold its read back. (The definition is opened with the
translation unknown, as in `xlateAll_memWf`.) -/
theorem fillLine_memWf {c va} {f : Filled} (h : s.MemWf) (e : fillLine s c va = some f) : FilledMemWf f := by
  have ht := translate_memWf (t := ctxTag (s.ctxAt c)) (limit := 0) (acc := .fetch) (va := va) (n := 4) h
  obtain ⟨tr, hr⟩ : ∃ tr, tr = translate := exists_eq
  obtain ⟨g, hg⟩ : ∃ g, g = fillLine := exists_eq
  rw [← hg] at e
  delta fillLine at hg
  rw [← hr] at hg ht
  subst hg
  dsimp only at e
  split at e
  · have hu : State.MemWf _ := snd_memWf ht ‹_›
    split at e
    · cases e
      exact hu
    · obtain ⟨v, hv, e⟩ := Option.map_eq_some_iff.mp e
      have hw : v.MemWf := (seenAt_memWf hu).of_some hv
      subst e
      split
      · exact hw
      · split
        · exact killCore_memWf hw
        · exact modCore_memWf (countReads_memWf hw) fun _ => cacheLine_memWf
  · cases e
  · cases e
    exact snd_memWf ht ‹_›

theorem capture_memWf {pc : Word} {n : Nat} {ws : List IWord} (h : s.MemWf) :
    SumMemWf (capture s pc n ws) := by
  induction n generalizing s ws with
  | zero => exact h
  | succ n ih =>
    have ht {f : Fetched} {t : State} {a : Word} (e : fetchAt s a = (f, t)) : t.MemWf := snd_memWf (fetchAt_memWf h) e
    simp only [capture]
    split
    · exact abortWith_memWf (modCtx_memWf (ht ‹_›))
    · exact faultOut_memWf (modCtx_memWf (ht ‹_›))
    · exact faultOut_memWf (modCtx_memWf (ht ‹_›))
    · exact stallOut_memWf (modCtx_memWf (ht ‹_›))
    · exact killOut_memWf (ht ‹_›)
    · split
      · exact ih (ht ‹_›)
      · exact abortWith_memWf (modCtx_memWf (ht ‹_›))

theorem execRep_memWf {c l d a b} (h : s.MemWf) : OutMemWf (execRep c l d a b s) := by
  unfold execRep
  split
  · exact trapOut_memWf h
  · split
    · exact (capture_memWf h).of_inr ‹_›
    · exact modCtx_memWf ((capture_memWf h).of_inl ‹_›)

theorem issueOf_memWf (h : s.MemWf) :
    (issueOf s).2.MemWf := by
  have hf {f : Fetched} {t : State} (e : (if issuedYet s.ctx then refetch s s.ctx.pc else fetchAt s s.ctx.pc) = (f, t)) :
      t.MemWf := by
    refine snd_memWf ?_ e
    split
    · exact refetch_memWf h
    · exact fetchAt_memWf h
  unfold issueOf
  dsimp only
  split
  · exact h
  · split <;> exact hf ‹_›

/-! ### The alias windows (Machine/Window.lean) -/

theorem setFlag_memWf {n} (h : k.MemWf) : (setFlag k n).MemWf := h

/-! ### Floating-point vector forms (Machine/VectorFp.lean) -/

theorem vfLanes_memWf {d m u f chk lane} (h : s.MemWf) : OutMemWf (vfLanes d m u f chk lane s) := by
  unfold vfLanes
  dsimp only
  split
  · exact checked_memWf (modCtx_memWf h)
  · exact done_memWf (modCtx_memWf h)

theorem vf2_memWf {op chk a t} (h : s.MemWf) : OutMemWf (vf2 op chk a t s) := vfLanes_memWf h

theorem vf1_memWf {op chk a t} (h : s.MemWf) : OutMemWf (vf1 op chk a t s) := vfLanes_memWf h

theorem vf3_memWf {n5 n4 a t} (h : s.MemWf) : OutMemWf (vf3 n5 n4 a t s) := by
  unfold vf3
  exact vfLanes_memWf h

theorem execVdot2_memWf {a t} (h : s.MemWf) : OutMemWf (execVdot2 a t s) := by
  unfold execVdot2
  exact vfLanes_memWf h

theorem vfReduce_memWf {op e chk d a m t} (h : s.MemWf) : OutMemWf (vfReduce op e chk d a m t s) := by
  unfold vfReduce
  dsimp only
  split
  · split
    · exact done_memWf (setGC_memWf h)
    · exact checked_memWf (setGC_memWf h)
  · exact done_memWf (setGC_memWf h)

theorem vcvt_memWf {sat a src dst r} (h : s.MemWf) : OutMemWf (vcvt sat a src dst r s) := by
  unfold vcvt
  dsimp only
  split
  · exact checked_memWf (modCtx_memWf h)
  · exact done_memWf (modCtx_memWf h)

/-! ### Integer vector forms (Machine/VectorInt.lean) -/

theorem viLanes_memWf {f a t} (h : s.MemWf) : OutMemWf (viLanes f a t s) := done_memWf (modCtx_memWf h)

theorem vcmpF_memWf {f a t} (h : s.MemWf) : OutMemWf (vcmpF f a t s) := done_memWf (modCtx_memWf h)

theorem vcmpI_memWf {f a t} (h : s.MemWf) : OutMemWf (vcmpI f a t s) := done_memWf (modCtx_memWf h)

theorem vmask2_memWf {f d a b g t} (h : s.MemWf) : OutMemWf (vmask2 f d a b g t s) := done_memWf (setVC_memWf h)

theorem vmove_memWf {pick a t} (h : s.MemWf) : OutMemWf (vmove pick a t s) := done_memWf (modCtx_memWf h)

theorem viReduce_memWf {f e sx d a m t} (h : s.MemWf) : OutMemWf (viReduce f e sx d a m t s) := done_memWf (setGC_memWf h)

theorem execVins_memWf {d a b t} (h : s.MemWf) : OutMemWf (execVins d a b t s) := by
  unfold execVins
  dsimp only
  split
  · exact done_memWf (modCtx_memWf h)
  · exact done_memWf h

/-! ### Vector loads and stores (Machine/VectorMem.lean) -/

/-- The kernel would evaluate `translate` at its literal limit: an unknown translation with the same property takes its place
before the recursion is unfolded. -/
theorem xlateAll_memWf {acc : Access} {as : List Nat} {done : List (Nat × Xlate)} (h : s.MemWf) :
    SumMemWf (xlateAll s acc as done) := by
  have htr {t g l acc va n} (ht : State.MemWf t) : (translate t g l acc va n).2.MemWf := translate_memWf ht
  obtain ⟨tr, he⟩ : ∃ tr, tr = translate := exists_eq
  obtain ⟨F, hF⟩ : ∃ F, F = xlateAll._f acc := exists_eq
  delta xlateAll
  rw [← hF]
  delta xlateAll._f at hF
  rw [← he] at hF htr
  clear he
  subst hF
  induction as generalizing s done with
  | nil => exact h
  | cons a as ih =>
    unfold List.brecOn at ih ⊢
    dsimp only [List.brecOn.go]
    split
    · exact ih (snd_memWf (htr h) ‹_›)
    · exact ih (snd_memWf (htr h) ‹_›)
    · exact xlateTrap_memWf (snd_memWf (htr h) ‹_›)

theorem noteLines_memWf {ps : List (Nat × Xlate)} {kind : Nat} {ls : List Nat} (h : s.MemWf) :
    OptMemWf (noteLines s ps kind ls) := by
  induction ls generalizing s with
  | nil => exact h
  | cons l ls ih =>
    unfold noteLines
    split
    · dsimp only
      split
      · trivial
      · exact ih (noteAccess_memWf h)
    · exact ih h

theorem vloadFabric_memWf {d vas n} (h : s.MemWf) : OutMemWf (vloadFabric s d vas n) := by
  unfold vloadFabric
  split
  · exact trapOut_memWf h
  · split
    · exact (xlateAll_memWf h).of_inr ‹_›
    · dsimp only
      split
      · exact xlateTrap_memWf ((xlateAll_memWf h).of_inl ‹_›)
      · split
        · exact stallOut_memWf ((xlateAll_memWf h).of_inl ‹_›)
        · split
          · exact xlateTrap_memWf ((noteLines_memWf ((xlateAll_memWf h).of_inl ‹_›)).of_some ‹_›)
          · split
            · exact killOut_memWf (countReads_memWf ((noteLines_memWf ((xlateAll_memWf h).of_inl ‹_›)).of_some ‹_›))
            · exact loadAway_memWf (countReads_memWf ((noteLines_memWf ((xlateAll_memWf h).of_inl ‹_›)).of_some ‹_›))

theorem vload_memWf {f d m u z} (h : s.MemWf) : OutMemWf (vload f d m u z s) := by
  unfold vload
  dsimp only
  split
  · exact done_memWf (modCtx_memWf h)
  · split
    · exact trapOut_memWf h
    · split
      · split
        · exact atOwnPort_memWf h fun _ ht => consuming_memWf ht fun _ ht1 => done_memWf (modCtx_memWf ht1)
        · exact trapOut_memWf h
      · split
        · exact trapOut_memWf h
        · split
          · exact loadRemote_memWf h
          · exact trapOut_memWf h
        · split
          · exact loadRemote_memWf h
          · exact trapOut_memWf h
        · split
          · exact loadRemote_memWf h
          · exact trapOut_memWf h
      · split
        · exact trapOut_memWf h
        · exact vloadFabric_memWf h
        · exact vloadFabric_memWf h
        · exact vloadFabric_memWf h
      · exact trapOut_memWf h
      · exact trapOut_memWf h
      · exact trapOut_memWf h

theorem vstoreCheck_memWf {f w c} (h : s.MemWf) : SumMemWf (vstoreCheck f w c s) := by
  unfold vstoreCheck
  dsimp only
  split
  · split
    · exact h
    · exact trapOut_memWf h
  · split
    · exact h
    · exact trapOut_memWf h
  · split
    · exact h
    · exact trapOut_memWf h
  · exact trapOut_memWf h
  · exact trapOut_memWf h
  · exact trapOut_memWf h
  · split
    · exact h
    · exact trapOut_memWf h
  · split
    · exact trapOut_memWf h
    · split
      · exact (xlateAll_memWf h).of_inr ‹_›
      · exact (xlateAll_memWf h).of_inl ‹_›

theorem vstoreDo_memWf {mark : State → State} {f w ls p} (h : ∀ t, t.MemWf → (mark t).MemWf) (hs : s.MemWf) :
    OutMemWf (vstoreDo f w ls p mark s) := by
  unfold vstoreDo
  dsimp only
  split
  · exact atOwnPort_memWf hs fun _ ht => rewriting_memWf ht fun _ ht1 =>
      done_memWf (h _ (modCtx_memWf (modCore_memWf ht1 fun _ hk => wrCells_memWf hk rfl rfl rfl)))
  · exact placing_memWf hs fun _ ht => done_memWf (h _ ht)
  · exact placing_memWf hs fun _ ht => done_memWf (h _ ht)
  · exact placing_memWf hs fun _ ht => done_memWf (h _ ht)
  · exact gathering_memWf (h _ hs)

theorem vstoreIssue_memWf {f v m z b} (h : s.MemWf) : OutMemWf (vstoreIssue f v m z b s) := by
  unfold vstoreIssue
  dsimp only
  split
  · exact done_memWf h
  · split
    · exact trapOut_memWf h
    · split
      · exact (vstoreCheck_memWf h).of_inr ‹_›
      · have ht : State.MemWf _ := (vstoreCheck_memWf h).of_inl ‹_›
        split
        · exact vstoreDo_memWf (fun _ hu => hu) ht
        · split
          · refine vstoreDo_memWf (fun u hu => ?_) ht
            split
            · exact modCore_memWf hu fun _ => setFlag_memWf
            · exact hu
          · exact trapOut_memWf ht

theorem vstore_memWf {f v m z b} (h : s.MemWf) : OutMemWf (vstore f v m z b s) := storingOr_memWf h (vstoreIssue_memWf h)

theorem mm3_memWf {op chk readsD d a b t} (h : s.MemWf) : OutMemWf (mm3 op chk readsD d a b t s) := by
  unfold mm3
  dsimp only
  split
  · exact trapOut_memWf h
  · refine atOwnPort_memWf h fun _ ht => consuming_memWf ht fun _ ht1 => rewriting_memWf ht1 fun _ ht2 => ?_
    split
    · exact checked_memWf (modCtx_memWf (modCore_memWf ht2 fun _ hk => wrCells_memWf hk rfl rfl rfl))
    · exact done_memWf (modCtx_memWf (modCore_memWf ht2 fun _ hk => wrCells_memWf hk rfl rfl rfl))

/-! ### The shift store and its heads (Machine/Head.lean) -/

theorem steer_memWf {w n} (h : s.MemWf) : (steer s w n).MemWf := by
  refine modHead_memWf (modCore_memWf h fun _ hk => ?_)
  split
  · exact setBank_memWf hk
  · exact setBank_memWf (stopBank_memWf hk)

theorem displace_memWf {b o n} (h : s.MemWf) : (displace s b o n).MemWf := by
  unfold displace
  dsimp only
  split
  · exact modCore_memWf (modHead_memWf h) fun _ => setBank_memWf
  · exact modHead_memWf h

theorem grant_memWf {w n} (h : s.MemWf) : (grant s w n).MemWf := by
  refine steer_memWf (modCore_memWf ?_ fun _ hk => setBank_memWf (stopBank_memWf hk))
  split
  · exact h
  · exact displace_memWf h

theorem grantAt_memWf {bank n} (h : s.MemWf) : OptMemWf (grantAt bank n s) := by
  unfold grantAt
  dsimp only
  split
  · trivial
  · split
    · exact grant_memWf h
    · trivial

theorem tryGrant_memWf {bank} (h : s.MemWf) : OptMemWf (tryGrant bank s) := grantAt_memWf h

theorem dueBank_memWf {b} (h : s.MemWf) : (dueBank s b).MemWf := getD_memWf (tryGrant_memWf (arrive_memWf h)) (arrive_memWf h)

theorem dueGrant_memWf {w} (h : s.MemWf) : (dueGrant s w).MemWf := dueBank_memWf h

theorem claim_memWf {w} (h : s.MemWf) : (claim s w).MemWf := by
  refine getD_memWf (grantAt_memWf ?_) ?_
  · split
    · exact modHead_memWf h
    · exact modCore_memWf (modHead_memWf h) fun _ => setBank_memWf
  · split
    · exact modHead_memWf h
    · exact modCore_memWf (modHead_memWf h) fun _ => setBank_memWf

theorem seekHead_memWf {w b f} (h : s.MemWf) : (seekHead s w b f).MemWf := by
  unfold seekHead
  dsimp only
  split
  · exact steer_memWf (modHead_memWf (dueBank_memWf h))
  · exact claim_memWf (modHead_memWf (dueBank_memWf h))

theorem verify_memWf {b : BitVec 8} {n : Nat} {p : Core × Head × Nat} (h : p.1.MemWf) :
    (verify b n p).1.1.MemWf := by
  induction n generalizing p with
  | zero =>
    simp only [verify]
    split
    · exact h
    · exact h
  | succ n ih =>
    simp only [verify]
    split
    · exact h
    · exact ih (shiftBy_memWf h)

theorem readLine_memWf {b : BitVec 8} (h : s.MemWf) :
    (readLine s b).2.1.MemWf := by
  unfold readLine
  split
  · exact consume_memWf h
  · exact h.frame rfl rfl rfl

theorem writeLine_memWf {b a} (h : k.MemWf) : (writeLine k b a).MemWf := by
  unfold writeLine
  split
  · exact freshWords_memWf h
  · exact h

theorem stepShift_memWf {w} (h : s.MemWf) : (stepShift s w).MemWf := modHead_memWf (modCore_memWf h fun _ => setBank_memWf)

theorem transfer_memWf {f : State → BitVec 8 → State × Bool} {w} (h : s.MemWf) (hf : ∀ t, t.MemWf → ∀ x, (f t x).1.MemWf) :
    (transfer s w f).1.MemWf := by
  unfold transfer
  dsimp only
  split
  · split
    · exact fst_memWf (hf _ (modHead_memWf (modCore_memWf h fun _ _ => setBank_memWf (verify_memWf (core_memWf h)))) _) ‹_›
    · exact stepShift_memWf (modHead_memWf (fst_memWf (hf _ (modHead_memWf (modCore_memWf h fun _ _ =>
        setBank_memWf (verify_memWf (core_memWf h)))) _) ‹_›))
  · exact modHead_memWf (modCore_memWf h fun _ _ => setBank_memWf (verify_memWf (core_memWf h)))

theorem trackOut_memWf {b p} (h : s.MemWf) : OutMemWf (trackOut s b p) := abortWith_memWf h

theorem headForm_memWf {f : State → Out} {h} (hs : s.MemWf) (hf : ∀ t, t.MemWf → OutMemWf (f t)) :
    OutMemWf (headForm h s f) := by
  unfold headForm
  dsimp only
  split
  · exact trapOut_memWf hs
  · split
    · exact trackOut_memWf hs
    · exact hf _ hs

theorem execHbind_memWf {a h} (hs : s.MemWf) : OutMemWf (execHbind a h s) := by
  unfold execHbind
  dsimp only
  split
  · exact trackOut_memWf hs
  · refine done_memWf (seekHead_memWf ?_)
    split
    · exact freeHead_memWf hs
    · exact hs

theorem headStall_memWf {h} (hs : s.MemWf) : OutMemWf (headStall h s) := stallAs_memWf hs

theorem whenAligned_memWf {f : State → Out} {h} (hs : s.MemWf) (hf : ∀ t, t.MemWf → OutMemWf (f t)) :
    OutMemWf (whenAligned h s f) := by
  unfold whenAligned
  dsimp only
  split
  · exact hf _ (dueGrant_memWf hs)
  · split
    · exact headStall_memWf (dueGrant_memWf hs)
    · split
      · exact hf _ (claim_memWf (dueGrant_memWf hs))
      · exact headStall_memWf (claim_memWf (dueGrant_memWf hs))

theorem headTransfer_memWf {f : State → BitVec 8 → State × Bool} {h kind}
    (hf : ∀ t, t.MemWf → ∀ x, (f t x).1.MemWf) (hs : s.MemWf) : OutMemWf (headTransfer h kind f s) := by
  refine headForm_memWf hs fun _ ht => whenAligned_memWf ht fun _ ht1 => ?_
  dsimp only
  split
  · exact headStall_memWf ht1
  · refine atOwnPort_memWf ht1 fun _ ht2 => ?_
    split
    · exact done_memWf (fst_memWf (transfer_memWf ht2 fun _ ht3 _ => hf _ ht3 _) ‹_›)
    · exact trackOut_memWf (fst_memWf (transfer_memWf ht2 fun _ ht3 _ => hf _ ht3 _) ‹_›)
    · exact killOut_memWf (fst_memWf (transfer_memWf ht2 fun _ ht3 _ => hf _ ht3 _) ‹_›)

theorem execRds_memWf {d h} (hs : s.MemWf) : OutMemWf (execRds d h s) :=
  headTransfer_memWf (fun _ ht _ => setVC_memWf (readLine_memWf ht)) hs

theorem execWrs_memWf {a h} (hs : s.MemWf) : OutMemWf (execWrs a h s) :=
  headTransfer_memWf (fun _ ht _ => modCore_memWf ht fun _ => writeLine_memWf) hs

theorem execRwd_memWf {h} (hs : s.MemWf) : OutMemWf (execRwd h s) := by
  refine headForm_memWf hs fun t0 h0 => ?_
  extract_lets b w rewinds t t1 from_
  have ht : t.MemWf := by
    unfold t
    split
    · exact h0
    · exact dueGrant_memWf h0
  have h1 : t1.MemWf := by
    unfold t1
    split
    · exact ht
    · exact claim_memWf ht
  split
  · exact headStall_memWf h1
  · split
    · exact headStall_memWf (modHead_memWf (modCore_memWf h1 fun _ hk => setBank_memWf (stopBank_memWf hk)))
    · exact headStall_memWf h1

/-! ### The matrix unit (Machine/Matrix.lean) -/

theorem setAccCell_memWf {mode n row col c} (h : k.MemWf) : (setAccCell k mode n row col c).MemWf := by
  unfold setAccCell
  split <;> exact h

theorem setTag_memWf {n b} (h : k.MemWf) : (setTag k n b).MemWf := h

theorem dropSteps_memWf {n} (h : k.MemWf) : (dropSteps k n).MemWf := h

theorem setMxq_memWf {c l} (h : k.MemWf) : (setMxq k c l).MemWf := h

theorem execMxc_memWf {a} (h : s.MemWf) : OutMemWf (execMxc a s) := by
  unfold execMxc
  dsimp only
  split
  · exact trapOut_memWf h
  · split
    · exact stallOut_memWf h
    · refine done_memWf ?_
      split
      · exact modCtx_memWf (modCore_memWf h fun _ => setMxq_memWf)
      · exact modCore_memWf h fun _ => setMxq_memWf

theorem execMxr_memWf {d a c r h f b} (hs : s.MemWf) : OutMemWf (execMxr d a c r h f b s) := by
  unfold execMxr
  dsimp only
  split
  · exact done_memWf (setG_memWf (modCtx_memWf hs))
  · split
    · exact trapOut_memWf hs
    · refine done_memWf (setG_memWf (modCtx_memWf ?_))
      split
      · exact modCore_memWf hs fun _ => setFlag_memWf
      · exact hs

theorem execMxw_memWf {c l} (h : s.MemWf) : OutMemWf (execMxw c l s) := by
  unfold execMxw
  dsimp only
  split
  · split
    · exact stallOut_memWf h
    · exact done_memWf h
  · split
    · exact stallOut_memWf h
    · exact done_memWf h

theorem mmaTags_memWf {d} (h : k.MemWf) : (mmaTags k d).MemWf := by
  unfold mmaTags
  dsimp only
  split
  · split
    · exact foldl_core_memWf (foldl_core_memWf h fun _ _ => setAccCell_memWf) fun _ _ hk => dropSteps_memWf (setTag_memWf hk)
    · exact h
  · split
    · exact foldl_core_memWf (foldl_core_memWf h fun _ _ => setAccCell_memWf) fun _ _ hk => dropSteps_memWf (setTag_memWf hk)
    · exact h

theorem mxNotes_memWf {l : List (PortKey × Nat × Nat)} (h : s.MemWf) :
    OptMemWf (mxNotes s l) := by
  induction l generalizing s with
  | nil => exact h
  | cons p ps ih =>
    simp only [mxNotes]
    split
    · trivial
    · exact ih (noteAccess_memWf h)

theorem loadWeights_memWf {a w n} (h : k.MemWf) : (loadWeights a w n k).MemWf :=
  freshWords_memWf <| h.withWbuf (wrBytes_wf _ _ _ (wbuf_memWf h)) rfl rfl

theorem tryLoadLine_memWf {r} (h : s.MemWf) : OptMemWf (tryLoadLine s r) := by
  unfold tryLoadLine
  dsimp only
  split
  · exact map_memWf (mxNotes_memWf h) fun _ ht => taking_memWf ht fun _ ht1 => modCore_memWf ht1 fun _ => loadWeights_memWf
  · trivial

theorem putRun_memWf {r} (h : k.MemWf) : (putRun r k).MemWf := h

theorem tryFetch_memWf {r f} (h : s.MemWf) : OptMemWf (tryFetch s r f) := by
  unfold tryFetch
  split
  · split
    · trivial
    · exact modCore_memWf h fun _ hk => hk
  · exact map_memWf (mxNotes_memWf h) fun _ ht => taking_memWf ht fun _ ht1 => taking_memWf ht1 fun _ ht2 =>
      modCore_memWf ht2 fun _ hk => hk

theorem readTable_memWf {f : List Byte → State → State} {r i} (h : s.MemWf) (hf : ∀ x t, t.MemWf → (f x t).MemWf) :
    OptMemWf (readTable s r i f) :=
  map_memWf (mxNotes_memWf h) fun _ ht => taking_memWf ht fun _ => hf _ _

theorem startBlock_memWf {r l} (h : s.MemWf) : OptMemWf (startBlock s r l) := by
  refine bind_memWf ?_ fun _ ht => ?_
  · split
    · exact modCore_memWf h fun _ => putRun_memWf
    · exact tryFetch_memWf h
  · split
    · exact ht
    · split
      · exact ht
      · exact readTable_memWf ht fun _ _ ht1 => modCore_memWf ht1 fun _ => putRun_memWf

theorem tryBlock_memWf {r} (h : s.MemWf) : OptMemWf (tryBlock s r) := by
  unfold tryBlock
  split
  · trivial
  · split
    · exact readTable_memWf h fun _ _ ht => modCore_memWf ht fun _ => putRun_memWf
    · split
      · exact startBlock_memWf h
      · exact modCore_memWf h fun _ => putRun_memWf

theorem tryAdvance_memWf {r} (h : s.MemWf) : OptMemWf (tryAdvance s r) := by
  unfold tryAdvance
  split
  · split
    · exact tryBlock_memWf h
    · split
      · trivial
      · exact tryFetch_memWf h
  · trivial

theorem tryMxStart_memWf (h : s.MemWf) : OptMemWf (tryMxStart s) := by
  unfold tryMxStart
  extract_lets k frugal pass
  split
  · trivial
  · split
    · exact orElse_memWf (tryLoadLine_memWf h) (tryAdvance_memWf h)
    · trivial
    · extract_lets d k1 bud k2 k3 cells before z
      have h1 : k1.MemWf := core_memWf h
      have h2 : k2.MemWf := by
        unfold k2
        split <;> exact h1
      have h3 : k3.MemWf := by
        unfold k3
        split
        · exact mmaTags_memWf h2
        · exact h2
      exact modCore_memWf h fun _ _ => h3

theorem tryKStep_memWf (h : s.MemWf) : OptMemWf (tryKStep s) := by
  unfold tryKStep
  split
  · trivial
  · split
    · exact getD_memWf (tryAdvance_memWf (modCore_memWf h fun _ => putRun_memWf)) (modCore_memWf h fun _ => putRun_memWf)
    · trivial

theorem goOnBlock_memWf (h : s.MemWf) : (goOnBlock s).MemWf := by
  unfold goOnBlock
  split
  · exact h
  · exact getD_memWf (tryBlock_memWf h) h

theorem tryReread_memWf (h : s.MemWf) : OptMemWf (tryReread s) :=
  valueBind_memWf fun _ => map_memWf (readTable_memWf h fun _ _ ht => modCore_memWf ht fun _ => putRun_memWf) fun _ =>
    goOnBlock_memWf

theorem tryGiveUp_memWf (h : s.MemWf) : OptMemWf (tryGiveUp s) := by
  unfold tryGiveUp
  split
  · trivial
  · split
    · exact report_memWf (goOnBlock_memWf (modCore_memWf h fun _ => putRun_memWf))
    · trivial

theorem doRereads_memWf {n : Nat} (h : s.MemWf) :
    (doRereads n s).MemWf := by
  induction n generalizing s with
  | zero => exact getD_memWf (tryGiveUp_memWf h) h
  | succ n ih =>
    simp only [doRereads]
    split
    · exact ih ((tryReread_memWf h).of_some ‹_›)
    · exact getD_memWf (tryGiveUp_memWf h) h

theorem catchUp_memWf (h : s.MemWf) : (catchUp s).MemWf := by
  refine foldl_memWf ?_ fun _ _ ht => onCore_memWf ht fun _ => doRereads_memWf
  split
  · exact doRereads_memWf h
  · exact h

theorem mmaEnd_memWf {r} (h : k.MemWf) : (mmaEnd k r).MemWf :=
  foldl_core_memWf (foldIdx_core_memWf h fun _ _ _ => setAccCell_memWf) fun _ _ hk => hk

theorem mxEffect_memWf {d n} (h : k.MemWf) : (mxEffect k d n).MemWf := by
  unfold mxEffect
  split
  · exact loadWeights_memWf h
  · refine foldl_core_memWf h fun _ _ hk => ?_
    split <;> exact hk
  · exact foldl_core_memWf (foldl_core_memWf h fun _ _ => setAccCell_memWf) fun _ _ hk => dropSteps_memWf (setTag_memWf hk)
  · exact h

theorem engineCdec_memWf {who a user} (h : s.MemWf) : (engineCdec s who a user).MemWf := by
  unfold engineCdec
  split
  · exact report_memWf h
  · exact sendFrom_memWf h

theorem tryMxComplete_memWf (h : s.MemWf) : OptMemWf (tryMxComplete s) := by
  unfold tryMxComplete
  split
  · trivial
  · dsimp only
    split
    · trivial
    · split
      · split
        · exact engineCdec_memWf (modCore_memWf h fun _ _ => mmaEnd_memWf (core_memWf h))
        · exact modCore_memWf h fun _ _ => mmaEnd_memWf (core_memWf h)
      · refine map_memWf (mxNotes_memWf h) fun _ ht => taking_memWf ht fun _ ht1 => ?_
        split
        · exact engineCdec_memWf (modCore_memWf ht1 fun _ _ => mxEffect_memWf (core_memWf ht1))
        · exact modCore_memWf ht1 fun _ _ => mxEffect_memWf (core_memWf ht1)

theorem newWindow_memWf (h : s.MemWf) : (newWindow s).MemWf := modCore_memWf h fun _ hk => hk

theorem orSame_memWf {f : State → Option State} (h : ∀ t, t.MemWf → OptMemWf (f t)) (hs : s.MemWf) : OutMemWf (orSame f s) :=
  getD_memWf (h _ hs) hs

theorem execBucketRefill_memWf (h : s.MemWf) : OutMemWf (execBucketRefill s) := by
  unfold execBucketRefill
  split
  · exact modCore_memWf h fun _ hk => hk
  · exact h

/-! ### The copy engine (Machine/Copy.lean) -/

theorem cpAccess_memWf (h : s.MemWf) : (cpAccess s).2.MemWf := h

theorem cpLoc_memWf {m acc n a} (h : s.MemWf) : (cpLoc s m acc n a).2.MemWf := by
  unfold cpLoc
  split
  · exact h
  · split
    · exact h
    · split
      · exact cpAccess_memWf h
      · split <;> exact h
  · split
    · split
      · exact snd_memWf (translate_memWf h) ‹_›
      · split <;> exact snd_memWf (translate_memWf h) ‹_›
    · exact snd_memWf (translate_memWf h) ‹_›
    · exact snd_memWf (translate_memWf h) ‹_›
    · exact snd_memWf (translate_memWf h) ‹_›
    · exact snd_memWf (translate_memWf h) ‹_›
    · exact snd_memWf (translate_memWf h) ‹_›
  · exact cpAccess_memWf h
  · exact cpAccess_memWf h
  · exact cpAccess_memWf h
  · exact cpAccess_memWf h
  · exact cpAccess_memWf h

theorem cpDstLoc_memWf {m n a} (h : s.MemWf) : (cpDstLoc s m n a).2.MemWf := by
  unfold cpDstLoc
  split
  · exact cpLoc_memWf h
  · split
    · exact h
    · exact cpAccess_memWf h
  · exact cpAccess_memWf h

theorem cpPlan_memWf {m : CpCmd} {xs : List Nat} {acc : List CpStep} (h : s.MemWf) :
    (cpPlan s m xs acc).2.MemWf := by
  induction xs generalizing s acc with
  | nil => exact h
  | cons x xs ih =>
    simp only [cpPlan]
    split
    · exact snd_memWf (cpDstLoc_memWf h) ‹_›
    · have ht : State.MemWf _ := snd_memWf (cpDstLoc_memWf h) ‹_›
      split
      · exact ih ht
      · split
        · exact ht
        · split
          · exact snd_memWf (cpLoc_memWf ht) ‹_›
          · exact ih (snd_memWf (cpLoc_memWf ht) ‹_›)

theorem cpNotes_memWf {kind : Nat} {ps : List (PortKey × Nat)} (h : s.MemWf) :
    OptMemWf (cpNotes s kind ps) := by
  induction ps generalizing s with
  | nil => exact h
  | cons p ps ih => exact bind_memWf (seenAt_memWf h) fun _ => ih

theorem cpAdmit_memWf {l} (h : s.MemWf) : (cpAdmit s l).MemWf := by
  unfold cpAdmit
  split
  · split
    · exact modCoreAt_memWf h fun _ hk => hk
    · exact h
  · exact h
  · exact h
  · exact h
  · exact h

theorem cpOther_memWf {f : State → State × Bool} {c} (h : s.MemWf) (hf : ∀ t, t.MemWf → (f t).1.MemWf) :
    (cpOther s c f).1.MemWf := by
  unfold cpOther
  dsimp only
  split
  · exact focus_memWf (killCore_memWf (hf _ (focus_memWf h)))
  · exact focus_memWf (hf _ (focus_memWf h))

theorem cpOwn_memWf {r : State × Bool} (h : r.1.MemWf) : (cpOwn r).1.MemWf := h

theorem cpTake_memWf {n l} (h : s.MemWf) : (cpTake s n l).1.MemWf := by
  unfold cpTake
  dsimp only
  split
  · exact cpOwn_memWf (consume_memWf h)
  · exact cpOwn_memWf (focus_memWf (consume_memWf (focus_memWf h)))
  · exact cpOwn_memWf (consume_memWf h)
  · exact h
  · exact h

theorem cpTakeEach_memWf {ps : List (CpLoc × Nat)} (h : s.MemWf) :
    (cpTakeEach s ps).1.MemWf := by
  induction ps generalizing s with
  | nil => exact h
  | cons p ps ih =>
    simp only [cpTakeEach]
    split
    · exact ih (fst_memWf (cpTake_memWf h) ‹_›)
    · exact cpTake_memWf h

theorem cpTakes_memWf {ps} (h : s.MemWf) : (cpTakes s ps).1.MemWf := by
  unfold cpTakes
  dsimp only
  split
  · exact fst_memWf (cpTakeEach_memWf (countReads_memWf h)) ‹_›
  · exact cpTakeEach_memWf (countReads_memWf h)

theorem cpWriteLine_memWf {l cs} (h : s.MemWf) : (cpWriteLine s l cs).1.MemWf := by
  unfold cpWriteLine
  split
  · exact cpOwn_memWf (modCore_memWf (rewrite_memWf h) fun _ hk => wrCells_memWf hk rfl rfl rfl)
  · exact cpOther_memWf h fun _ ht => modCore_memWf (rewrite_memWf ht) fun _ hk => wrCells_memWf hk rfl rfl rfl
  · exact chanWrite_memWf h
  · exact cpOwn_memWf (modCore_memWf (rewrite_memWf h) fun _ hk => hk.withWbuf (wrCells_wf _ _ (wbuf_memWf hk)) rfl rfl)
  · exact h

theorem cpGuards_memWf {m g} (h : s.MemWf) : (cpGuards s m g).2.MemWf := by
  unfold cpGuards
  extract_lets side
  have hside {t on acc y} (ht : State.MemWf t) : (side t on acc y).2.MemWf := by
    unfold side
    split
    · split <;> exact snd_memWf (cpLoc_memWf ht) ‹_›
    · exact ht
  clear_value side
  split
  · exact snd_memWf (hside h) ‹_›
  · split <;> exact snd_memWf (hside (snd_memWf (hside h) ‹_›)) ‹_›

theorem modRun_memWf {f} (h : s.MemWf) : (modRun s f).MemWf := modCore_memWf h fun _ hk => hk

theorem cpHold_memWf {t : State} {r kind ps} (h : s.MemWf) : OptMemWf (cpHold s t r kind ps) := by
  unfold cpHold
  split
  · split
    · trivial
    · exact modRun_memWf h
  · trivial

theorem freeEng_memWf {cyc h} (hk : k.MemWf) : (freeEng cyc k h).MemWf := by
  unfold freeEng
  dsimp only
  split
  · exact setEng_memWf (leaveBank_memWf hk)
  · exact hk

theorem strike_memWf {c} (h : s.MemWf) : (strike s c).MemWf := by
  unfold strike
  dsimp only
  split
  · exact h
  · split
    · exact clockUpdate_memWf (abortWith_memWf h)
    · exact h

theorem cpFaulted_memWf {r c contained adds} (h : s.MemWf) : (cpFaulted s r c contained adds).MemWf := by
  unfold cpFaulted
  dsimp only
  split
  · exact strike_memWf (modCtxAt_memWf (modCore_memWf h fun _ => freeEng_memWf))
  · exact modCore_memWf h fun _ => freeEng_memWf

theorem cpStopped_memWf {r w} (h : s.MemWf) : OptMemWf (cpStopped s r w) := by
  unfold cpStopped
  split
  · trivial
  · exact report_memWf (modRun_memWf h)
  · exact cpFaulted_memWf h

theorem cpAdvance_memWf {n} (h : s.MemWf) : (cpAdvance s n).MemWf := modRun_memWf h

theorem cpAsk_memWf {r p va op} (h : s.MemWf) : (cpAsk r s p va op).MemWf := modRun_memWf (h.frame rfl rfl rfl)

theorem cpAskLines_memWf {α : Type} {r} {f : List α → Op} {ls} (h : s.MemWf) : (cpAskLines r f s ls).MemWf := by
  refine foldl_memWf h fun _ _ ht => ?_
  split
  · exact cpAsk_memWf ht
  all_goals exact ht

theorem cpWriteLines_memWf {ws : List (CpLoc × List (CpLoc × Byte))} (h : s.MemWf) :
    (cpWriteLines s ws).1.MemWf := by
  induction ws generalizing s with
  | nil => exact h
  | cons w ws ih =>
    simp only [cpWriteLines]
    split
    · exact ih (fst_memWf (cpWriteLine_memWf h) ‹_›)
    · exact cpWriteLine_memWf h

theorem cpThen_memWf {p : State × CpMade} {f : State → Option State} (h : p.1.MemWf) (hf : ∀ t, t.MemWf → OptMemWf (f t)) :
    OptMemWf (cpThen p f) := by
  unfold cpThen
  split
  · exact hf _ h
  · exact killCore_memWf h
  · exact h

theorem cpStore_memWf {t : State} {r ws} (h : s.MemWf) (ht : t.MemWf) : OptMemWf (cpStore s t r ws) := by
  unfold cpStore
  dsimp only
  split
  · exact cpHold_memWf h
  · refine cpThen_memWf (cpWriteLines_memWf ((cpNotes_memWf ht).of_some ‹_›)) fun _ ht1 => ?_
    split
    · exact modRun_memWf (cpAskLines_memWf ht1)
    · exact cpAdvance_memWf ht1

theorem cpPerform_memWf {r ps gs} (h : s.MemWf) : OptMemWf (cpPerform s r ps gs) := by
  unfold cpPerform
  extract_lets d g lists reads dsts dls missing t rl
  split
  · trivial
  · have ht : t.MemWf := foldl_memWf h fun _ _ => cpAdmit_memWf
    clear_value t
    split
    · exact cpAskLines_memWf ht
    · split
      · exact cpAskLines_memWf ht
      · split
        · exact cpHold_memWf ht
        · refine cpThen_memWf (cpTakes_memWf ((cpNotes_memWf ht).of_some ‹_›)) fun _ hu => ?_
          dsimp only
          split
          · split
            · exact cpStopped_memWf hu
            · exact cpStore_memWf ht hu
          · split
            · exact cpStopped_memWf hu
            · exact cpStore_memWf ht hu

theorem cpListed_memWf {f : State → Option State} {r xs} (h : s.MemWf) (hf : ∀ t, t.MemWf → OptMemWf (f t)) :
    OptMemWf (cpListed s r xs f) :=
  bind_memWf (cpNotes_memWf h) fun _ ht => cpThen_memWf (cpTakes_memWf ht) fun _ => hf _

theorem cpBlock_memWf {r} (h : s.MemWf) : OptMemWf (cpBlock s r) := by
  unfold cpBlock
  split
  · trivial
  · exact cpListed_memWf (snd_memWf (cpPlan_memWf h) ‹_›) fun _ => cpStopped_memWf
  · split
    · refine cpStopped_memWf (snd_memWf ?_ ‹_›)
      split
      · exact cpGuards_memWf (snd_memWf (cpPlan_memWf h) ‹_›)
      · exact snd_memWf (cpPlan_memWf h) ‹_›
    · refine cpPerform_memWf (snd_memWf ?_ ‹_›)
      split
      · exact cpGuards_memWf (snd_memWf (cpPlan_memWf h) ‹_›)
      · exact snd_memWf (cpPlan_memWf h) ‹_›

theorem cpAnswered_memWf {eid bytes} (h : s.MemWf) : (cpAnswered s eid bytes).MemWf := by
  unfold cpAnswered
  split
  · exact h
  · dsimp only
    split
    · exact cpAdvance_memWf (modRun_memWf h)
    · exact modRun_memWf h

theorem trackMove_memWf {load off b} (h : s.MemWf) : (trackMove load off s b).1.MemWf := by
  unfold trackMove
  split
  · exact modCore_memWf (readLine_memWf h) fun _ hk => freshWords_memWf (wrBytes_memWf hk rfl rfl rfl)
  · split
    · exact fst_memWf (consume_memWf h) ‹_›
    · exact modCore_memWf (fst_memWf (consume_memWf h) ‹_›) fun _ => writeLine_memWf

theorem trackBlock_memWf {r} (h : s.MemWf) : OptMemWf (trackBlock s r) := by
  unfold trackBlock
  dsimp only
  split
  · exact cpStopped_memWf h
  · split
    · exact cpFaulted_memWf h
    · split
      · split
        · trivial
        · refine bind_memWf (cpNotes_memWf (dueGrant_memWf h)) fun _ ht => map_memWf (cpNotes_memWf ht) fun _ ht1 => ?_
          split
          · exact cpAdvance_memWf (fst_memWf (transfer_memWf ht1 fun _ ht2 _ => trackMove_memWf ht2) ‹_›)
          · exact cpFaulted_memWf (fst_memWf (transfer_memWf ht1 fun _ ht2 _ => trackMove_memWf ht2) ‹_›)
          · exact killCore_memWf (fst_memWf (transfer_memWf ht1 fun _ ht2 _ => trackMove_memWf ht2) ‹_›)
      · exact claim_memWf (dueGrant_memWf h)

theorem seekAhead_memWf (h : s.MemWf) : (seekAhead s).MemWf := by
  unfold seekAhead
  dsimp only
  split
  · exact modCore_memWf h fun _ => freeEng_memWf
  · split
    · split
      · exact h
      · exact seekHead_memWf h
    · exact claim_memWf (modCore_memWf h fun _ hk => setEng_memWf (freeEng_memWf hk))

theorem startTrack_memWf {d} (h : s.MemWf) : (startTrack s d).MemWf := by
  unfold startTrack
  dsimp only
  split
  · exact seekHead_memWf (modCore_memWf h fun _ hk => setEng_memWf (setEng_memWf (setBank_memWf hk)))
  · exact seekHead_memWf h

theorem cpStart_memWf {c m} (h : s.MemWf) : (cpStart s c m).MemWf := by
  unfold cpStart
  dsimp only
  split
  · exact startTrack_memWf (modCore_memWf h fun _ hk => hk)
  · exact modCore_memWf h fun _ hk => hk

theorem runBlock_memWf {r} (h : s.MemWf) : OptMemWf (runBlock s r) := by
  unfold runBlock
  split
  · trivial
  · split
    · exact trackBlock_memWf h
    · exact cpBlock_memWf h

theorem tryCopyStart_memWf (h : s.MemWf) : OptMemWf (tryCopyStart s) := by
  unfold tryCopyStart
  split
  · trivial
  · split
    · exact valueMap_memWf fun _ => seekAhead_memWf (cpStart_memWf h)
    · split
      · split
        · exact (runBlock_memWf h).of_some ‹_›
        · exact seekAhead_memWf ((runBlock_memWf h).of_some ‹_›)
      · split
        · exact seekAhead_memWf h
        · trivial

theorem tryCopyResume_memWf (h : s.MemWf) : OptMemWf (tryCopyResume s) := by
  unfold tryCopyResume
  split
  · trivial
  · split
    · exact modRun_memWf h
    · trivial

theorem tryCopyComplete_memWf (h : s.MemWf) : OptMemWf (tryCopyComplete s) := by
  unfold tryCopyComplete
  split
  · trivial
  · split
    · split
      · exact engineCdec_memWf (seekAhead_memWf (modCore_memWf h fun _ => freeEng_memWf))
      · exact seekAhead_memWf (modCore_memWf h fun _ => freeEng_memWf)
    · trivial

theorem execCpc_memWf {a} (h : s.MemWf) : OutMemWf (execCpc a s) := by
  unfold execCpc
  dsimp only
  split
  · exact trapOut_memWf h
  · split
    · exact stallOut_memWf h
    · refine done_memWf ?_
      split
      · exact modCtx_memWf (modCore_memWf h fun _ hk => hk)
      · exact modCore_memWf h fun _ hk => hk

theorem execCpw_memWf (h : s.MemWf) : OutMemWf (execCpw s) := by
  unfold execCpw
  split
  · exact stallOut_memWf h
  · exact done_memWf h

/-! ### The pricking (Machine/Prick.lean) -/

theorem appendRecord_memWf {d q l} (h : s.MemWf) : (appendRecord s d q l).MemWf := modDie_memWf h

theorem counterOp_memWf {d c who t b op} (h : s.MemWf) : (counterOp s d c who t b op).MemWf := by
  unfold counterOp
  split
  · exact sendFrom_memWf h
  · dsimp only
    split
    · split
      · exact h.frame rfl rfl rfl
      · exact report_memWf h
    · split
      · split
        · exact (getD_memWf (walkNotes_memWf h) h).sameMem rfl rfl rfl rfl rfl
        · exact report_memWf (getD_memWf (walkNotes_memWf h) h)
      · exact report_memWf (getD_memWf (walkNotes_memWf h) h)
      · exact badTable_memWf (report_memWf (getD_memWf (walkNotes_memWf h) h))

theorem bindOp_memWf {d l b n} (h : s.MemWf) : (bindOp s d l b n).MemWf := counterOp_memWf h

theorem sendIncs_memWf {d l n} (h : s.MemWf) : (sendIncs s d l n).MemWf :=
  modDie_memWf (foldl_memWf h fun _ _ => bindOp_memWf)

theorem placeHead_memWf {d q cs} (h : s.MemWf) : (placeHead s d q cs).MemWf := by
  unfold placeHead
  split
  · exact h
  · refine modDie_memWf ?_
    split
    · split
      · exact modDie_memWf (setBar_memWf h)
      · exact sendIncs_memWf (modDie_memWf (setBar_memWf h))
    · split
      · split
        · exact h
        · exact sendIncs_memWf h
      · split
        · exact h
        · exact sendIncs_memWf h

theorem trySelect_memWf {d} (h : s.MemWf) : OptMemWf (trySelect d s) := by
  unfold trySelect
  dsimp only
  split
  · trivial
  · split
    · trivial
    · split
      · trivial
      · exact modDie_memWf (placeHead_memWf (modDie_memWf h))

theorem tryStart_memWf {d} (h : s.MemWf) : OptMemWf (tryStart d s) := by
  unfold tryStart
  dsimp only
  split
  · trivial
  · split
    · trivial
    · exact sendFrom_memWf (slowUpdate_memWf (modDie_memWf h))

theorem startRefused_memWf {r c cause} (h : s.MemWf) : (startRefused s r c cause).MemWf := by
  unfold startRefused
  dsimp only
  split
  · split
    · split
      · exact endTask_memWf (report_memWf h)
      · exact signalArrival_memWf (report_memWf h)
    · split
      · exact endTask_memWf (report_memWf (foldl_memWf h fun _ _ => bindOp_memWf))
      · exact signalArrival_memWf (report_memWf (foldl_memWf h fun _ _ => bindOp_memWf))
  · refine endTask_memWf (report_memWf ?_)
    split
    · exact h
    · exact foldl_memWf h fun _ _ => bindOp_memWf

theorem startLost_memWf {r c} (h : s.MemWf) : (startLost s r c).MemWf := by
  unfold startLost
  split
  · exact endTask_memWf h
  · exact placeAgain_memWf h

theorem tryEndReport_memWf (h : s.MemWf) : OptMemWf (tryEndReport s) := by
  unfold tryEndReport
  split
  · dsimp only
    split
    · exact closeFlights_memWf h
    · trivial
  · exact endTask_memWf (modCore_memWf h fun _ hk => hk)

theorem writeQueue_memWf {d q a} (h : s.MemWf) : (writeQueue d q a s).MemWf := modDie_memWf h

/-! ### What travels (Machine/Net.lean) -/

theorem uncode_memWf {src spray dr o} (h : k.MemWf) : UncodedMemWf (uncode k src spray dr o) := by
  unfold uncode
  dsimp only
  split
  · split <;> exact h
  · split
    · exact h
    · split
      · split <;> exact h
      · split
        · exact h
        · split
          · exact h
          · split <;> exact h
    · split
      · exact h
      · split <;> exact h

/-- The core that refuses a group. -/
theorem groupRefused_memWf {src : CoreId} {k1 : Core} {ps : List Packet} (h : k.MemWf) (e : groupRefused src k ps = some k1) :
    k1.MemWf := by
  induction ps generalizing k with
  | nil => cases e
  | cons p ps ih =>
    simp only [groupRefused] at e
    split at e
    · split at e
      · next eu =>
        cases e
        exact (uncode_memWf h).of_eq eu
      · next eu => exact ih ((uncode_memWf h).of_eq eu) e
    · exact ih h e

theorem resetSampler_memWf {dst} (h : k.MemWf) : (resetSampler k dst).MemWf := h

theorem putEntries_memWf {es} (h : k.MemWf) : (putEntries k es).MemWf := h

theorem replyTo_memWf {p b} (h : s.MemWf) : (replyTo s p b).MemWf := sendPkt_memWf h

theorem tryRetryPark_memWf (h : s.MemWf) : OptMemWf (tryRetryPark s) := by
  unfold tryRetryPark
  split
  · trivial
  · refine bind_memWf (lookEntry_memWf h) fun t ht => ?_
    have ha {q m p e} : AcceptMemWf (acceptValid (t.modCore fun k => { k with park := none }) q m p e) :=
      acceptValid_memWf (modCore_memWf ht fun _ hk => hk)
    dsimp only
    split
    · split
      · next e => exact replyTo_memWf (ha.of_eq e)
      · next e => exact ha.of_eq e
      · next e => exact replyTo_memWf (ha.of_eq e)
      · trivial
    · exact ht

theorem afterRewrite_memWf {es} (h : s.MemWf) : (afterRewrite s es).MemWf := by
  unfold afterRewrite
  split
  · split
    · exact getD_memWf (tryRetryPark_memWf h) h
    · exact h
  · exact h

theorem tryParkValid_memWf (h : s.MemWf) : OptMemWf (tryParkValid s) := by
  unfold tryParkValid
  split
  · split
    · exact tryRetryPark_memWf h
    · trivial
  · trivial

theorem rewords_memWf {reads writes} (h : s.MemWf) : (rewords s reads writes).1.MemWf :=
  modCore_memWf (consume_memWf h) fun _ => freshWords_memWf

theorem homeLost_memWf {o} (h : s.MemWf) : DelMemWf (homeLost s o) := killCore_memWf h

theorem intact_memWf {r : State × Bool} {f : State → Del} {o} (h : r.1.MemWf) (hf : ∀ t, t.MemWf → DelMemWf (f t)) :
    DelMemWf (intact r o f) := by
  unfold intact
  split
  · exact homeLost_memWf h
  · exact hf _ h

theorem starts_memWf (h : s.MemWf) : s.starts.MemWf := by
  unfold State.starts
  split
  · exact h.frame rfl rfl rfl
  · exact h

theorem takeBoot_memWf {grp m p} (h : s.MemWf) : DelMemWf (takeBoot s grp m p) := by
  unfold takeBoot
  dsimp only
  split
  · exact h
  · split
    · trivial
    · exact starts_memWf (modCore_memWf ((seenAt_memWf h).of_some ‹_›) fun _ hk =>
        freshWords_memWf <| hk.withIstore (wrBytes_wf _ _ _ (istore_memWf hk)) rfl rfl)
  · split
    · trivial
    · exact starts_memWf (afterRewrite_memWf (modCore_memWf ((seenAt_memWf h).of_some ‹_›) fun _ => putEntries_memWf))
  · split
    · trivial
    · exact intact_memWf (rewrite_memWf ((seenAt_memWf h).of_some ‹_›)) fun _ ht => starts_memWf (modCore_memWf ht fun _ hk =>
        wrBytes_memWf hk rfl rfl rfl)

theorem takeMsg_memWf {grp m p} (h : s.MemWf) : DelMemWf (takeMsg s grp m p) := by
  unfold takeMsg
  split
  · exact takeBoot_memWf h
  · split
    · dsimp only
      split
      · exact h
      · exact appendRecord_memWf h
    · split
      · exact (acceptMsg_memWf h).of_eq ‹_›
      · exact (acceptMsg_memWf h).of_eq ‹_›
      · exact (acceptMsg_memWf h).of_eq ‹_›
      · trivial

theorem landMsg_memWf {grp m p} (h : s.MemWf) : DelMemWf (landMsg s grp m p) := by
  unfold landMsg
  split
  · exact h
  · split
    · trivial
    · refine intact_memWf ?_ fun _ ht => modCore_memWf ht fun _ hk => wrCells_memWf hk rfl rfl rfl
      split
      · exact rewords_memWf ((seenAt_memWf h).of_some ‹_›)
      · exact rewrite_memWf ((seenAt_memWf h).of_some ‹_›)

theorem performAt_memWf {p grp o} (h : s.MemWf) : DelMemWf (performAt s p grp o) := by
  unfold performAt
  split
  · trivial
  · split
    · split <;> exact fst_memWf (consume_memWf h) ‹_›
    · exact intact_memWf (rewrite_memWf h) fun _ ht => modCore_memWf ht fun _ hk => wrCells_memWf hk rfl rfl rfl
    · exact intact_memWf (rewords_memWf h) fun _ ht => modCore_memWf ht fun _ hk => wrBytes_memWf hk rfl rfl rfl
    · exact intact_memWf (rewrite_memWf h) fun _ ht => modCore_memWf ht fun _ hk =>
        hk.withIstore (wrCells_wf _ _ (istore_memWf hk)) rfl rfl
    · exact afterRewrite_memWf (modCore_memWf h fun _ => putEntries_memWf)
    · exact intact_memWf (rewords_memWf h) fun _ ht => modCore_memWf ht fun _ hk =>
        hk.withMem (amoAt_wf _ _ _ _ _ _ (mem_memWf (core_memWf ht))) rfl rfl
    · split
      · exact takeMsg_memWf h
      · exact landMsg_memWf h
    · exact intact_memWf (rewords_memWf h) fun _ => countdown_memWf
    · exact intact_memWf (rewords_memWf h) fun _ => incrementAt_memWf
    · exact intact_memWf (rewords_memWf h) fun _ => ownIncrement_memWf
    · exact intact_memWf (rewords_memWf h) fun _ => releaseAt_memWf
    · exact modCore_memWf h fun _ => setLatches_memWf
    · exact postTask_memWf h

theorem atCore_memWf {grp p o} (h : s.MemWf) : DelMemWf (atCore s grp p o) := by
  have hu {src sp dr k} (hk : UncodedMemWf (uncode s.core src sp dr o) → k.MemWf) : (s.modCore fun _ => k).MemWf :=
    modCore_memWf h fun _ _ => hk (uncode_memWf (core_memWf h))
  unfold atCore
  split
  · next e => exact hu fun hk => hk.of_eq e
  · next e =>
    have ht : State.MemWf _ := hu fun hk => hk.of_eq e
    dsimp only
    split
    · exact performAt_memWf ht
    · split
      · split
        · trivial
        · exact performAt_memWf ((seenAt_memWf ht).of_some ‹_›)
      · exact performAt_memWf ht

theorem performChan_memWf {p o} (h : s.MemWf) : DelMemWf (performChan s p o) := by
  unfold performChan
  dsimp only
  split
  · split
    · exact h
    · exact report_memWf h
  · split
    · split
      · exact h
      · exact chanUpdate_memWf h
    · exact chanWrite_memWf h
    · exact chanWrite_memWf h
    · exact incrementFabric_memWf h
    · exact incrementFabric_memWf h
    · exact releaseFabric_memWf h
    · exact h
    · exact h
    · exact h
    · exact h
    · exact h
    · exact h
    · exact h

theorem atChan_memWf {n grp p o} (h : s.MemWf) : DelMemWf (atChan s n grp p o) := by
  unfold atChan
  split
  · trivial
  · exact performChan_memWf ((seenAt_memWf h).of_some ‹_›)

theorem crossed_memWf {p} (h : s.MemWf) : (crossed s p).MemWf := by
  unfold crossed
  split
  · exact h
  · exact h.frame rfl rfl rfl

theorem deliverOne_memWf {grp p o} (h : s.MemWf) : DelMemWf (deliverOne s grp p o) := by
  have hx := crossed_memWf (p := p) h
  unfold deliverOne
  dsimp only
  split
  · split
    · exact report_memWf h
    · exact replyTo_memWf h
  · split
    · split
      · next e =>
        have ht : State.MemWf _ := (atChan_memWf hx).of_eq e
        split
        · exact ht
        · exact replyTo_memWf ht
      · exact atChan_memWf hx
    · split
      · split
        · exact report_memWf hx
        · exact replyTo_memWf hx
      · split
        · next e =>
          have ht : State.MemWf _ := (atCore_memWf (focus_memWf hx)).of_eq e
          split
          · exact focus_memWf (clockUpdate_memWf ht)
          · exact replyTo_memWf (focus_memWf (clockUpdate_memWf ht))
        · exact atCore_memWf (focus_memWf hx)

theorem deliverRest_memWf {r : Route} {fuel : Nat} {moved : Bool} {ports : List PortKey} {kept : Option State}
    (hk : OptMemWf kept) (h : s.MemWf) : OptMemWf (deliverRest r fuel moved ports kept s) := by
  induction fuel generalizing moved ports kept s with
  | zero => exact hk
  | succ fuel ih =>
    have hsafe : OptMemWf (if moved && doneAt s r ports then some s else kept) := by
      split
      · exact h
      · exact hk
    simp only [deliverRest]
    split
    · exact hk
    · next rest _ =>
      have hr : State.MemWf { s with net := rest } := h.frame rfl rfl rfl
      split
      · split
        · exact hsafe
        · exact hsafe
        · next e =>
          have ht : State.MemWf _ := (deliverOne_memWf hr).of_eq e
          split
          · exact ih hsafe ht
          · exact ht
      · exact hk

theorem refuseGroup_memWf {ps} (h : s.MemWf) : (refuseGroup s ps).MemWf := by
  refine foldl_memWf (h.frame rfl rfl rfl) fun _ _ ht => ?_
  split
  · exact replyTo_memWf ht
  · exact ht

theorem deliverGroup_memWf {r : Route} (h : s.MemWf) :
    OptMemWf (deliverGroup r s) := by
  have hgo : OptMemWf (deliverRest r (s.net.length + 1) false [] none s) := deliverRest_memWf trivial h
  unfold deliverGroup
  dsimp only
  split
  · split
    · exact hgo
    · split
      · exact refuseGroup_memWf (onCore_memWf h fun t ht =>
          modCore_memWf ht fun _ _ => groupRefused_memWf (coreAt_memWf h) ‹_›)
      · split
        · trivial
        · exact hgo
  · exact hgo

theorem deliverSpray_memWf {p rest} (h : s.MemWf) : OptMemWf (deliverSpray s p rest) := by
  have hr : State.MemWf { s with net := rest } := h.frame rfl rfl rfl
  unfold deliverSpray
  split
  · split
    · next e => exact (deliverOne_memWf hr).of_eq e
    · trivial
  · trivial

theorem tryRequest_memWf {kind r} (h : s.MemWf) : OptMemWf (tryRequest kind r s) := by
  unfold tryRequest
  extract_lets is one two sprayFirst
  have h1 : OptMemWf one := by
    unfold one
    split
    · trivial
    · exact valueBind_memWf fun _ => deliverGroup_memWf h
  have h2 : OptMemWf two := valueBind_memWf fun _ => deliverSpray_memWf h
  clear_value one two
  split
  · cases two with
    | some t => exact h2
    | none => exact h1
  · cases one with
    | some t => exact h1
    | none => exact h2

theorem onRequest_memWf {kind r} (h : s.MemWf) : OutMemWf (onRequest kind r s) := getD_memWf (tryRequest_memWf h) h

theorem ackEffect_memWf {c eid} (h : s.MemWf) : (ackEffect s c eid).MemWf := settle_memWf (modCtxAt_memWf h)

theorem setCopies_memWf {c eid n} (h : s.MemWf) : (setCopies s c eid n).MemWf := modCtxAt_memWf h

theorem sendEffect_memWf {c more e} (h : s.MemWf) : (sendEffect c more s e).MemWf := by
  unfold sendEffect
  split
  · split
    · exact h.frame rfl rfl rfl
    · split
      · exact abortWith_memWf (ackEffect_memWf h)
      · exact ackEffect_memWf h
  · split
    · split
      · split
        · exact report_memWf (ackEffect_memWf h)
        · exact ackEffect_memWf h
        · exact foldl_memWf (setCopies_memWf h) fun _ _ => sendPkt_memWf
      · exact sendPkt_memWf (modCore_memWf h fun _ _ => codeMsg_memWf (core_memWf h))
    · exact sendPkt_memWf h

theorem sendGroup_memWf {c : CtxNo} {es : List Effect} (h : s.MemWf) :
    (sendGroup c es s).MemWf := by
  induction es generalizing s with
  | nil => exact h
  | cons e es ih => exact ih (sendEffect_memWf h)

theorem markSent_memWf {c es} (h : s.MemWf) : (markSent s c es).MemWf := modCtxAt_memWf h

theorem tryChunkSend_memWf {c} (h : s.MemWf) : OptMemWf (tryChunkSend c s) := by
  unfold tryChunkSend
  dsimp only
  split
  · trivial
  · split
    · exact settleAll_memWf (drainWhere_memWf h)
    · split
      · trivial
      · exact foldl_memWf (markSent_memWf h) fun _ _ => sendGroup_memWf

theorem implicitCommit_memWf {c} (h : s.MemWf) : (implicitCommit s c).MemWf := by
  unfold implicitCommit
  split
  · exact modCtxAt_memWf h
  · exact h

theorem countDone_memWf {c} (h : s.MemWf) : (countDone s c).MemWf := implicitCommit_memWf (modCtxAt_memWf h)

theorem loadAnswer_memWf {c bs} (h : s.MemWf) : (loadAnswer s c bs).MemWf := by
  unfold loadAnswer
  dsimp only
  split
  · exact h
  · split
    · split
      · exact modCtxAt_memWf (h.frame rfl rfl rfl)
      · exact abortWith_memWf h
    · split
      · exact modCore_memWf (modCtxAt_memWf h) fun _ => cacheLine_memWf
      · exact countDone_memWf (modCtxAt_memWf h)

theorem atSender_memWf {f : State → State} {p} (h : s.MemWf) (hf : ∀ t, t.MemWf → (f t).MemWf) : (atSender s p f).MemWf := by
  unfold atSender
  split
  · split
    · exact onCore_memWf h fun _ => hf _
    · split
      · exact onCore_memWf h fun _ => hf _
      · exact h
  · exact h

theorem takeLoadReply_memWf {p bs} (h : s.MemWf) : (takeLoadReply p bs s).MemWf := by
  unfold takeLoadReply
  split
  · split
    · exact loadAnswer_memWf h
    · exact h
  · exact h

theorem takeAtomicReply_memWf {p : Packet} (h : s.MemWf) : (takeAtomicReply p s).MemWf := by
  unfold takeAtomicReply
  split
  · extract_lets t
    have ht : t.MemWf := ackEffect_memWf h
    clear_value t
    split
    · generalize p.body = b
      cases b
      case atomicReply => exact modCtxAt_memWf ht
      case stale => exact abortCtx_memWf ht
      case poisoned => exact killCore_memWf ht
      all_goals exact ht
    · exact ht
  · exact h

theorem incDone_memWf {eid} (h : s.MemWf) : (incDone s eid).MemWf := modDie_memWf h

theorem takeAck_memWf {p} (h : s.MemWf) : (takeAck p s).MemWf := by
  unfold takeAck
  split
  · exact ackEffect_memWf h
  · exact incDone_memWf h
  · exact h
  · exact h
  · exact h

theorem niLost_memWf {leaf m} (h : s.MemWf) : (niLost s leaf m).MemWf := by
  unfold niLost
  split
  · exact h
  · split
    · exact reportDiscard_memWf h
    · exact report_memWf h

theorem takeErr_memWf {p cause m user done} (h : s.MemWf) : (takeErr p cause m user done s).MemWf := by
  unfold takeErr
  split
  · dsimp only
    split
    · exact abortAs_memWf (ackEffect_memWf h)
    · exact ackEffect_memWf h
  · exact report_memWf h
  · exact report_memWf h
  · exact niLost_memWf (report_memWf h)
  · split
    · exact startLost_memWf h
    · exact incDone_memWf h

theorem freeOutcome_memWf {f} (h : s.MemWf) : (freeOutcome s f).MemWf := by
  unfold freeOutcome
  split
  · exact h
  · exact ackEffect_memWf h

theorem postFailure_memWf {p} (h : s.MemWf) : (postFailure s p).MemWf := by
  unfold postFailure
  split
  · split
    · exact freeOutcome_memWf ((tryPost_memWf h).of_some ‹_›)
    · exact modCore_memWf h fun _ hk => hk
  · exact modCore_memWf h fun _ hk => hk

theorem putResend_memWf {a} (h : s.MemWf) : (putResend s a).MemWf := by
  unfold putResend
  split
  · exact modDie_memWf h
  · exact modCore_memWf h fun _ hk => hk

theorem refusedMsg_memWf {p cause leaf m} (h : s.MemWf) : (refusedMsg p cause leaf m s).MemWf := by
  unfold refusedMsg
  split
  · exact postFailure_memWf h
  · exact startRefused_memWf h
  · exact niLost_memWf h
  · exact report_memWf h
  · exact report_memWf h
  · exact report_memWf h

theorem takeNack_memWf {p cause o} (h : s.MemWf) : (takeNack p cause o s).MemWf := by
  unfold takeNack
  dsimp only
  split
  · exact modCore_memWf (putResend_memWf h) fun _ => resetSampler_memWf
  · split
    · split
      · exact putResend_memWf h
      · exact refusedMsg_memWf h
    · exact h

theorem tryReply_memWf {f : Packet → State → State} {kind r} (h : ∀ x t, t.MemWf → (f x t).MemWf) (hs : s.MemWf) :
    OptMemWf (tryReply kind f r s) := by
  unfold tryReply
  split
  · trivial
  · dsimp only
    split
    · trivial
    · split
      · exact atSender_memWf (hs.frame rfl rfl rfl) fun _ => takeErr_memWf
      · exact atSender_memWf (crossed_memWf (hs.frame rfl rfl rfl)) fun _ => h _ _

theorem onReply_memWf {f : Packet → State → State} {kind r} (h : ∀ x t, t.MemWf → (f x t).MemWf) (hs : s.MemWf) :
    OutMemWf (onReply kind f r s) :=
  getD_memWf (tryReply_memWf (fun _ _ => h _ _) hs) hs

theorem resendOne_memWf {dr a} (h : s.MemWf) : (resendOne dr s a).MemWf := by
  refine sendPkt_memWf (modCore_memWf h fun _ _ => ?_)
  split
  · exact codeMsg_memWf (core_memWf h)
  · exact core_memWf h

theorem resendAll_memWf {a} (h : s.MemWf) : (resendAll s a).MemWf := by
  unfold resendAll
  split
  · exact h
  · exact foldl_memWf (resendOne_memWf h) fun _ _ => resendOne_memWf

theorem resendHeld_memWf {dst} (h : s.MemWf) : (resendHeld s dst).MemWf := resendAll_memWf (modCore_memWf h fun _ hk => hk)

theorem resendPricks_memWf {d dst} (h : s.MemWf) : (resendPricks s d dst).MemWf := resendAll_memWf (modDie_memWf h)

theorem tryResend_memWf {n} (h : s.MemWf) : OptMemWf (tryResend n s) := by
  unfold tryResend
  split
  · split
    · split
      · trivial
      · exact resendHeld_memWf h
    · split
      · trivial
      · exact resendOne_memWf (modCore_memWf h fun _ hk => hk)
  · extract_lets d i
    clear_value d
    generalize supOf d = q
    split
    · trivial
    · split
      · trivial
      · split
        · split
          · trivial
          · exact resendPricks_memWf h
        · split
          · trivial
          · exact resendOne_memWf (modDie_memWf h)

theorem execNackReceipt_memWf {r} (h : s.MemWf) : OutMemWf (execNackReceipt r s) := by
  refine onReply_memWf (fun _ _ ht => ?_) h
  split
  · exact takeNack_memWf ht
  · exact ht

theorem execLoadReply_memWf {r} (h : s.MemWf) : OutMemWf (execLoadReply r s) := by
  refine onReply_memWf (fun _ _ ht => ?_) h
  split
  · exact takeLoadReply_memWf ht
  · exact takeAtomicReply_memWf ht

theorem execErrorPacket_memWf {r} (h : s.MemWf) : OutMemWf (execErrorPacket r s) := by
  refine onReply_memWf (fun _ _ ht => ?_) h
  split
  · exact takeErr_memWf ht
  · exact ht

theorem dropSampler_memWf {p} (h : s.MemWf) : (dropSampler s p).MemWf := by
  unfold dropSampler
  split
  · split
    · exact onCore_memWf h fun _ ht => modCore_memWf ht fun _ hk => hk
    · exact h
  · exact h

theorem execPoisonedPacket_memWf {r} (h : s.MemWf) : OutMemWf (execPoisonedPacket r s) := by
  unfold execPoisonedPacket
  split
  · exact h
  · exact report_memWf (dropSampler_memWf (h.frame rfl rfl rfl))

theorem execLinkRetry_memWf {link} (h : s.MemWf) : OutMemWf (execLinkRetry link s) := by
  unfold execLinkRetry
  dsimp only [OutMemWf]
  split
  · exact h
  · split
    · exact h.frame rfl rfl rfl
    · exact report_memWf (h.frame rfl rfl rfl)

/-! ### What happens at a core beside its instructions (Machine/Agents.lean) -/

theorem rotate_memWf (h : s.MemWf) : (rotate s).MemWf := by
  unfold rotate
  split <;> exact modCore_memWf h fun _ hk => hk

theorem wakeAll_memWf (h : s.MemWf) : (wakeAll s).MemWf := modCore_memWf h fun _ hk => hk

theorem execImplicitCommit_memWf {c} (h : s.MemWf) : OutMemWf (execImplicitCommit c s) := by
  unfold execImplicitCommit
  split
  · exact modCtxAt_memWf h
  · exact h

theorem execIssueQuantumExpiry_memWf (h : s.MemWf) : OutMemWf (execIssueQuantumExpiry s) := by
  unfold execIssueQuantumExpiry
  split
  · exact rotate_memWf h
  · exact h

theorem tryDispatch_memWf (h : s.MemWf) : OptMemWf (tryDispatch s) := by
  unfold tryDispatch
  split
  · trivial
  · split
    · split
      · trivial
      · exact clockUpdate_memWf (activate_memWf (modCore_memWf h fun _ hk => hk))
    · trivial

theorem tryPromote_memWf {n} (h : s.MemWf) : OptMemWf (tryPromote n s) := by
  unfold tryPromote
  split
  · trivial
  · split
    · exact clockUpdate_memWf (modCore_memWf h fun _ hk => hk)
    · trivial

theorem tryWatchdog_memWf {c} (h : s.MemWf) : OptMemWf (tryWatchdog c s) := by
  unfold tryWatchdog
  dsimp only
  split
  · trivial
  · split
    · exact strike_memWf (modCtxAt_memWf h)
    · trivial

theorem tryRelease_memWf {c} (h : s.MemWf) : OptMemWf (tryRelease c s) := by
  unfold tryRelease
  dsimp only
  split
  · split
    · trivial
    · exact clockUpdate_memWf (dropD0_memWf (modCtxAt_memWf h))
  · split
    · exact clockUpdate_memWf (modCore_memWf (modCtxAt_memWf h) fun _ hk => hk)
    · trivial

theorem resumeFrom_memWf {c w upd} (h : s.MemWf) : (resumeFrom s c w upd).MemWf := by
  have hrun {t : State} {f : Ctx → Ctx} (ht : t.MemWf) : (t.modCtxAt c f).clockUpdate.MemWf :=
    clockUpdate_memWf (modCtxAt_memWf ht)
  have hfill {va f} (e : fillLine s c va = some f) : FilledMemWf f := fillLine_memWf h e
  obtain ⟨g, hg⟩ : ∃ g, g = fillLine := exists_eq
  unfold resumeFrom
  rw [← hg] at hfill ⊢
  clear hg
  dsimp only
  split
  · exact hrun h
  · exact hrun h
  · split
    · split
      · exact h
      · next e => exact hrun (hfill e)
      · next e => exact abortWith_memWf (hrun (hfill e))
      · next e => exact hfill e
    · split
      · exact hrun (h.frame rfl rfl rfl)
      · exact abortWith_memWf (hrun h)

theorem resumePage_memWf {page space} (h : s.MemWf) : (resumePage page space s).MemWf := by
  refine foldl_memWf h fun _ _ ht => ?_
  split
  · exact resumeFrom_memWf ht
  · exact ht

theorem serviced_memWf {c w upd} (h : s.MemWf) : (serviced s c w upd).MemWf := by
  unfold serviced
  split
  · exact foldl_memWf (resumePage_memWf h) fun _ _ ht => onCore_memWf ht fun _ => resumePage_memWf
  · exact resumeFrom_memWf h
  · exact resumeFrom_memWf h

theorem execSupervisorResume_memWf {c upd} (h : s.MemWf) : OutMemWf (execSupervisorResume c upd s) := by
  unfold execSupervisorResume
  split
  · exact serviced_memWf h
  · exact h
  · exact h
  · exact h
  · exact h
  · exact h
  · exact h

theorem releaseHolds_memWf {c} (h : s.MemWf) : (releaseHolds s c).MemWf := by
  refine foldl_memWf h fun _ _ ht => ?_
  dsimp only
  split
  · exact modCore_memWf ht fun _ => leaveBank_memWf
  · exact ht

theorem setSave_memWf {c y} (h : k.MemWf) : (setSave k c y).MemWf := h

theorem trySave_memWf {c} (h : s.MemWf) : OptMemWf (trySave c s) := by
  unfold trySave
  split
  · dsimp only
    split
    · exact report_memWf (modCore_memWf (modCtxAt_memWf (releaseHolds_memWf (modCtxAt_memWf h))) fun _ => setSave_memWf)
    · exact modCtxAt_memWf h
  · trivial
  · trivial
  · trivial
  · trivial
  · trivial
  · trivial

theorem tryRestore_memWf {c} (h : s.MemWf) : OptMemWf (tryRestore c s) := by
  unfold tryRestore
  split
  · exact resumeFrom_memWf (modCtxAt_memWf (modCore_memWf h fun _ => setSave_memWf))
  · trivial
  · trivial
  · trivial
  · trivial
  · trivial
  · trivial

theorem decideBand_memWf {b now} (h : k.MemWf) : (decideBand k b now).MemWf := by
  unfold decideBand
  split
  · exact h
  · exact freeBand_memWf h

theorem tryBandRelease_memWf {b} (h : s.MemWf) : OptMemWf (tryBandRelease b s) := by
  unfold tryBandRelease
  split
  · trivial
  · split
    · split
      · trivial
      · refine clockUpdate_memWf (modCore_memWf h fun _ hk => decideBand_memWf ?_)
        exact hk
    · trivial
    · trivial

theorem releaseKept_memWf {t d} (h : s.MemWf) : (releaseKept s t d).MemWf := counterOp_memWf h

theorem releaseAllKept_memWf {r} (h : s.MemWf) : (releaseAllKept s r).MemWf := foldl_memWf h fun _ _ => releaseKept_memWf

theorem tryDiscard_memWf {b} (h : s.MemWf) : OptMemWf (tryDiscard b s) := by
  unfold tryDiscard
  split
  · trivial
  · split
    · trivial
    · split
      · extract_lets s1 s2 s3
        have h1 : s1.MemWf := by
          refine modCore_memWf h fun _ hk => decideBand_memWf ?_
          exact hk
        have h2 : s2.MemWf := reportDiscard_memWf (releaseAllKept_memWf h1)
        refine clockUpdate_memWf ?_
        unfold s3
        split
        · exact h2
        · split
          · exact signalArrival_memWf h2
          · exact endTask_memWf h2
      · trivial

theorem tryFrameApply_memWf (h : s.MemWf) : OptMemWf (tryFrameApply s) :=
  valueMap_memWf fun _ => clockUpdate_memWf (modCore_memWf h fun _ hk => hk)

theorem tryInboxApply_memWf (h : s.MemWf) : OptMemWf (tryInboxApply s) :=
  valueMap_memWf fun _ => modCore_memWf h fun _ hk => hk

theorem tryParkTimeout_memWf (h : s.MemWf) : OptMemWf (tryParkTimeout s) := by
  unfold tryParkTimeout
  split
  · trivial
  · split
    · exact replyTo_memWf (modCore_memWf h fun _ hk => hk)
    · trivial

theorem tryLocalPost_memWf (h : s.MemWf) : OptMemWf (tryLocalPost s) := by
  unfold tryLocalPost
  split
  · trivial
  · next rest _ =>
    have hr : (s.modCore fun k => { k with posts := rest }).MemWf := modCore_memWf h fun _ hk => hk
    split
    · trivial
    · exact clockUpdate_memWf (freeOutcome_memWf ((tryPost_memWf hr).of_some ‹_›))

theorem tryGatherTimeout_memWf {n} (h : s.MemWf) : OptMemWf (tryGatherTimeout n s) := by
  unfold tryGatherTimeout
  split
  · trivial
  · split
    · exact settleAll_memWf (drainLine_memWf h)
    · trivial

theorem tryHeldDrain_memWf (h : s.MemWf) : OptMemWf (tryHeldDrain s) :=
  valueMap_memWf fun _ => settleAll_memWf (drainLine_memWf h)

theorem rewindEnds_memWf {n bank c h} (hs : s.MemWf) : (rewindEnds n s bank c h).MemWf := by
  unfold rewindEnds
  dsimp only
  split
  · split
    · exact countDone_memWf (modCtxAt_memWf (modHead_memWf (modCore_memWf hs fun _ => setBank_memWf)))
    · exact modHead_memWf (modCore_memWf hs fun _ => setBank_memWf)
  · split
    · exact clockUpdate_memWf (abortWith_memWf (modCore_memWf hs fun _ => setBank_memWf))
    · exact modHead_memWf (modCore_memWf hs fun _ => setBank_memWf)

theorem alignAt_memWf {n bank} (h : s.MemWf) : OptMemWf (alignAt n bank s) := by
  unfold alignAt
  dsimp only
  split
  · split
    · split
      · exact rewindEnds_memWf h
      · trivial
    · split
      · exact arriveAt_memWf h
      · trivial
  · trivial

theorem tryAligned_memWf {bank} (h : s.MemWf) : OptMemWf (tryAligned bank s) := by
  unfold tryAligned
  split
  · trivial
  · exact alignAt_memWf h

theorem bankRun_memWf {bank : BitVec 8} {n1 fuel n : Nat} (h : s.MemWf) :
    (bankRun bank n1 fuel n s).MemWf := by
  induction fuel generalizing n s with
  | zero => exact h
  | succ fuel ih =>
    simp only [bankRun]
    have ht {m : Nat} : ((alignAt m bank s).getD s).MemWf := getD_memWf (alignAt_memWf h) h
    split
    · exact h
    · split
      · exact h
      · exact ih (getD_memWf (grantAt_memWf ht) ht)

theorem bankCycles_memWf {c0} (h : s.MemWf) : (bankCycles c0 s).MemWf := by
  unfold bankCycles
  split
  · exact foldl_memWf h fun _ _ => bankRun_memWf
  · exact h

theorem remapBank_memWf {bank} (h : s.MemWf) : (remapBank bank s).MemWf := by
  unfold remapBank
  extract_lets k
  split
  · exact modCore_memWf h fun _ => setBank_memWf
  · extract_lets t
    have ht : t.MemWf := by
      refine modCore_memWf (arrive_memWf h) fun k0 hk => ?_
      have hm : (moveBank s.cyc k0 bank).MemWf := moveBank_memWf hk
      exact hm
    split
    · exact ht
    · exact steer_memWf ht

theorem writeRed_memWf {n red} (h : s.MemWf) : (writeRed s n red).MemWf := by
  unfold writeRed
  split
  · exact h
  · split
    · exact h.frame rfl rfl rfl
    · exact h

theorem writeBarrier_memWf {n cfg} (h : s.MemWf) : (writeBarrier s n cfg).MemWf := by
  unfold writeBarrier
  dsimp only
  split
  · exact h
  · exact writeRed_memWf (setBar_memWf h)

theorem tryBoot_memWf (h : s.MemWf) : OptMemWf (tryBoot s) := by
  unfold tryBoot
  split
  · trivial
  · split
    · exact h.frame rfl rfl rfl
    · trivial
    · split
      · exact h.frame rfl rfl rfl
      · trivial

theorem reset_memWf : State.reset.MemWf := ⟨reset_dram_wf, reset_core_memWf 1, fun _ hp => nomatch hp⟩

theorem execPackageReset_memWf : OutMemWf (execPackageReset s) := reset_memWf.frame rfl rfl rfl

theorem tryReplayTimeout_memWf {p} (h : s.MemWf) : OptMemWf (tryReplayTimeout p s) := by
  unfold tryReplayTimeout
  dsimp only
  split
  · exact report_memWf (h.frame rfl rfl rfl)
  · trivial

/-! ### Branches and jumps (Machine/Branch.lean) -/

theorem branchIf_memWf {t} {n : Nat} {x : BitVec n} (h : s.MemWf) : OutMemWf (branchIf t x s) := by
  unfold branchIf
  split
  · exact jump_memWf h
  · exact done_memWf h

theorem execJalr_memWf {d a i} (h : s.MemWf) : OutMemWf (execJalr d a i s) := by
  unfold execJalr
  dsimp only
  split
  · exact trapOut_memWf h
  · exact jump_memWf (setG_memWf h)

/-! ### The memory channels (Machine/Mem.lean) -/

theorem cwSpoil_memWf {w} (h : s.MemWf) : (cwSpoil s w).MemWf := by
  unfold cwSpoil
  dsimp only
  split
  · exact foldl_memWf (setErrs_memWf h) fun _ _ => setPoison_memWf
  · split
    · exact setErrs_memWf h
    · exact h.sameMem rfl rfl rfl rfl rfl

theorem cwCount_memWf {w errs} (h : s.MemWf) : (cwCount s w errs).MemWf := setErasure_memWf h

theorem readLineErrs_memWf {pa errs} (h : s.MemWf) : (readLineErrs pa errs s).MemWf := by
  unfold readLineErrs
  dsimp only
  split
  · exact cwCount_memWf (setErrs_memWf h)
  · exact setErrs_memWf h

theorem seenHere_memWf {pa kind src} (h : s.MemWf) : OptMemWf (seenHere s pa kind src) := seenAt_memWf h

theorem seenLines_memWf {cs} (h : s.MemWf) : OptMemWf (seenLines s cs) :=
  foldl_optMemWf h fun _ _ h1 => bind_memWf h1 fun _ => seenHere_memWf

theorem scrub_memWf {pa errs} (h : s.MemWf) : (scrub pa errs s).MemWf := by
  unfold scrub
  dsimp only
  split
  · exact cwCount_memWf (setErrs_memWf h)
  · exact report_memWf (cwSpoil_memWf h)

theorem execMemoryLineWrite_memWf {pa bytes} (h : s.MemWf) : OutMemWf (execMemoryLineWrite pa bytes s) := by
  unfold execMemoryLineWrite
  dsimp only [OutMemWf]
  split
  · exact h
  · exact chanWrite_memWf ((seenLines_memWf h).of_some ‹_›)

theorem execPatrolScrub_memWf {pa errs} (h : s.MemWf) : OutMemWf (execPatrolScrub pa errs s) := by
  unfold execPatrolScrub
  split
  · exact h
  · exact scrub_memWf ((seenHere_memWf h).of_some ‹_›)

theorem execFrameTagWrite_memWf {frame a} (h : s.MemWf) : OutMemWf (execFrameTagWrite frame a s) := by
  unfold execFrameTagWrite
  dsimp only [OutMemWf]
  split
  · exact h
  · have ht : State.MemWf _ := (seenHere_memWf h).of_some ‹_›
    exact ht.frame rfl rfl rfl

theorem execPageWalk_memWf {va acc} (h : s.MemWf) : OutMemWf (execPageWalk va acc s) := by
  unfold execPageWalk
  split
  · exact translateHere_memWf h
  · exact h

/-! ### The power controller (Machine/Power.lean) -/

theorem modPower_memWf {f} (h : s.MemWf) : (s.modPower f).MemWf := h.frame rfl rfl rfl

theorem withholdRegions_memWf (h : s.MemWf) : (withholdRegions s).MemWf := foldl_memWf h fun _ _ => modDie_memWf

theorem shedClass_memWf {c} (h : s.MemWf) : (shedClass s c).MemWf :=
  powerEvents_memWf (withholdRegions_memWf (modPower_memWf h))

theorem shedDown_memWf {n : Nat} (h : s.MemWf) :
    (shedDown n s).MemWf := by
  induction n generalizing s with
  | zero => exact h
  | succ n ih =>
    simp only [shedDown]
    split
    · refine ih ?_
      split
      · exact h
      · exact shedClass_memWf h
    · exact h

theorem applyShed_memWf (h : s.MemWf) : (applyShed s).MemWf := by
  unfold applyShed
  split
  · exact h
  · exact shedDown_memWf h

theorem restartCounts_memWf (h : s.MemWf) : (restartCounts s).MemWf := modPower_memWf h

theorem comparator_memWf {vbus} (h : s.MemWf) : (comparator s vbus).MemWf := by
  unfold comparator
  split
  · refine foldl_memWf (modPower_memWf h) fun _ _ ht => ?_
    split
    · exact ht
    · exact shedClass_memWf ht
  · exact modPower_memWf h

theorem takeFrame_memWf {f} (h : s.MemWf) : (takeFrame s f).MemWf := by
  refine modPower_memWf (applyShed_memWf (comparator_memWf (modPower_memWf ?_)))
  split
  · exact restartCounts_memWf h
  · exact h

theorem telemetry_memWf {f} (h : s.MemWf) : (telemetry f s).MemWf := by
  unfold telemetry
  split
  · exact modPower_memWf h
  · split
    · exact modPower_memWf h
    · exact takeFrame_memWf h

theorem tryMissing_memWf (h : s.MemWf) : OptMemWf (tryMissing s) := by
  unfold tryMissing
  split
  · exact modPower_memWf (restartCounts_memWf h)
  · trivial

theorem failsafeTick_memWf (h : s.MemWf) : (failsafeTick s).MemWf := applyShed_memWf (modPower_memWf h)

theorem tryFailsafe_memWf (h : s.MemWf) : OptMemWf (tryFailsafe s) := by
  unfold tryFailsafe
  split
  · exact failsafeTick_memWf (modPower_memWf h)
  · trivial

theorem tryTick_memWf (h : s.MemWf) : OptMemWf (tryTick s) := by
  unfold tryTick
  split
  · exact failsafeTick_memWf h
  · trivial

theorem tryWindow_memWf {base cores off} (h : s.MemWf) : OptMemWf (tryWindow base cores off s) := by
  unfold tryWindow
  split
  · exact modPower_memWf h
  · trivial

theorem execMeasuringWindowClose_memWf {base cores off} (h : s.MemWf) :
    OutMemWf (execMeasuringWindowClose base cores off s) :=
  getD_memWf (tryWindow_memWf h) h

theorem slowAll_memWf (h : s.MemWf) : (slowAll s).MemWf := foldl_memWf h fun _ _ => slowUpdate_memWf

theorem trySlowdown_memWf {c} (h : s.MemWf) : OptMemWf (trySlowdown c s) := by
  unfold trySlowdown
  split
  · exact slowAll_memWf (modPower_memWf h)
  · trivial

theorem freePhases_memWf (h : s.MemWf) : (freePhases s).MemWf := by
  refine foldl_memWf h fun _ _ ht => ?_
  dsimp only
  split
  · exact onWaiters_memWf (setBar_memWf ht)
  · exact ht

theorem restoreClass_memWf {a} (h : s.MemWf) : (restoreClass s a).MemWf := by
  refine powerEvents_memWf ?_
  split
  · exact foldl_memWf (slowAll_memWf (freePhases_memWf (modPower_memWf h))) fun _ _ => modDie_memWf
  · exact slowAll_memWf (freePhases_memWf (modPower_memWf h))

theorem tryRestoreClass_memWf (h : s.MemWf) : OptMemWf (tryRestoreClass s) := by
  unfold tryRestoreClass
  split
  · split
    · exact restoreClass_memWf h
    · trivial
  · trivial

theorem tryHwClear_memWf (h : s.MemWf) : OptMemWf (tryHwClear s) := by
  unfold tryHwClear
  split
  · trivial
  · split
    · exact freePhases_memWf (modPower_memWf h)
    · trivial

theorem writePcap_memWf {a} (h : s.MemWf) : (writePcap s a).1.MemWf := by
  unfold writePcap
  dsimp only
  split
  · exact h
  · split
    · exact h
    · split
      · split
        · refine foldl_memWf (modPower_memWf (modPower_memWf h)) fun _ _ ht => ?_
          split
          · exact ht
          · exact powerEvents_memWf ht
        · exact h
      · exact modPower_memWf h

theorem writeFloors_memWf {a} (h : s.MemWf) : (writeFloors s a).1.MemWf := by
  unfold writeFloors
  dsimp only
  split
  · exact h
  · split
    · exact h
    · exact modPower_memWf h

theorem writeCurve_memWf {f a} (h : s.MemWf) : (writeCurve s f a).1.MemWf := by
  unfold writeCurve
  dsimp only
  split
  · exact h
  · split
    · exact h
    · exact modPower_memWf h

theorem atPort_memWf {r : State × Nat} (h : r.1.MemWf) : (atPort r).MemWf := modPower_memWf h

theorem clockDie_memWf {d} (h : s.MemWf) : (clockDie s d).MemWf := by
  refine foldl_memWf h fun _ _ ht => ?_
  split
  · exact onCore_memWf ht fun _ => clockUpdate_memWf
  · exact ht

theorem tryFwExpiry_memWf (h : s.MemWf) : OptMemWf (tryFwExpiry s) := by
  unfold tryFwExpiry
  split
  · exact modPower_memWf h
  · trivial

theorem execFirmwareKick_memWf (h : s.MemWf) : OutMemWf (execFirmwareKick s) := by
  unfold execFirmwareKick
  split
  · exact h
  · exact modPower_memWf h

/-! ### Hosts and other packages (Machine/Host.lean) -/

theorem respond_memWf {q status data} (h : s.MemWf) : (respond s q status data).MemWf := h.frame rfl rfl rfl

theorem dropPacket_memWf (h : s.MemWf) : (dropPacket s).MemWf := h.frame rfl rfl rfl

theorem hostOp_memWf {f : State → HostReq → Credential → State} {op q}
    (h : ∀ t, t.MemWf → ∀ x y, (f t x y).MemWf) (hs : s.MemWf) : (hostOp op f q s).MemWf := by
  unfold hostOp
  split
  · exact dropPacket_memWf hs
  · split
    · exact dropPacket_memWf hs
    · split
      · exact respond_memWf hs
      · split
        · exact h _ hs _ _
        · split
          · exact hs
          · exact respond_memWf hs

theorem pageXlate_memWf {t acc va} (h : s.MemWf) : (pageXlate s t acc va).2.MemWf := by
  unfold pageXlate
  split
  · exact h
  · split
    · exact (walkNotes_memWf h).of_some ‹_›
    · exact badTable_memWf ((walkNotes_memWf h).of_some ‹_›)
    · exact (walkNotes_memWf h).of_some ‹_›

theorem rangeXlate_memWf {t acc va n} (h : s.MemWf) : (rangeXlate s t acc va n).2.MemWf := by
  unfold rangeXlate
  dsimp only
  split
  · split
    · exact snd_memWf (pageXlate_memWf h) ‹_›
    · split <;> exact snd_memWf (pageXlate_memWf (snd_memWf (pageXlate_memWf h) ‹_›)) ‹_›
  · exact snd_memWf (pageXlate_memWf h) ‹_›

theorem outsideNotes_memWf {kind : Nat} {ports : List PortKey} {l : List (Nat × Nat)} (h : s.MemWf) :
    OptMemWf (outsideNotes s kind ports l) := by
  induction l generalizing s with
  | nil => exact h
  | cons p ps ih => exact bind_memWf (seenAt_memWf h) fun _ => ih

theorem hostAccess_memWf {f : State → List Nat → State} {q c acc kind n} (h : s.MemWf)
    (hf : ∀ t, t.MemWf → ∀ x, (f t x).MemWf) : (hostAccess s q c acc kind n f).MemWf := by
  unfold hostAccess
  dsimp only
  split
  · exact respond_memWf h
  · split
    · exact respond_memWf h
    · split
      · exact h
      · exact respond_memWf (report_memWf (snd_memWf (rangeXlate_memWf h) ‹_›))
      · split
        · exact h
        · exact hf _ ((outsideNotes_memWf (snd_memWf (rangeXlate_memWf h) ‹_›)).of_some ‹_›) _

theorem hostLoad_memWf {q c} (h : s.MemWf) : (hostLoad s q c).MemWf := by
  unfold hostLoad
  split
  · exact respond_memWf h
  · refine hostAccess_memWf h fun _ ht _ => ?_
    split
    · exact respond_memWf ht
    · exact respond_memWf (countReads_memWf ht)

theorem hostStore_memWf {q c} (h : s.MemWf) : (hostStore s q c).MemWf := by
  unfold hostStore
  split
  · exact respond_memWf h
  · exact hostAccess_memWf h fun _ ht _ => respond_memWf (chanWrite_memWf ht)

theorem outsideAtomic_memWf {t : State} {pas : List Nat} {fn : BitVec 4} {z : Size} {b e : Word} {v : Nat} (h : s.MemWf)
    (ht : outsideAtomic s pas fn z b e = some (t, v)) : t.MemWf := by
  obtain ⟨bs, -, ht⟩ := Option.map_eq_some_iff.mp ht
  cases ht
  exact chanUpdate_memWf h

theorem hostAtomic_memWf {q c} (h : s.MemWf) : (hostAtomic s q c).MemWf := by
  unfold hostAtomic
  dsimp only
  split
  · split
    · exact respond_memWf h
    · refine hostAccess_memWf h fun _ ht _ => ?_
      split
      · exact respond_memWf ht
      · exact respond_memWf (outsideAtomic_memWf ht ‹_›)
  · split
    · exact respond_memWf h
    · refine hostAccess_memWf h fun _ ht _ => ?_
      split
      · exact respond_memWf ht
      · exact respond_memWf (outsideAtomic_memWf ht ‹_›)

theorem outsideAccumulate_memWf {pas lt bs} (h : s.MemWf) : OptMemWf (outsideAccumulate s pas lt bs) :=
  valueMap_memWf fun _ => chanUpdate_memWf h

theorem hostAccumulate_memWf {q c} (h : s.MemWf) : (hostAccumulate s q c).MemWf := by
  unfold hostAccumulate
  dsimp only
  split
  · exact respond_memWf h
  · refine hostAccess_memWf h fun _ ht _ => ?_
    split
    · exact respond_memWf ht
    · exact respond_memWf ((outsideAccumulate_memWf ht).of_some ‹_›)

theorem hostAppend_memWf {q c} (h : s.MemWf) : (hostAppend s q c).MemWf := by
  unfold hostAppend
  dsimp only
  split
  · exact respond_memWf h
  · split
    · exact respond_memWf h
    · exact respond_memWf (appendRecord_memWf h)

/-- What a register write answers, where the register is written. -/
theorem regWrite_memWf {t : State} {r n : Nat} {bs : List Byte} (h : s.MemWf) (e : regWrite s r bs = some (t, n)) :
    t.MemWf := by
  unfold regWrite at e
  extract_lets x put n at e
  have hput {f : Power → Power} : (put f).1.MemWf := by
    unfold put
    split
    · exact h
    · exact modPower_memWf h
  clear_value x put n
  split at e
  · cases e
  split at e
  · exact fst_memWf (writePcap_memWf h) (Option.some.inj e)
  · exact fst_memWf (writeFloors_memWf h) (Option.some.inj e)
  · exact fst_memWf hput (Option.some.inj e)
  · exact fst_memWf hput (Option.some.inj e)
  · exact fst_memWf hput (Option.some.inj e)
  · exact fst_memWf (writeCurve_memWf h) (Option.some.inj e)
  · exact fst_memWf (writeCurve_memWf h) (Option.some.inj e)
  · cases e
    exact h.frame rfl rfl rfl
  · cases e

theorem hostRegRead_memWf {q a} (h : s.MemWf) : (hostRegRead s q a).MemWf := by
  unfold hostRegRead
  split <;> exact respond_memWf h

theorem hostRegWrite_memWf {q c} (h : s.MemWf) : (hostRegWrite s q c).MemWf := by
  unfold hostRegWrite
  split
  · exact respond_memWf h
  · rename_i e
    split at e
    · exact respond_memWf (regWrite_memWf h e)
    · cases e

theorem execHostCredentialInstall_memWf {slot endpoint space gen} (h : s.MemWf) :
    OutMemWf (execHostCredentialInstall slot endpoint space gen s) :=
  h.frame rfl rfl rfl

theorem execPodBarrierArrival_memWf {id pkg a} (h : s.MemWf) : OutMemWf (execPodBarrierArrival id pkg a s) := by
  unfold execPodBarrierArrival
  dsimp only [OutMemWf]
  split
  · exact podArrive_memWf h
  · exact h

theorem execPodBarrierCompletion_memWf {id a} (h : s.MemWf) : OutMemWf (execPodBarrierCompletion id a s) := by
  unfold execPodBarrierCompletion
  dsimp only [OutMemWf]
  split
  · exact getD_memWf (podComplete_memWf h) (podKeep_memWf h)
  · exact h

theorem engineAnswer_memWf {r eid va op a} (h : s.MemWf) : (engineAnswer s r eid va op a).MemWf := by
  unfold engineAnswer
  split
  · exact cpAnswered_memWf h
  · exact report_memWf (modRun_memWf h)
  · exact cpFaulted_memWf h
  · exact cpFaulted_memWf h
  · exact cpFaulted_memWf h
  · exact killCore_memWf h

theorem waitedAnswer_memWf {c eid va op a} (h : s.MemWf) : (waitedAnswer s c eid va op a).MemWf := by
  unfold waitedAnswer
  dsimp only
  split
  · split
    · exact loadAnswer_memWf (ackEffect_memWf h)
    · exact modCtxAt_memWf (ackEffect_memWf h)
  · exact suspendCtx_memWf (modCtxAt_memWf (ackEffect_memWf h))
  · exact abortWith_memWf (ackEffect_memWf h)
  · exact abortCtx_memWf (ackEffect_memWf h)
  · exact killCore_memWf (ackEffect_memWf h)
  · exact abortAs_memWf (ackEffect_memWf h)

theorem awayLost_memWf {va} (h : s.MemWf) : (awayLost s va).MemWf := report_memWf h

theorem rightsMissing_memWf {c mine a va} (h : s.MemWf) : (rightsMissing s c mine a va).MemWf := by
  unfold rightsMissing
  split
  · exact strike_memWf (modCtxAt_memWf h)
  · exact awayLost_memWf h

theorem pageAway_memWf {c mine va} (h : s.MemWf) : (pageAway s c mine va).MemWf := by
  unfold pageAway
  split
  · exact clockUpdate_memWf (suspendCtx_memWf h)
  · exact h

theorem effectAnswer_memWf {t : State} {c eid va a} (h : s.MemWf) (ht : t.MemWf) : (effectAnswer s t c eid va a).MemWf := by
  unfold effectAnswer
  split
  · split
    · exact ackEffect_memWf ht
    · exact pageAway_memWf h
    · exact rightsMissing_memWf (ackEffect_memWf ht)
    · exact awayLost_memWf (ackEffect_memWf ht)
    · exact awayLost_memWf (ackEffect_memWf ht)
    · exact awayLost_memWf (ackEffect_memWf ht)
  · exact ht

theorem drainAnswer_memWf {t : State} {l eid va a} (h : s.MemWf) (ht : t.MemWf) : (drainAnswer s t l eid va a).MemWf := by
  unfold drainAnswer
  dsimp only
  split
  · exact settleAll_memWf (modCore_memWf ht fun _ hk => hk)
  · exact pageAway_memWf h
  · exact rightsMissing_memWf (settleAll_memWf (modCore_memWf ht fun _ hk => hk))
  · exact awayLost_memWf (settleAll_memWf (modCore_memWf ht fun _ hk => hk))
  · exact awayLost_memWf (settleAll_memWf (modCore_memWf ht fun _ hk => hk))
  · exact awayLost_memWf (settleAll_memWf (modCore_memWf ht fun _ hk => hk))

theorem incAnswer_memWf {t : State} {eid va a} (h : s.MemWf) (ht : t.MemWf) : (incAnswer s t eid va a).MemWf := by
  unfold incAnswer
  split
  · exact incDone_memWf ht
  · exact h
  · exact awayLost_memWf (incDone_memWf ht)
  · exact awayLost_memWf (incDone_memWf ht)
  · exact awayLost_memWf (incDone_memWf ht)
  · exact awayLost_memWf (incDone_memWf ht)

theorem awayAnswer_memWf {c o rest a} (h : s.MemWf) : (awayAnswer s c o rest a).MemWf := by
  unfold awayAnswer
  dsimp only
  split
  · split
    · exact incAnswer_memWf h (h.frame rfl rfl rfl)
    · split
      · exact h.frame rfl rfl rfl
      · split
        · exact engineAnswer_memWf (h.frame rfl rfl rfl)
        · split
          · exact waitedAnswer_memWf (h.frame rfl rfl rfl)
          · split
            · exact drainAnswer_memWf h (h.frame rfl rfl rfl)
            · exact effectAnswer_memWf h (h.frame rfl rfl rfl)
  · exact h.frame rfl rfl rfl
  · exact h.frame rfl rfl rfl

theorem podPerform_memWf {src pas a} (h : s.MemWf) : (podPerform s src pas a).1.MemWf := by
  unfold podPerform
  split
  · exact chanWrite_memWf h
  · split
    · exact h
    · exact countReads_memWf h
  · split
    · exact h
    · exact countReads_memWf h
  · exact chanWrite_memWf h
  · split
    · exact h
    · exact outsideAtomic_memWf h ‹_›
  · exact chanWrite_memWf h
  · exact incrementFabric_memWf h
  · exact releaseFabric_memWf h
  · split
    · exact h
    · exact (outsideAccumulate_memWf h).of_some ‹_›

theorem podRespond_memWf {src tag va op status a} (h : s.MemWf) : (podRespond s src tag va op status a).MemWf :=
  h.frame rfl rfl rfl

theorem podRequest_memWf {t : State} {src : PodSource} {tag : BitVec 32} {ports ps : List PortKey} {va : Nat} {op : PodOp}
    (h : s.MemWf) (e : podRequest s src tag ports va op = some (t, ps)) : t.MemWf := by
  have hx {x : List Nat ⊕ Xlate} {u : State} {g : Tag} {acc : Access} {n : Nat} (e : rangeXlate s g acc va n = (x, u)) :
      u.MemWf := snd_memWf (rangeXlate_memWf h) e
  unfold podRequest at e
  dsimp only at e
  split at e
  · cases e
    exact podRespond_memWf h
  split at e
  · cases e
    exact podRespond_memWf h
  split at e
  · cases e
    exact podRespond_memWf h
  split at e
  · obtain ⟨v, hv, e⟩ := Option.bind_eq_some_iff.mp e
    cases e
    exact podRespond_memWf (podPerform_memWf ((outsideNotes_memWf (hx ‹_›)).of_some hv))
  · cases e
  all_goals
    cases e
    exact podRespond_memWf (report_memWf (hx ‹_›))

theorem podRun_memWf {src : PodSource} {xs : List (BitVec 32 × Word × PodOp)} {ports : List PortKey}
    (h : s.MemWf) : OptMemWf (podRun src xs ports s) := by
  induction xs generalizing ports s with
  | nil => exact h
  | cons x xs ih =>
    simp only [podRun]
    cases e : podRequest s src x.1 ports x.2.1.toNat x.2.2 with
    | none => trivial
    | some r =>
      have hr : r.1.MemWf := podRequest_memWf h e
      dsimp only [Option.bind]
      split
      · exact hr
      · exact ih hr

theorem podGroup_memWf {src xs} (h : s.MemWf) : OptMemWf (podGroup src xs s) := by
  unfold podGroup
  split <;> exact podRun_memWf h

theorem groupAbsent_memWf {core c pkg n} (h : s.MemWf) : (groupAbsent s core c pkg n).MemWf := by
  unfold groupAbsent
  dsimp only
  split
  · split
    · exact onCore_memWf h fun _ ht => effectAnswer_memWf ht ht
    · exact h
  · exact h

theorem execPodRemoteAccess_memWf {a} (h : s.MemWf) : OutMemWf (execPodRemoteAccess a s) := by
  unfold execPodRemoteAccess
  split
  · split
    · exact h
    · exact onCore_memWf h fun _ => awayAnswer_memWf
  · exact groupAbsent_memWf h
  · exact getD_memWf (podGroup_memWf h) h
  · exact getD_memWf (podGroup_memWf h) h
  · exact dropPacket_memWf h

theorem strikeWord_memWf {f} (h : k.MemWf) : (strikeWord f k).MemWf := h

theorem overtake_memWf {r spray} (h : s.MemWf) : (overtake r spray s).MemWf := by
  unfold overtake
  split
  · exact h
  · exact h.frame rfl rfl rfl

theorem sendBootLoad_memWf {die a} (h : s.MemWf) : (sendBootLoad die s a).MemWf := by
  obtain ⟨g, hg⟩ : ∃ g, g = sprayPaths := exists_eq
  unfold sendBootLoad
  rw [← hg]
  clear hg
  split
  · exact h
  · split
    · exact h
    · dsimp only
      split
      · split
        · exact report_memWf (takeId_memWf h)
        · exact foldl_memWf (takeId_memWf h) fun _ _ ht => ht.sameMem rfl rfl rfl rfl rfl
      · exact sendFrom_memWf (takeId_memWf h)

theorem hostRelease_memWf {endpoint va} (h : s.MemWf) : (hostRelease s endpoint va).MemWf := by
  unfold hostRelease
  split
  · exact dropPacket_memWf h
  · split
    · exact report_memWf h
    · split
      · exact h
      · exact report_memWf (snd_memWf (rangeXlate_memWf h) ‹_›)
      · split
        · exact h
        · exact releaseFabric_memWf ((outsideNotes_memWf (snd_memWf (rangeXlate_memWf h) ‹_›)).of_some ‹_›)

theorem fromOutside_memWf {o : Outside} (h : s.MemWf) :
    (fromOutside o s).MemWf := by
  have hreg {r : Nat} {bs : List Byte} : ((regWrite s r bs).map atPort |>.getD s).MemWf := by
    cases e : regWrite s r bs with
    | none => exact h
    | some p => exact atPort_memWf (regWrite_memWf h e)
  unfold fromOutside
  split
  · exact modCore_memWf h fun _ => strikeWord_memWf
  · exact setErrs_memWf h
  · refine modCore_memWf h fun k hk => ?_
    split
    · exact hk
    · exact hk
  · split
    · exact h
    · exact hreg
  · exact h.frame rfl rfl rfl
  · exact hostRelease_memWf h
  · exact overtake_memWf h
  · split
    · exact h.frame rfl rfl rfl
    · exact h
  · split
    · exact foldl_memWf h fun _ _ => sendBootLoad_memWf
    · exact h

/-! ### Issue, and what happens by itself (Machine/Sched.lean) -/

theorem countIssue_memWf (h : s.MemWf) : (countIssue s).MemWf := modCtx_memWf h

theorem uncount_memWf {c} (h : s.MemWf) : (uncount s c).MemWf := modCtxAt_memWf h

theorem wakeOthers_memWf {c} (h : s.MemWf) : (wakeOthers s c).MemWf := foldl_memWf h fun _ _ => modCtxAt_memWf

theorem countClass_memWf {cls} (h : s.MemWf) : (countClass s cls).MemWf := modPower_memWf h

theorem queueCycles_memWf {n : Nat} (h : s.MemWf) :
    (queueCycles n s).MemWf := by
  induction n generalizing s with
  | zero => exact h
  | succ n ih => exact ih (queueRounds_memWf h)

theorem banksPass_memWf {t0} (h : s.MemWf) : (banksPass t0 s).MemWf :=
  foldl_memWf (bankCycles_memWf h) fun _ _ ht => onCore_memWf ht fun _ => bankCycles_memWf

theorem parksPass_memWf (h : s.MemWf) : (parksPass s).MemWf := by
  refine foldl_memWf ?_ fun _ _ ht => onCore_memWf ht fun _ ht1 => getD_memWf (tryParkTimeout_memWf ht1) ht1
  split
  · exact getD_memWf (tryParkTimeout_memWf h) h
  · exact h

theorem passTime_memWf {n} (h : s.MemWf) : (passTime n s).MemWf :=
  catchUp_memWf (parksPass_memWf (banksPass_memWf ((foldl_memWf h fun _ _ ht => onCore_memWf ht fun _ =>
    queueCycles_memWf).frame rfl rfl rfl)))

theorem waitTime_memWf {n} (h : s.MemWf) : (waitTime n s).MemWf := passTime_memWf (queueCycles_memWf h)

theorem countTurn_memWf (h : k.MemWf) : (countTurn k).MemWf := h

theorem passCycle_memWf {cls q} (h : s.MemWf) : (passCycle cls q s).MemWf := by
  unfold passCycle
  dsimp only
  split
  · split
    · split
      · exact clockUpdate_memWf (modCore_memWf (passTime_memWf (queueRounds_memWf h)) fun _ => countTurn_memWf)
      · exact modCore_memWf (passTime_memWf (queueRounds_memWf h)) fun _ => countTurn_memWf
    · split
      · exact clockUpdate_memWf (modCore_memWf (passTime_memWf h) fun _ => countTurn_memWf)
      · exact modCore_memWf (passTime_memWf h) fun _ => countTurn_memWf
  · split
    · split
      · exact clockUpdate_memWf (modCore_memWf (passTime_memWf (countClass_memWf (queueRounds_memWf h))) fun _ =>
          countTurn_memWf)
      · exact modCore_memWf (passTime_memWf (countClass_memWf (queueRounds_memWf h))) fun _ => countTurn_memWf
    · split
      · exact clockUpdate_memWf (modCore_memWf (passTime_memWf (countClass_memWf h)) fun _ => countTurn_memWf)
      · exact modCore_memWf (passTime_memWf (countClass_memWf h)) fun _ => countTurn_memWf

theorem afterIssue_memWf {t : State} {c cls q} (ht : t.MemWf) : (afterIssue s c cls q t).MemWf := by
  unfold afterIssue
  split
  · refine rotate_memWf ?_
    split
    · exact settleAll_memWf (wakeOthers_memWf (passCycle_memWf (uncount_memWf ht)))
    · exact uncount_memWf ht
  · dsimp only
    split
    · split
      · exact rotate_memWf (settleAll_memWf (wakeOthers_memWf (passCycle_memWf (uncount_memWf ht))))
      · exact settleAll_memWf (wakeOthers_memWf (passCycle_memWf (uncount_memWf ht)))
    · split
      · exact rotate_memWf (settleAll_memWf (wakeOthers_memWf (passCycle_memWf (implicitCommit_memWf ht))))
      · exact settleAll_memWf (wakeOthers_memWf (passCycle_memWf (implicitCommit_memWf ht)))

theorem andThen_memWf {f : State → State} {o : Out} (hf : ∀ t, t.MemWf → (f t).MemWf) (ho : OutMemWf o) :
    OutMemWf (andThen f o) := by
  cases o with
  | next t => exact hf t ho
  | fault _ => trivial
  | refused _ => trivial

/-- RDS and WRS keep the form, which are all that transfers a line. -/
theorem lineForm_memWf {i : Instr} {n : BitVec 2} {f : State → Out} (h : s.MemWf) (e : lineForm i = some (n, f)) :
    OutMemWf (f s) := by
  unfold lineForm at e
  split at e
  · cases e
    exact execRds_memWf h
  · cases e
    exact execWrs_memWf h
  · cases e

theorem issueLineForm_memWf {i : Issue} {n : BitVec 2} {f : State → Out} (h : s.MemWf)
    (e : i.lineForm = some (n, f)) : OutMemWf (f s) := by
  unfold Issue.lineForm at e
  split at e
  · exact lineForm_memWf h e
  all_goals cases e

theorem contextTransfer_memWf {c : CtxNo} (h : s.MemWf) :
    OutMemWf (contextTransfer s c) := by
  have ht : (s.modCore fun k => { k with cur := c }).MemWf := modCore_memWf h fun _ hk => hk
  unfold contextTransfer
  dsimp only
  split
  · split
    · exact abortWith_memWf ht
    · split
      · split
        · exact andThen_memWf (fun _ => afterIssue_memWf)
            (issueLineForm_memWf (countIssue_memWf (dueGrant_memWf (issueOf_memWf ht))) ‹_›)
        · exact h
      · exact h
  · exact h

theorem execLineTransfer_memWf {who} (h : s.MemWf) : OutMemWf (execLineTransfer who s) := by
  unfold execLineTransfer
  split
  · exact contextTransfer_memWf h
  · split
    · exact h
    · split
      · exact getD_memWf (tryCopyStart_memWf h) h
      · exact h

theorem takeAny_memWf {p} (h : s.MemWf) : (takeAny p s).MemWf := by
  unfold takeAny
  split
  · exact takeLoadReply_memWf h
  · exact takeAtomicReply_memWf h
  · exact takeAtomicReply_memWf h
  · exact takeAtomicReply_memWf h
  · exact takeAck_memWf h
  · exact takeNack_memWf h
  · exact takeErr_memWf h
  · exact h

theorem tryPacket_memWf (h : s.MemWf) : OptMemWf (tryPacket s) := by
  refine firstSome_memWf fun p _ => ?_
  split
  · exact tryRequest_memWf h
  · exact tryReply_memWf (fun _ _ => takeAny_memWf) h

theorem tryEach_memWf {α : Type} {f : α → State → Option State} {l}
    (h : ∀ x t, t.MemWf → OptMemWf (f x t)) (hs : s.MemWf) : OptMemWf (tryEach f l s) :=
  firstSome_memWf fun _ _ => h _ _ hs

theorem trySettle_memWf {c} (h : s.MemWf) : OptMemWf (trySettle c s) := by
  unfold trySettle
  dsimp only
  split
  · exact settle_memWf h
  · trivial

/-- Every rule of the core in focus keeps the form. -/
theorem coreRules_memWf (h : s.MemWf) {f} (hf : f ∈ coreRules) : OptMemWf (f s) := by
  simp only [coreRules, List.mem_cons, List.not_mem_nil, or_false] at hf
  rcases hf with rfl | rfl | rfl | rfl | rfl | rfl | rfl | rfl | rfl | rfl | rfl | rfl | rfl | rfl | rfl | rfl
  · exact tryPacket_memWf h
  · exact tryEach_memWf (fun _ _ => tryChunkSend_memWf) h
  · exact tryLocalPost_memWf h
  · exact tryParkValid_memWf h
  · exact tryHeldDrain_memWf h
  · exact tryEach_memWf (fun _ _ => trySettle_memWf) h
  · exact tryEach_memWf (fun _ _ => tryRelease_memWf) h
  · exact tryEndReport_memWf h
  · exact tryDispatch_memWf h
  · exact tryMxStart_memWf h
  · exact tryMxComplete_memWf h
  · exact tryKStep_memWf h
  · exact tryReread_memWf h
  · exact tryGiveUp_memWf h
  · exact tryCopyComplete_memWf h
  · exact tryCopyStart_memWf h

/-- Every rule of banks, barriers, prickings and boot keeps the form. -/
theorem otherRules_memWf (h : s.MemWf) {f} (hf : f ∈ otherRules) : OptMemWf (f s) := by
  simp only [otherRules, List.mem_cons, List.not_mem_nil, or_false] at hf
  rcases hf with rfl | rfl | rfl | rfl | rfl | rfl | rfl
  · exact tryEach_memWf (fun _ _ => tryGrant_memWf) h
  · exact tryEach_memWf (fun _ _ => tryAligned_memWf) h
  · exact tryEach_memWf (fun _ _ => tryCompletion_memWf) h
  · exact tryEach_memWf (fun _ _ => tryStart_memWf) h
  · exact tryEach_memWf (fun _ _ => trySelect_memWf) h
  · exact tryEach_memWf (fun _ _ => tryResend_memWf) h
  · exact tryBoot_memWf h

theorem internal_memWf (h : s.MemWf) : OptMemWf (internal s) := by
  unfold internal
  split
  · exact (firstSome_memWf fun _ => coreRules_memWf h).of_some ‹_›
  · exact firstSome_memWf fun _ => otherRules_memWf h

theorem idle_memWf (h : s.MemWf) : (idle s).MemWf := wakeAll_memWf (waitTime_memWf h)

theorem takeTurn_memWf (h : s.MemWf) : (takeTurn s).MemWf := by
  unfold takeTurn
  split
  · exact h
  · exact rotate_memWf h

theorem issueAs_memWf {f : Instr → State → Out} {a} (h : ∀ x t, t.MemWf → OutMemWf (f x t)) (hs : s.MemWf) :
    OutMemWf (issueAs f s a) := by
  unfold issueAs
  split
  · exact h _ _ hs
  · exact abortWith_memWf hs
  · exact faultOut_memWf hs
  · exact faultOut_memWf hs
  · exact stallAs_memWf hs
  · exact killOut_memWf hs

theorem takeDue_memWf (h : s.MemWf) : OptMemWf (takeDue s) := by
  unfold takeDue
  split
  · trivial
  · exact abortWith_memWf h

theorem layoutsApply_memWf (h : s.MemWf) : (layoutsApply s).MemWf :=
  getD_memWf (tryInboxApply_memWf (getD_memWf (tryFrameApply_memWf h) h)) (getD_memWf (tryFrameApply_memWf h) h)

theorem reap_memWf (h : s.MemWf) : (reap s).MemWf := by
  refine foldl_memWf ?_ fun _ _ ht => onCore_memWf ht fun _ => killCore_memWf
  split
  · exact killCore_memWf h
  · exact h

theorem layoutsPass_memWf (h : s.MemWf) : (layoutsPass s).MemWf :=
  foldl_memWf (layoutsApply_memWf h) fun _ _ ht => onCore_memWf ht fun _ => layoutsApply_memWf

theorem frameWaits_memWf (h : s.MemWf) : (frameWaits s).MemWf := by
  unfold frameWaits
  split
  · exact modCore_memWf h fun _ hk => hk
  · exact h

theorem framesPass_memWf (h : s.MemWf) : (framesPass s).MemWf :=
  foldl_memWf (frameWaits_memWf h) fun _ _ ht => onCore_memWf ht fun _ => frameWaits_memWf

theorem endStep_memWf (h : s.MemWf) : (endStep s).MemWf := framesPass_memWf (layoutsPass_memWf (reap_memWf h))

/-! ### Every instruction and event (Machine/Dispatch.lean) -/

/-- Every instruction and every event keeps the canonical form of the memories. -/
theorem exec_memWf {i : Instr} (h : s.MemWf) : OutMemWf (exec i s) := by
  unfold exec
  cases i with
  | add | sub | and | or | xor | andn | orn | sll | srl | sra | rol | ror | slt | sltu | min | max | minu | maxu | mul
  | mulhi | mulhin | mulhix | quo | quon | rmd | rmdn => exact intRR_memWf h
  | clz | ctz | popc | bswap | sextb | sexth | sextw | addi | andi | ori | xori | slli | srli | srai | slti | sltiu =>
    exact intR_memWf h
  | liz | lik | adpc | fclass | fsig | fmvi | dspl | hstat | mxs | cps | mpop | mfirst => exact done_memWf (setG_memWf h)
  | beq | bne | blt | bge | bltu | bgeu | bsig | bmaskNone | bmaskAny | bmaskAll | bmaskNonec | bmaskAnyc | bmaskAllc =>
    exact branchIf_memWf h
  | jal => exact jump_memWf (setG_memWf h)
  | jalr => exact execJalr_memWf h
  | lb | lbu | lh | lhu | lw | lwu | ld | trestore | vtrestore => exact scalarLoad_memWf h
  | sb | sh | sw | sd | tsave | vtsave => exact scalarStore_memWf h
  | fadd | fsub | fmul | fdiv => exact fp2_memWf h
  | fsqrt | frint => exact fp1_memWf h
  | fmin | fmax => exact done_memWf (putF_memWf h)
  | feq | flt | fle => exact fcmp_memWf h
  | fcps | fcpsn | fcpsx => exact fcpsOp_memWf h
  | fcvti | fcvtu => exact fcvtToInt_memWf h
  | fcvtf | fcvtfu => exact fcvtFromInt_memWf h
  | fcvtp => exact execFcvtp_memWf h
  | fsetsig | vext => exact done_memWf (setGC_memWf h)
  | fma | fms | fnma | fnms => exact fp3_memWf h
  | aadd | aand | aor | axor | amin | amax | aminu | amaxu | aswp | acas | afadd => exact amo_memWf h
  | ldf | ldfa => exact loadSlot_memWf h
  | stf => exact storeSlot_memWf h
  | stfr => exact execStfr_memWf h
  | fadr => exact execFadr_memWf h
  | fref => exact execFref_memWf h
  | frel => exact execFrel_memWf h
  | dsps => exact execDsps_memWf h
  | send | spawn => exact sendPayload_memWf h fun _ => sendFrames_memWf h
  | sendm => exact execSendm_memWf h
  | cdec => exact execCdec_memWf h
  | spawnCap => exact execSpawnCap_memWf h
  | sev => exact execSev_memWf h
  | arrive => exact execArrive_memWf h
  | wait => exact execWait_memWf h
  | btest => exact execBtest_memWf h
  | qpush | qpop => exact queueIssue_memWf h
  | qtry => exact execQtry_memWf h
  | qcnt => exact done_memWf (setG_memWf (queueRound_memWf h))
  | hbind => exact execHbind_memWf h
  | hfree => exact done_memWf (freeHead_memWf h)
  | seek => exact headForm_memWf h fun _ ht => done_memWf (seekHead_memWf ht)
  | hwait =>
    exact headForm_memWf h fun _ ht => whenAligned_memWf ht fun _ ht1 => done_memWf (modCore_memWf ht1 fun _ => setBank_memWf)
  | rds => exact execRds_memWf h
  | wrs => exact execWrs_memWf h
  | rwd => exact execRwd_memWf h
  | mxc => exact execMxc_memWf h
  | mxr => exact execMxr_memWf h
  | mxw => exact execMxw_memWf h
  | cpc => exact execCpc_memWf h
  | rep => exact execRep_memWf h
  | srr => exact execSrr_memWf h
  | srw => exact execSrw_memWf h
  | srx => exact execSrx_memWf h
  | trap => exact afterFenceW_memWf h fun _ => faultOut_memWf
  | vfadd | vfsub | vfmul | vfdiv | vfmin | vfmax => exact vf2_memWf h
  | vfsqrt | vfabs | vfneg => exact vf1_memWf h
  | vadd | vsub | vmul | vmulh | vand | vor | vxor | vsll | vsrl | vsra | vmin | vmax | vminu | vmaxu | vadds | vsubs =>
    exact viLanes_memWf h
  | vfma | vfms | vfnma | vfnms => exact vf3_memWf h
  | vdot2 => exact execVdot2_memWf h
  | vfeq | vflt | vfle => exact vcmpF_memWf h
  | veq | vne | vlt | vltu => exact vcmpI_memWf h
  | mand | mor | mxor | mandn | mnot | mset => exact vmask2_memWf h
  | vslideup | vslidedn | vperm | vbcast | vmovv => exact vmove_memWf h
  | vsel | vcompress | vsigm | vsigr | vsigw | vsplat => exact done_memWf (modCtx_memWf h)
  | vrsum | vrmax | vrmin => exact vfReduce_memWf h
  | vradd | vrand => exact viReduce_memWf h
  | vcvt | vcvts => exact vcvt_memWf h
  | vld | vlds | vldp | vgather => exact vload_memWf h
  | vst | vsts | vstp | vscatter => exact vstore_memWf h
  | madd3 | msub3 | mmul3 | mfma3 | mmin3 | mmax3 => exact mm3_memWf h
  | vins => exact execVins_memWf h
  | implicitCommit => exact execImplicitCommit_memWf h
  | recordPromotion => exact getD_memWf (tryPromote_memWf h) h
  | watchdogExpiry => exact getD_memWf (tryWatchdog_memWf h) h
  | contextRelease => exact getD_memWf (tryRelease_memWf h) h
  | supervisorResume => exact execSupervisorResume_memWf h
  | contextSave => exact getD_memWf (trySave_memWf h) h
  | contextRestore => exact getD_memWf (tryRestore_memWf h) h
  | bandRelease => exact getD_memWf (tryBandRelease_memWf h) h
  | recordDiscard => exact getD_memWf (tryDiscard_memWf h) h
  | framecfgWrite | inboxcfgWrite | headpriWrite | shiftinjWrite | mxbudgetWrite | mxgovWrite => exact sysWrite_memWf h
  | frmWrite => exact modCtxAt_memWf h
  | messageAccept | remoteLoad | remoteStore | remoteAtomic | sevLatchWrite | countdownDecrement | frameIncrement
  | frameRelease | landingF32Add | landingBf16Accumulate | landingE4m3Widen | landingStridedScatter | landingTranspose
  | landingF32Max | landingXor | entryTableWrite | instructionStoreWrite | bootLoad | prickingAppend =>
    exact onRequest_memWf h
  | nackReceipt => exact execNackReceipt_memWf h
  | nackResend => exact getD_memWf (tryResend_memWf h) h
  | chunkSend => exact getD_memWf (tryChunkSend_memWf h) h
  | loadReply => exact execLoadReply_memWf h
  | atomicReply => exact onReply_memWf (fun _ _ => takeAtomicReply_memWf) h
  | acknowledgement => exact onReply_memWf (fun _ _ => takeAck_memWf) h
  | errorPacket => exact execErrorPacket_memWf h
  | poisonedPacket => exact execPoisonedPacket_memWf h
  | linkRetry => exact execLinkRetry_memWf h
  | gatherDrainTimeout => exact getD_memWf (tryGatherTimeout_memWf h) h
  | headClaimGrant => exact getD_memWf (tryGrant_memWf h) h
  | bankAligned => exact getD_memWf (tryAligned_memWf h) h
  | lineTransfer => exact execLineTransfer_memWf h
  | trackRemap => exact remapBank_memWf h
  | barrierCompletion => exact getD_memWf (tryCompletion_memWf h) h
  | barrierConfigWrite => exact writeBarrier_memWf h
  | queueControlWrite => exact writeQueue_memWf h
  | prickingSelection => exact getD_memWf (trySelect_memWf h) h
  | startMessageSend => exact getD_memWf (tryStart_memWf h) h
  | sprayTreeWrite | rootTableWrite => exact modDie_memWf h
  | traceRingControlWrite => exact h.frame rfl rfl rfl
  | traceReplayTimeout => exact getD_memWf (tryReplayTimeout_memWf h) h
  | memoryLineWrite => exact execMemoryLineWrite_memWf h
  | memoryLineRead => exact readLineErrs_memWf h
  | patrolScrub => exact execPatrolScrub_memWf h
  | erasureRegisterWrite => exact setErasure_memWf h
  | frameTagWrite => exact execFrameTagWrite_memWf h
  | pageWalk => exact execPageWalk_memWf h
  | thermalTrip => exact report_memWf (clockDie_memWf (modDie_memWf h))
  | thermalClear => exact clockDie_memWf (modDie_memWf h)
  | telemetryFrame => exact telemetry_memWf h
  | measuringWindowClose => exact execMeasuringWindowClose_memWf h
  | classSlowdown => exact getD_memWf (trySlowdown_memWf h) h
  | pcapWrite => exact atPort_memWf (writePcap_memWf h)
  | classfloorWrite => exact atPort_memWf (writeFloors_memWf h)
  | vcurveWrite | fcurveWrite => exact atPort_memWf (writeCurve_memWf h)
  | regWrite => exact hostOp_memWf (fun _ ht _ _ => hostRegWrite_memWf ht) h
  | regRead => exact hostOp_memWf (fun _ ht _ _ => hostRegRead_memWf ht) h
  | load => exact hostOp_memWf (fun _ ht _ _ => hostLoad_memWf ht) h
  | store => exact hostOp_memWf (fun _ ht _ _ => hostStore_memWf ht) h
  | atomic => exact hostOp_memWf (fun _ ht _ _ => hostAtomic_memWf ht) h
  | launchAppend => exact hostOp_memWf (fun _ ht _ _ => hostAppend_memWf ht) h
  | accumulate => exact hostOp_memWf (fun _ ht _ _ => hostAccumulate_memWf ht) h
  | podBarrierArrival => exact execPodBarrierArrival_memWf h
  | podBarrierCompletion => exact execPodBarrierCompletion_memWf h
  | podRemoteAccess => exact execPodRemoteAccess_memWf h
  | firmwareUpdate => exact modPower_memWf h
  | hostCredentialInstall => exact execHostCredentialInstall_memWf h
  | fkeep => exact execFkeep_memWf h
  | exit => exact execExit_memWf h
  | commit => exact done_memWf (commit_memWf h)
  | commitW => exact execCommitW_memWf h
  | wfe => exact execWfe_memWf h
  | fenceR => exact done_memWf h
  | fenceW | fenceRw => exact afterFenceW_memWf h fun _ => done_memWf
  | xfence => exact execXfence_memWf h
  | cpw => exact execCpw_memWf h
  | sret => exact execSret_memWf h
  | eret => exact execEret_memWf h
  | iflush => exact done_memWf (modCore_memWf h fun _ hk => hk)
  | issueQuantumExpiry => exact execIssueQuantumExpiry_memWf h
  | taskDispatch => exact getD_memWf (tryDispatch_memWf h) h
  | framecfgApply => exact getD_memWf (tryFrameApply_memWf h) h
  | inboxcfgApply => exact getD_memWf (tryInboxApply_memWf h) h
  | parkTimeout => exact getD_memWf (tryParkTimeout_memWf h) h
  | localPostAccept => exact getD_memWf (tryLocalPost_memWf h) h
  | matrixCommandStart => exact orSame_memWf (fun _ => tryMxStart_memWf) h
  | kStepComplete => exact orSame_memWf (fun _ => tryKStep_memWf) h
  | tableReread => exact orSame_memWf (fun _ => tryReread_memWf) h
  | tableGiveUp => exact orSame_memWf (fun _ => tryGiveUp_memWf) h
  | matrixCommandComplete => exact orSame_memWf (fun _ => tryMxComplete_memWf) h
  | bucketRefill => exact execBucketRefill_memWf h
  | governorWindow => exact newWindow_memWf h
  | copyCommandStart => exact orSame_memWf (fun _ => tryCopyStart_memWf) h
  | copyFaultResume => exact orSame_memWf (fun _ => tryCopyResume_memWf) h
  | copyCommandComplete => exact orSame_memWf (fun _ => tryCopyComplete_memWf) h
  | taskEndReport => exact getD_memWf (tryEndReport_memWf h) h
  | coreKill => exact killCore_memWf h
  | packageReset => exact execPackageReset_memWf
  | cycleStretch | currentLimit => exact modCore_memWf h fun _ => stretchCycle_memWf
  | telemetryFrameMissing => exact getD_memWf (tryMissing_memWf h) h
  | failsafeEntry => exact getD_memWf (tryFailsafe_memWf h) h
  | failsafeTick => exact getD_memWf (tryTick_memWf h) h
  | classRestore => exact getD_memWf (tryRestoreClass_memWf h) h
  | hwholdClear => exact getD_memWf (tryHwClear_memWf h) h
  | firmwareWatchdogExpiry => exact getD_memWf (tryFwExpiry_memWf h) h
  | firmwareKick => exact execFirmwareKick_memWf h

/-! ### One step (Machine/Step.lean) -/

theorem issue_memWf (h : s.MemWf) : OutMemWf (issue s) := by
  unfold issue
  split
  · exact rotate_memWf ((takeDue_memWf h).of_some ‹_›)
  · split
    exact andThen_memWf (fun _ => afterIssue_memWf)
      (issueAs_memWf (fun _ _ => exec_memWf) (countIssue_memWf (snd_memWf (issueOf_memWf h) ‹_›)))

theorem goOn_memWf (h : s.MemWf) : OutMemWf (goOn s) := by
  unfold goOn
  dsimp only
  split
  · exact issue_memWf (takeTurn_memWf h)
  · split
    · exact wakeAll_memWf ((internal_memWf (takeTurn_memWf h)).of_some ‹_›)
    · exact idle_memWf (takeTurn_memWf h)

theorem follow_memWf {a} (h : s.MemWf) : OutMemWf (follow a s) := by
  have hf {c : CoreId} {n : Nat} : ((waitTime n s).focus c).MemWf := focus_memWf (waitTime_memWf h)
  unfold follow
  split
  · trivial
  · extract_lets f t
    have ht : t.MemWf := by
      unfold t
      split
      · exact hf
      · exact fromOutside_memWf hf
    split
    · exact andThen_memWf (fun _ => wakeAll_memWf) (exec_memWf ht)
    · split
      · exact issue_memWf (takeTurn_memWf ht)
      · exact idle_memWf ht

/-- A step keeps the canonical form of the memories (log entry 1). -/
theorem step_memWf (h : s.MemWf) : OutMemWf (step s) := by
  refine andThen_memWf (fun _ => endStep_memWf) ?_
  split
  · exact follow_memWf (h.frame rfl rfl rfl)
  · exact goOn_memWf h

end

end Sys2Proof.Machine
end

section
open Sys2Proof Sys2Proof.Machine

/-- Settles O48: each function a step is made of keeps the canonical form, up to `step_memWf`. -/
theorem memoryFormIsKept : Obligations.MemoryFormIsKept := by
  unfold Obligations.MemoryFormIsKept
  intro s t h e
  exact (step_memWf h).of_next e

end

section
namespace Sys2Proof.Machine

/-! ### A step with an entry in the agenda -/

variable {s : State} {a : Agendum} {rest : List Agendum}

theorem step_of_agenda (h : s.agenda = a :: rest) : step s = andThen endStep (follow a { s with agenda := rest }) := by
  unfold step
  rw [h]

theorem follow_noSuchCore (h : 0xC00 ≤ a.core.toNat) : follow a s = .fault .noSuchCore := by
  unfold follow
  rw [if_pos h]

/-- An entry with an event, where nothing comes from outside. -/
theorem follow_event {i : Instr} (hc : a.core.toNat < 0xC00) (he : a.ev = some i) (ho : a.out = none) :
    follow a s = andThen wakeAll (exec i ((waitTime a.wait s).focus a.core)) := by
  unfold follow
  rw [if_neg (Nat.not_le.mpr hc), he, ho]

/-- An entry with an event, after what comes from outside. -/
theorem follow_event_outside {i : Instr} {o : Outside} (hc : a.core.toNat < 0xC00)
    (he : a.ev = some i) (ho : a.out = some o) :
    follow a s = andThen wakeAll (exec i (fromOutside o ((waitTime a.wait s).focus a.core))) := by
  unfold follow
  rw [if_neg (Nat.not_le.mpr hc), he, ho]

end Sys2Proof.Machine
end

section
open Sys2Proof Sys2Proof.Machine

/-- Settles O3: a step takes the first entry off, and `follow` does what the entry says. -/
theorem eventsRunFromTheAgenda : Obligations.EventsRunFromTheAgenda := by
  unfold Obligations.EventsRunFromTheAgenda
  refine ⟨fun s a rest i hs hi hc => ⟨fun ho => ?_, fun o ho => ?_⟩, fun s a rest hs hc => ?_⟩
  · rw [step_of_agenda hs, follow_event hc hi ho]
  · rw [step_of_agenda hs, follow_event_outside hc hi ho]
  · rw [step_of_agenda hs, follow_noSuchCore hc]
    rfl

end

section
/-! PROOFS. What the shared operations answer where nothing stands in their way: an effect that fits the hoop, an access
that replay lets through and that meets no struck word, a fence with nothing to wait for. -/
namespace Sys2Proof.Machine

variable {s : State}

/-! ### Bytes that stay -/

theorem SameBytes.refl (s : State) : SameBytes s s := fun _ => rfl

theorem SameBytes.trans {s t u : State} (h : SameBytes s t) (h' : SameBytes t u) : SameBytes s u :=
  fun p => (h' p).trans (h p)

/-- A state whose byte memories are those of another. -/
theorem SameBytes.of_eq {s t : State} (hi : t.coreId = s.coreId) (ho : t.others = s.others) (hd : t.dram = s.dram)
    (hm : t.core.mem = s.core.mem) (hw : t.core.wbuf = s.core.wbuf) (hx : t.core.istore = s.core.istore) : SameBytes s t := by
  intro p
  cases p with
  | dram a => simp only [State.byteAt, hd]
  | scratch c a => simp only [State.byteAt, State.coreAt, hi, ho, apply_ite Core.mem, hm]
  | weight c a => simp only [State.byteAt, State.coreAt, hi, ho, apply_ite Core.wbuf, hw]
  | istore c a => simp only [State.byteAt, State.coreAt, hi, ho, apply_ite Core.istore, hx]

theorem sameBytes_modCtx (s : State) (f : Ctx → Ctx) : SameBytes s (s.modCtx f) := .of_eq rfl rfl rfl rfl rfl rfl

/-! ### Effects placed in the open chunk -/

/-- The state with effects in the open chunk of the current context, numbered (R283). -/
def State.placed (s : State) (es : List Effect) : State :=
  { s.modCtx fun x => { x with hoop := x.hoop ++ es } with eids := s.eids + es.length }

@[simp] theorem placed_ctx (es : List Effect) : (s.placed es).ctx = { s.ctx with hoop := s.ctx.hoop ++ es } :=
  State.ctx_modCtx s fun x => { x with hoop := x.hoop ++ es }

theorem place_fits {es : List Effect} (h : hoopUsed s.ctx + effBytes es ≤ 2048) : s.place es = (s.placed es, true) := by
  unfold State.place
  rw [if_pos h]
  rfl

/-- An effect that fits is placed, and k goes on. -/
theorem placing_fits {a : Aim} {op : Op} {k : State → Out} (h : hoopUsed s.ctx + opSize op ≤ 2048) :
    placing s a op k = k (s.placed [mkEffect s s.ctx a op]) := by
  unfold placing
  rw [place_fits (by simpa [effBytes, mkEffect] using h)]

/-- A chunk with an effect in it goes behind the committed ones. -/
theorem commitCtx_open {x : Ctx} (h : x.hoop ≠ []) :
    commitCtx x = { x with hoop := [], chunks := x.chunks ++ [⟨x.hoop⟩], committed := true, sinceCommit := 0 } := by
  simp [commitCtx, h]

/-- An empty open chunk commits nothing. -/
theorem commitCtx_empty {x : Ctx} (h : x.hoop = []) : commitCtx x = { x with sinceCommit := 0 } := by
  simp [commitCtx, h]

theorem commit_ctx : s.commit.ctx = commitCtx s.ctx := State.ctx_modCtx s _

/-! ### Accesses at the own ports that nothing holds back -/

/-- An access that replay lets through is noted, and k goes on. -/
theorem atOwnPort_lets {p : PortKey} {kind addr : Nat} {k : State → Out} (h : Lets s p kind addr) :
    atOwnPort s p kind addr k = k (s.noted p kind addr) := by
  simp [atOwnPort, h, State.noted]

@[simp] theorem noted_core (s : State) (p : PortKey) (kind addr : Nat) : (s.noted p kind addr).core = s.core :=
  noteAccess_core s p _

@[simp] theorem noted_coreId (s : State) (p : PortKey) (kind addr : Nat) : (s.noted p kind addr).coreId = s.coreId :=
  noteAccess_coreId s p _

/-! ### Fences with nothing to wait for (R163) -/

@[simp] theorem commitCtx_d (x : Ctx) : (commitCtx x).d = x.d := by unfold commitCtx; split <;> rfl
@[simp] theorem commitCtx_g (x : Ctx) : (commitCtx x).g = x.g := by unfold commitCtx; split <;> rfl

@[simp] theorem commit_coreId (s : State) : s.commit.coreId = s.coreId := rfl
@[simp] theorem commit_mem (s : State) : s.commit.core.mem = s.core.mem := rfl
@[simp] theorem commit_gather (s : State) : s.commit.core.gather = s.core.gather := rfl

theorem commit_dreg (n : BitVec 2) : s.commit.dreg n = s.dreg n := by
  simp [State.dreg, commit_ctx]

theorem commit_gr (r : Reg) : s.commit.gr r = s.gr r := by
  simp [State.gr, commit_ctx, gval]

theorem commit_slotAt (n : BitVec 2) (slot : BitVec 11) : slotAt s.commit n slot = slotAt s n slot := by
  simp only [slotAt, commit_dreg, commit_coreId]

theorem drainWhere_empty {p : GLine → Bool} (h : s.core.gather = []) : drainWhere s p = s := by
  simp [drainWhere, h, drainSome]

theorem afterFenceW_quiet {k : State → Out} (h : Quiet s) : afterFenceW s k = k s.commit := by
  obtain ⟨hh, hk, hg⟩ := h
  have hd : drainWhere s.commit (wroteIn s.core.cur) = s.commit := drainWhere_empty hg
  have hf : fenceW s = (s.commit, true) := by
    simp [fenceW, hd, drained, hg, hoopQuiet, commit_ctx, commitCtx_empty hh, hk]
  simp [afterFenceW, hf]

end Sys2Proof.Machine
end

section
/-! PROOFS. What an ending changes (R24, R29, R212): the heads of the context freed, its d0 frame dealt with, and with them
the state in which an abortive trap leaves its core. -/
namespace Sys2Proof.Machine

variable {s t u : State} {c : CtxNo}

/-! ### The banks of a core -/

/-- Two cores that agree but for their banks and the over-shift that is armed. -/
def ButBanks (k l : Core) : Prop := ∃ bs i, l = { k with banks := bs, inj := i }

theorem ButBanks.refl (k : Core) : ButBanks k k := ⟨_, _, rfl⟩

theorem ButBanks.trans {k l m : Core} (h : ButBanks k l) (h' : ButBanks l m) : ButBanks k m := by
  obtain ⟨_, _, rfl⟩ := h
  obtain ⟨_, _, rfl⟩ := h'
  exact ⟨_, _, rfl⟩

theorem setBank_butBanks (k : Core) (b : BitVec 8) (f : Bank → Bank) : ButBanks k (setBank k b f) := ⟨_, _, rfl⟩

theorem shiftBy_butBanks (k : Core) (b : BitVec 8) (d : Int) (p : BitVec 8) : ButBanks k (shiftBy k b d p) := by
  unfold shiftBy
  split <;> exact ⟨_, _, rfl⟩

theorem moveBank_butBanks (n : Nat) (k : Core) (b : BitVec 8) : ButBanks k (moveBank n k b) := by
  unfold moveBank
  dsimp only
  refine .trans ?_ (setBank_butBanks _ b _)
  split
  · exact setBank_butBanks k b _
  · exact shiftBy_butBanks k b _ _

theorem leaveBank_butBanks (n : Nat) (k : Core) (w : Holder) (b : BitVec 8) : ButBanks k (leaveBank n k w b) := by
  have h1 := setBank_butBanks k b fun x => { x with claims := x.claims.filter fun p => !(decide (p.1 = w)) }
  unfold leaveBank
  dsimp only
  split
  · refine .trans (.trans h1 ?_) (setBank_butBanks _ b _)
    split
    · exact setBank_butBanks _ b _
    · exact (moveBank_butBanks _ _ b).trans (setBank_butBanks _ b _)
  · exact h1

/-! ### What an ending may change -/

/-- A state with what an ending may change taken from another: trace rings, the number of the next effect, and of the
core in focus its banks, its frames, its errors and its contexts. -/
def State.endingFrom (s t : State) : State :=
  { s with
    rings := t.rings, eids := t.eids
    core := { s.core with
      banks := t.core.banks, inj := t.core.inj, corrected := t.core.corrected, doomed := t.core.doomed
      frames := t.core.frames, frameWait := t.core.frameWait, ctxs := t.core.ctxs } }

/-- A context with what an ending may change taken from another: its heads, the committed chunks, whether the read of its
d0 frame is due. -/
def Ctx.endingFrom (x y : Ctx) : Ctx := { x with h := y.h, chunks := y.chunks, lvDue := y.lvDue }

/-- What the end of a task of a context changes, and nothing else: no other context. -/
structure Ends (c : CtxNo) (s t : State) : Prop where
  state : t = s.endingFrom t
  ctx : t.ctxAt c = (s.ctxAt c).endingFrom (t.ctxAt c)
  others : ∀ e, e ≠ c → t.ctxAt e = s.ctxAt e

theorem Ends.refl (c : CtxNo) (s : State) : Ends c s s := ⟨rfl, rfl, fun _ _ => rfl⟩

theorem Ends.trans (h : Ends c s t) (h' : Ends c t u) : Ends c s u where
  state := by
    have e : t.endingFrom u = (s.endingFrom t).endingFrom u := congrArg (fun x : State => x.endingFrom u) h.state
    exact h'.state.trans e
  ctx := by
    have e : (t.ctxAt c).endingFrom (u.ctxAt c) = ((s.ctxAt c).endingFrom (t.ctxAt c)).endingFrom (u.ctxAt c) :=
      congrArg (fun x : Ctx => x.endingFrom (u.ctxAt c)) h.ctx
    exact h'.ctx.trans e
  others e he := (h'.others e he).trans (h.others e he)

theorem Ends.cur (h : Ends c s t) : t.core.cur = s.core.cur := by rw [h.state]; rfl
theorem Ends.inbox (h : Ends c s t) : t.core.inbox = s.core.inbox := by rw [h.state]; rfl
theorem Ends.heldBands (h : Ends c s t) : t.core.heldBands = s.core.heldBands := by rw [h.state]; rfl

/-- An update of the context alone that an ending may make. -/
theorem modCtxAt_ends {f : Ctx → Ctx} (hf : ∀ x, f x = x.endingFrom (f x)) : Ends c s (s.modCtxAt c f) where
  state := rfl
  ctx := by rw [State.ctxAt_modCtxAt]; exact hf _
  others e he := State.ctxAt_modCtxAt_ne s c e f he

/-- An update of the core in focus that leaves its contexts alone. -/
theorem modCore_ends {f : Core → Core} (hs : s.modCore f = s.endingFrom (s.modCore f)) (hc : (f s.core).ctxs = s.core.ctxs) :
    Ends c s (s.modCore f) := by
  have hx : ∀ e, (s.modCore f).ctxAt e = s.ctxAt e := fun e => by simp [State.ctxAt, hc]
  exact ⟨hs, by rw [hx]; rfl, fun e _ => hx e⟩

theorem noteAccess_ends (p : PortKey) (e : Seen) : Ends c s (noteAccess s p e) := by
  rw [noteAccess_eq]
  exact ⟨rfl, rfl, fun _ _ => rfl⟩

theorem consume_ends (m : Array) (ws : List Nat) : Ends c s (s.consume m ws).1 := by
  unfold State.consume
  split
  · exact .refl c s
  · dsimp only
    exact modCore_ends rfl rfl

/-- The number of the next effect. -/
theorem eids_ends (n : Nat) : Ends c s { s with eids := n } := ⟨rfl, rfl, fun _ _ => rfl⟩

theorem freeFrameAt_ends (off : Nat) : Ends c s (s.modCore fun k => freeFrameAt k off) := modCore_ends rfl rfl

theorem freeHead_ends (h : BitVec 2) : Ends c s (freeHead s c h) := by
  obtain ⟨bs, i, hk⟩ := leaveBank_butBanks s.cyc s.core (.head c h) (headAt (s.ctxAt c) h).bank
  unfold freeHead
  dsimp only
  split
  · refine .trans (modCore_ends ?_ ?_) (modCtxAt_ends fun x => rfl)
    · unfold State.modCore
      dsimp only
      rw [hk]
      rfl
    · rw [hk]
  · exact .refl c s

theorem freeHeads_ends : Ends c s (freeHeads s c) :=
  (((freeHead_ends 0).trans (freeHead_ends 1)).trans (freeHead_ends 2)).trans (freeHead_ends 3)

theorem readLvDoom_ends : Ends c s (readLvDoom s c) := by
  have hr : Ends c s (readLv s c).1 := by
    unfold readLv
    dsimp only
    split
    · exact (noteAccess_ends _ _).trans (consume_ends _ _)
    · exact .refl c s
  unfold readLvDoom
  dsimp only
  split
  · exact hr.trans (modCore_ends rfl rfl)
  · exact hr

theorem dropD0_ends : Ends c s (dropD0 s c) := by
  unfold dropD0
  dsimp only
  refine readLvDoom_ends.trans ?_
  split
  · exact Ends.trans (modCtxAt_ends fun x => rfl) (eids_ends _)
  · exact freeFrameAt_ends _

theorem endD0_ends : Ends c s (endD0 s c) := by
  unfold endD0
  split
  · exact modCtxAt_ends fun x => rfl
  · exact dropD0_ends

/-! ### The abortive trap (R29) -/

/-- A context with its open chunk discarded: releases that stood in it are undone, an acknowledged FREF is held. -/
def discardOpen (x : Ctx) : Ctx := { undoDrops (keepFref x) x.hoop with hoop := [] }

/-- The state of an abortive trap before its record returns: the open chunk discarded, the heads freed, the d0 frame
dealt with. -/
def abortEnded (s : State) (c : CtxNo) : State := endD0 (freeHeads (s.modCtxAt c discardOpen) c) c

theorem abortEnded_ends : Ends c (s.modCtxAt c discardOpen) (abortEnded s c) := freeHeads_ends.trans endD0_ends

/-- The record that an abortive trap returns. -/
def abortRecord (s : State) (c : CtxNo) (cause : Cause) (r : Record) : Record :=
  keepD ((abortEnded s c).ctxAt c) { r with since := s.cyc, front := s.now + 1, trapped := some (cause, (s.ctxAt c).committed) }

/-- The context that an abortive trap leaves. -/
def abortedCtx (n : Nat) (x : Ctx) : Ctx :=
  { wdStop n x with phase := .ending, task := none, stall := none, asleep := false, pending := none
                    frefWait := none, trapDue := none, replaying := false, body := [] }

/-- The core that an abortive trap leaves: the record back in the inbox and its band held, the queued commands gone. -/
def abortCore (s : State) (c : CtxNo) (cause : Cause) (k : Core) : Core :=
  let back (k : Core) : Core :=
    match (s.ctxAt c).task with
    | none => k
    | some r => { holdBand k r.band s.cyc with inbox := abortRecord s c cause r :: (holdBand k r.band s.cyc).inbox }
  dropQueues (back k) c

section
variable {cause : Cause} {b : Bool} {adds : List Nat} {p : Option Bool}

/-- An abortive trap in its parts (R29). -/
theorem abortAs_eq : abortAs s c cause b adds p =
    (((abortEnded s c).modCore (abortCore s c cause)).modCtxAt c (abortedCtx s.cyc)).report
      (.fault s.coreId c cause (s.ctxAt c).pc (Record.id (s.ctxAt c).task) (s.ctxAt c).committed b adds p) := rfl

theorem abortCore_ctxs (k : Core) : (abortCore s c cause k).ctxs = k.ctxs := by
  unfold abortCore dropQueues holdBand
  dsimp only
  repeat' split
  all_goals rfl

theorem abortCore_cur (k : Core) : (abortCore s c cause k).cur = k.cur := by
  unfold abortCore dropQueues holdBand
  dsimp only
  repeat' split
  all_goals rfl

/-- The core of an abortive trap of a task, by what it has changed (R29). -/
theorem abortCore_inbox {r : Record} (h : (s.ctxAt c).task = some r) (k : Core) :
    (abortCore s c cause k).inbox = abortRecord s c cause r :: k.inbox := by
  unfold abortCore dropQueues holdBand
  simp only [h]
  split <;> rfl

theorem ctxAt_modCore_of_ctxs {f : Core → Core} (hf : (f s.core).ctxs = s.core.ctxs) (e : CtxNo) :
    (s.modCore f).ctxAt e = s.ctxAt e := by
  simp [State.ctxAt, hf]

theorem abortAs_ctxAt : (abortAs s c cause b adds p).ctxAt c = abortedCtx s.cyc ((abortEnded s c).ctxAt c) := by
  rw [abortAs_eq]
  refine (State.ctxAt_modCtxAt _ c _).trans ?_
  rw [ctxAt_modCore_of_ctxs (abortCore_ctxs _)]

theorem abortAs_cur : (abortAs s c cause b adds p).core.cur = s.core.cur :=
  (abortCore_cur _).trans abortEnded_ends.cur

theorem abortAs_phase : ((abortAs s c cause b adds p).ctxAt c).phase = .ending := by rw [abortAs_ctxAt]; rfl

/-- No other context is touched. -/
theorem abortAs_ctxAt_ne {e : CtxNo} (he : e ≠ c) : (abortAs s c cause b adds p).ctxAt e = s.ctxAt e := by
  rw [abortAs_eq]
  refine (State.ctxAt_modCtxAt_ne _ c e _ he).trans ?_
  rw [ctxAt_modCore_of_ctxs (abortCore_ctxs _), abortEnded_ends.others e he, State.ctxAt_modCtxAt_ne s c e _ he]

/-- The current context after its own abortive trap. -/
theorem abortCtx_ctx_phase : (abortCtx s s.core.cur cause).ctx.phase = .ending := by
  have hc : (abortCtx s s.core.cur cause).core.cur = s.core.cur := abortAs_cur
  rw [State.ctx, hc]
  exact abortAs_phase

end

end Sys2Proof.Machine
end

section
/-! PROOFS. The inbox (R11, R12, R29, R31): what a band's head is, bands held and given free, what a change of the clock
leaves of a core. -/
namespace Sys2Proof.Machine

variable {s : State} {k : Core} {b : BitVec 2} {r : Record}

/-! ### The head of a band -/

/-- One step of the choice of a band's head. -/
def foremost (a : Option Record) (r : Record) : Option Record :=
  match a with
  | none => some r
  | some x => if standsBefore r x then some r else some x

theorem foremost_mem {a : Option Record} {q : Record} (h : foremost a r = some q) : a = some q ∨ q = r := by
  unfold foremost at h
  split at h
  · exact .inr (Option.some.inj h).symm
  · split at h
    · exact .inr (Option.some.inj h).symm
    · exact .inl h

theorem foldl_foremost_mem {q : Record} : ∀ (l : List Record) (a : Option Record),
    l.foldl foremost a = some q → a = some q ∨ q ∈ l := by
  intro l
  induction l with
  | nil => exact fun a h => .inl h
  | cons r l ih =>
    intro a h
    rcases ih _ h with h | h
    · rcases foremost_mem h with h | rfl
      · exact .inl h
      · exact .inr (.head _)
    · exact .inr (.tail _ h)

theorem bandHead_eq (k : Core) (b : BitVec 2) :
    bandHead k b = (k.inbox.filter fun r => decide (r.band = b)).foldl foremost none := rfl

/-- The head of a band is one of its records. -/
theorem bandHead_mem (h : bandHead k b = some r) : r ∈ k.inbox ∧ r.band = b := by
  rw [bandHead_eq] at h
  rcases foldl_foremost_mem _ _ h with h | h
  · cases h
  · simpa using h

/-- The record the supervisor decides on is one that a trap returned (R31). -/
theorem trappedHead_mem (h : trappedHead k b = some r) : r ∈ k.inbox ∧ r.band = b ∧ r.trapped.isSome = true := by
  obtain ⟨hm, hb⟩ := bandHead_mem h
  obtain ⟨hm, ht⟩ := List.mem_filter.mp hm
  exact ⟨hm, hb, ht⟩

/-! ### Bands held and given free (R13, R29) -/

theorem bandHeld_holdBand (n : Nat) : bandHeld (holdBand k b n) b = true := by
  have hb : b.toNat < 4 := b.isLt
  unfold holdBand
  split
  · assumption
  · simp [bandHeld, hb]

theorem bandHeld_freeBand (n : Nat) : bandHeld (freeBand k b n) b = false := by
  have hb : b.toNat < 4 := b.isLt
  unfold freeBand
  split
  · simp [bandHeld, hb]
  · exact Bool.eq_false_iff.mpr ‹_›

/-- A record of a band given free: its wait shortened, and nothing else (R13). -/
theorem freeBand_inbox_length (n : Nat) : (freeBand k b n).inbox.length = k.inbox.length := by
  unfold freeBand
  split
  · simp
  · rfl

theorem decideBand_inbox_length (n : Nat) : (decideBand k b n).inbox.length = k.inbox.length := by
  unfold decideBand
  split
  · rfl
  · exact freeBand_inbox_length n

/-! ### The clock (R375, R385) -/

/-- A core with another clock: its cycles, the time they are counted from and the clock. -/
theorem setClock_eq (n : Nat) (k : Core) (x : Clock) :
    setClock n k x = { k with cycles := (setClock n k x).cycles, since := (setClock n k x).since, clock := (setClock n k x).clock } := by
  unfold setClock
  split <;> rfl

theorem clockUpdate_core (s : State) : s.clockUpdate.core =
    { s.core with cycles := s.clockUpdate.core.cycles, since := s.clockUpdate.core.since, clock := s.clockUpdate.core.clock } :=
  setClock_eq _ _ _

@[simp] theorem clockUpdate_inbox (s : State) : s.clockUpdate.core.inbox = s.core.inbox := by rw [clockUpdate_core]
@[simp] theorem clockUpdate_heldBands (s : State) : s.clockUpdate.core.heldBands = s.core.heldBands := by rw [clockUpdate_core]
@[simp] theorem clockUpdate_frames (s : State) : s.clockUpdate.core.frames = s.core.frames := by rw [clockUpdate_core]
@[simp] theorem clockUpdate_mem (s : State) : s.clockUpdate.core.mem = s.core.mem := by rw [clockUpdate_core]
@[simp] theorem clockUpdate_ends (s : State) : s.clockUpdate.core.ends = s.core.ends := by rw [clockUpdate_core]
@[simp] theorem clockUpdate_saves (s : State) : s.clockUpdate.core.saves = s.core.saves := by rw [clockUpdate_core]
@[simp] theorem clockUpdate_ctxs (s : State) : s.clockUpdate.core.ctxs = s.core.ctxs := by rw [clockUpdate_core]
@[simp] theorem clockUpdate_ctxAt (s : State) (c : CtxNo) : s.clockUpdate.ctxAt c = s.ctxAt c := by
  simp only [State.ctxAt, clockUpdate_ctxs]
@[simp] theorem clockUpdate_records (s : State) : s.clockUpdate.records = s.records := rfl
@[simp] theorem clockUpdate_net (s : State) : s.clockUpdate.net = s.net := rfl

end Sys2Proof.Machine
end

section
/-! PROOFS. Frame references (O29): what the display registers and the aim of a reference answer, then FREF and
FREL by their cases. -/
namespace Sys2Proof.Machine

variable {s : State}

/-! ### Display registers -/

/-- A held bit written reads as written. -/
theorem held_setHeld (x : Ctx) (n : BitVec 2) (b : Bool) : (setHeld x n b).held.getLsbD n.toNat = b := by
  have hn : n.toNat < 4 := n.isLt
  cases b <;> simp [setHeld, hn]

@[simp] theorem nextPc_pc_setHeld (x : Ctx) (n : BitVec 2) (b : Bool) : (nextPc (setHeld x n b)).pc = (nextPc x).pc := by
  unfold nextPc repNext setHeld
  dsimp only
  repeat' split
  all_goals rfl

@[simp] theorem nextPc_pc_hoop (x : Ctx) (es : List Effect) : (nextPc { x with hoop := es }).pc = (nextPc x).pc := by
  unfold nextPc repNext
  dsimp only
  repeat' split
  all_goals rfl

theorem dValid_of_counted {d : Word} (h : dCounted d = true) : dValid d = true := by
  unfold dCounted at h
  exact (Bool.and_eq_true_iff.mp h).1

/-- A counter operation on a scratchpad frame of a visible core goes to that core (R19). -/
theorem refAim_scratch {d : Word} (hv : dValid d = true) (hk : dKind d = 1) (hc : visible (dCore d) = true) :
    refAim s d = (.go (toCore (dCore d) (dOffset d)) (dOffset d), s) := by
  simp [refAim, hv, hk, hc]

/-! ### FREF and FREL (R154) -/

theorem exec_fref (n : BitVec 2) (s : State) : exec (.fref n) s = execFref n s := rfl
theorem exec_frel (n : BitVec 2) (s : State) : exec (.frel n) s = execFrel n s := rfl

/-- The effect of an FREF: one reference more at the frame of a descriptor. -/
def frefEffect (s : State) (d : Word) : Effect := mkEffect s s.ctx (toCore (dCore d) (dOffset d)) (.frameInc (dOffset d) 1)

/-- The effect of an FREL, which names the register as it stood (R29). -/
def frelEffect (s : State) (n : BitVec 2) : Effect :=
  { mkEffect s s.ctx (toCore (dCore (s.dreg n)) (dOffset (s.dreg n))) (.frameRel (dOffset (s.dreg n))) with
    drops := some (n, s.dreg n) }

section
variable {n : BitVec 2}

theorem execFref_places (hw : s.ctx.frefWait = none) (hd : dCounted (s.dreg n) = true) (hk : dKind (s.dreg n) = 1)
    (hc : visible (dCore (s.dreg n)) = true) (hh : s.heldBit n = false) (hr : hoopUsed s.ctx + 16 ≤ 2048) :
    execFref n s = stallOut ((s.placed [frefEffect s (s.dreg n)]).commit.modCtx fun x =>
      { x with frefWait := some (n, s.eids) }) := by
  have hv := dValid_of_counted hd
  simp only [execFref, hw, hv, hh, hd, refAim_scratch hv hk hc, Bool.not_true, Bool.or_self, Bool.false_eq_true, if_false]
  exact placing_fits hr

/-- An acknowledged increment: no effect with its number is left in the hoop. -/
theorem execFref_acknowledged {m : BitVec 2} {e : Nat} (hw : s.ctx.frefWait = some (m, e))
    (ha : ∀ k ∈ s.ctx.chunks, ∀ f ∈ k.effs, f.eid ≠ e) :
    execFref n s = done (s.modCtx fun x => { setHeld x n true with frefWait := none, sinceCommit := 0 }) := by
  have hq : (s.ctx.chunks.any fun k => k.effs.any fun f => f.eid == e) = false := by
    simpa [List.any_eq_false] using ha
  simp [execFref, hw, hq]

theorem execFref_nothing (hw : s.ctx.frefWait = none) (hv : dValid (s.dreg n) = true)
    (h : s.heldBit n = true ∨ dCounted (s.dreg n) = false) : execFref n s = done s := by
  have hb : (s.heldBit n || !dCounted (s.dreg n)) = true := by simpa using h
  simp [execFref, hw, hv, hb]

/-- A release that fits is placed, the held bit is cleared, and k goes on. -/
theorem releaseD_places {k : State → Out} (hd : dCounted (s.dreg n) = true) (hk : dKind (s.dreg n) = 1)
    (hc : visible (dCore (s.dreg n)) = true) (hr : hoopUsed s.ctx + 16 ≤ 2048) :
    releaseD n s k = k ((s.placed [frelEffect s n]).modCtx fun x => setHeld x n false) := by
  have hf : s.place [frelEffect s n] = (s.placed [frelEffect s n], true) :=
    place_fits (by simpa [effBytes, frelEffect, mkEffect, opSize] using hr)
  simp only [releaseD, refAim_scratch (dValid_of_counted hd) hk hc]
  split
  · next u hu => rw [(Prod.mk.inj (hu.symm.trans hf)).1]
  · next u hu => cases hu.symm.trans hf

theorem execFrel_places (hd : dCounted (s.dreg n) = true) (hk : dKind (s.dreg n) = 1)
    (hc : visible (dCore (s.dreg n)) = true) (hh : s.heldBit n = true) (hr : hoopUsed s.ctx + 16 ≤ 2048) :
    execFrel n s = done ((s.placed [frelEffect s n]).modCtx fun x => setHeld x n false) := by
  unfold execFrel
  rw [if_pos hh, releaseD_places hd hk hc hr]

theorem execFrel_nothing (hh : s.heldBit n = false) : execFrel n s = done s := by
  simp [execFrel, hh]

end

end Sys2Proof.Machine
end

section
open Sys2Proof Sys2Proof.Machine

/-- Settles O29: FREF by what it waits for and whether its register is counted and held, FREL by the held bit. -/
theorem frameReferences : Obligations.FrameReferences := by
  unfold Obligations.FrameReferences
  intro s n
  refine ⟨fun hw hd hk hc hr => ⟨fun hh => ?_, fun hh => ?_⟩, fun m e hw ha => ?_, fun hw hv h => ?_, fun hh => ?_⟩
  · refine ⟨_, (exec_fref n s).trans (execFref_places hw hd hk hc hh hr), ?_⟩
    simp [State.stallAs, commit_ctx, commitCtx_open]
    exact ⟨rfl, rfl, rfl⟩
  · refine ⟨_, (exec_frel n s).trans (execFrel_places hd hk hc hh hr), ?_, ?_, frelEffect s n, ?_, rfl, rfl⟩
    · simp [State.heldBit, State.advance_eq, held_setHeld]
    · simp [State.advance_eq]
    · simp [State.advance_eq, setHeld]
  · exact (exec_fref n s).trans (execFref_acknowledged hw ha)
  · exact (exec_fref n s).trans (execFref_nothing hw hv h)
  · exact (exec_frel n s).trans (execFrel_nothing hh)

end

section
/-! PROOFS. Frame slots (O28): loads and stores of the own scratchpad, then the forms of a slot by where it lies. -/
namespace Sys2Proof.Machine

variable {s : State}

/-- Bytes read one by one are bytes read in a row. -/
theorem map_rd8_range (m : Memory) (n : Nat) : ∀ a, ((List.range n).map fun i => rd8 m (a + i)) = rdBytes m a n := by
  induction n with
  | zero => intro a; rfl
  | succ n ih =>
    intro a
    rw [List.range_succ_eq_map, List.map_cons, List.map_map, rdBytes, ← ih (a + 1)]
    simp [Function.comp_def, Nat.add_assoc, Nat.add_comm 1]

/-- A load of a doubleword of the own scratchpad (R107). -/
theorem loadLocal_doubleword {d : Reg} {off : Nat} (h : Lets s (.scratch s.coreId) 0 off) (hc : s.Clean) :
    loadLocal s (.g d false) ((List.range 8).map fun i => off + i) =
      done ((s.noted (.scratch s.coreId) 0 off).setG d (loadedValue s.core.mem off 8 false)) := by
  have hh : ((List.range 8).map fun i => off + i).headD 0 = off := rfl
  unfold loadLocal
  rw [hh, atOwnPort_lets h, consuming_clean _ _ _ _ _ (by simpa using hc), List.map_map]
  simp only [noted_core, Function.comp_def, map_rd8_range]
  rfl

/-- A store of bytes of the own scratchpad (R108). -/
theorem storeLocal_bytes {off : Nat} {bs : List Byte} (hb : bs ≠ []) (h : Lets s (.scratch s.coreId) 1 off) (hc : s.Clean) :
    storeLocal s (cellsAt off bs) =
      done ((s.noted (.scratch s.coreId) 1 off).modCore fun k => { k with mem := wrBytes k.mem off bs }) := by
  have hh : ((cellsAt off bs).map Prod.fst).headD 0 = off := by
    cases bs with
    | nil => exact absurd rfl hb
    | cons b bs => rfl
  unfold storeLocal
  rw [hh, atOwnPort_lets h, rewriting_clean _ _ _ _ _ (by simpa using hc)]
  rfl

/-! ### Frame slots (R19, R151, R152) -/

theorem exec_ldf (d : Reg) (n : BitVec 2) (slot : BitVec 11) (s : State) : exec (.ldf d n slot) s = loadSlot d n slot s := rfl
theorem exec_ldfa (d : Reg) (n : BitVec 2) (slot : BitVec 11) (s : State) : exec (.ldfa d n slot) s = loadSlot d n slot s := rfl
theorem exec_stf (d : Reg) (n : BitVec 2) (slot : BitVec 11) (s : State) : exec (.stf d n slot) s = storeSlot d n slot s := rfl
theorem exec_stfr (d : Reg) (n : BitVec 2) (slot : BitVec 11) (s : State) : exec (.stfr d n slot) s = execStfr d n slot s := rfl
theorem exec_fadr (d : Reg) (n : BitVec 2) (slot : BitVec 11) (s : State) : exec (.fadr d n slot) s = execFadr d n slot s := rfl
theorem exec_fkeep (s : State) : exec .fkeep s = execFkeep s := rfl
theorem exec_dsps (d : Reg) (n : BitVec 2) (s : State) : exec (.dsps d n) s = execDsps d n s := rfl

/-- What a store of a doubleword to a slot writes: slot 0 merged (R152). -/
def slotValue (m : Memory) (off : Nat) (slot : BitVec 11) (x : Word) : Nat :=
  if slot = 0 then mergeSlot0 (rdNat m off 8) x.toNat else x.toNat

section
variable {d : Reg} {n : BitVec 2} {slot : BitVec 11} {off : Nat}

theorem loadSlot_here (hs : slotAt s n slot = some (.here off)) (h : Lets s (.scratch s.coreId) 0 off) (hc : s.Clean) :
    loadSlot d n slot s = done ((s.noted (.scratch s.coreId) 0 off).setG d (loadedValue s.core.mem off 8 false)) := by
  simp only [loadSlot, hs]
  exact loadLocal_doubleword h hc

theorem storeSlot_here (hs : slotAt s n slot = some (.here off)) (h : Lets s (.scratch s.coreId) 1 off) (hc : s.Clean) :
    storeSlot d n slot s = done ((s.noted (.scratch s.coreId) 1 off).modCore fun k =>
      { k with mem := wrBytes k.mem off (leBytes 8 (slotValue s.core.mem off slot (s.gr d))) }) := by
  simp only [storeSlot, hs, slotValue]
  split
  · rw [atOwnPort_lets h, consuming_clean _ _ _ _ _ (by simpa using hc)]
    simp [State.modCore, hc]
  · rw [storeLocal_bytes (by simp [leBytes]) h hc]

theorem execStfr_here (hs : slotAt s n slot = some (.here off)) (hq : Quiet s) (h : Lets s (.scratch s.coreId) 1 off)
    (hc : s.Clean) :
    execStfr d n slot s = done ((s.commit.noted (.scratch s.coreId) 1 off).modCore fun k =>
      { k with mem := wrBytes k.mem off (leBytes 8 (slotValue s.core.mem off slot (s.gr d))) }) := by
  have hs' : slotAt s.commit n slot = some (.here off) := (commit_slotAt n slot).trans hs
  simp only [execStfr, hs]
  rw [afterFenceW_quiet hq, storeSlot_here hs' h hc, commit_gr]
  rfl

/-- FKEEP: a frame that is live stays as it is (R153). -/
theorem execFkeep_lets (h : Lets s (.scratch s.coreId) 5 (dOffset (s.dreg 0))) (hc : s.Clean) :
    execFkeep s = if sLv (rdNat s.core.mem (dOffset (s.dreg 0)) 8) then done (s.noted (.scratch s.coreId) 5 (dOffset (s.dreg 0)))
      else done ((s.noted (.scratch s.coreId) 5 (dOffset (s.dreg 0))).modCore fun k =>
        { k with mem := wrBytes k.mem (dOffset (s.dreg 0)) (leBytes 8 (sWith (rdNat s.core.mem (dOffset (s.dreg 0)) 8) 1 true)) }) := by
  unfold execFkeep
  dsimp only
  rw [atOwnPort_lets h, consuming_clean _ _ _ _ _ (by simpa using hc)]
  simp [State.modCore, hc]

end

end Sys2Proof.Machine
end

section
open Sys2Proof Sys2Proof.Machine

/-- Settles O28: each form by where its slot lies; STFR goes through the fence that has nothing to wait for. -/
theorem frameSlotForms : Obligations.FrameSlotForms := by
  unfold Obligations.FrameSlotForms
  intro s d n slot
  refine ⟨fun off hs => ⟨fun h hc => ⟨?_, ?_⟩, fun h hc => ?_, ?_⟩, fun off hs hq h hc => ?_, fun hs => ?_, rfl, fun hh => ?_,
    fun h hc => ?_⟩
  · exact (exec_ldf d n slot s).trans (loadSlot_here hs h hc)
  · exact (exec_ldfa d n slot s).trans (loadSlot_here hs h hc)
  · exact (exec_stf d n slot s).trans (storeSlot_here hs h hc)
  · rw [exec_fadr, execFadr, hs]
    rfl
  · exact ⟨_, (exec_stfr d n slot s).trans (execStfr_here hs hq h hc), by simp [State.advance_eq, slotValue]⟩
  · rw [exec_ldf, exec_ldfa, exec_stf, exec_stfr, exec_fadr]
    simp [loadSlot, storeSlot, execStfr, execFadr, hs, trapOut_next]
  · rw [exec_dsps, execDsps, hh]
    rfl
  · rw [Completes, exec_fkeep, execFkeep_lets h hc]
    split
    · exact ⟨_, rfl, by simp [State.advance_eq]⟩
    · exact ⟨_, rfl, by simp [State.advance_eq]⟩

end

section
/-! PROOFS. Significance traps (O25): what an event does by MODE, INH and the handler, FADD as a checked form, SRET. -/
namespace Sys2Proof.Machine

variable {s : State}

theorem exec_fadd (d a b : Reg) (p : Prec) (r : Rnd) (s : State) : exec (.fadd d a b p r) s = fp2 faddR d a b p r s := rfl
theorem exec_sret (s : State) : exec .sret s = execSret s := rfl

/-! ### Events (R88, R90) -/

section
variable {e : SigElem} {vec : Bool}

/-- A checked instruction whose one element meets the condition raises its event, where significance is checked. -/
theorem checked_meets (hm : s.ctx.sigmode.mode ≠ 0) (h : sigMeets s.ctx.sigthr e = true) :
    checked s [e] vec = sigEvent s e vec := by
  simp only [checked, if_neg hm, List.find?_cons, h]

/-- MODE 2 with INH clear and a handler: the trap is taken. -/
theorem sigEvent_traps (hm : s.ctx.sigmode.mode = 2) (hi : s.ctx.sigmode.inh = false) (hv : s.ctx.sigvec ≠ 0) :
    sigEvent s e vec = .next (sigTrap (s.modCtx setSticky) (sigOpBits e vec)) := by
  have h3 : ¬ (2 : BitVec 2) = 3 := by decide
  simp only [sigEvent, hm, hi, h3, if_false, and_self, if_true, if_neg hv]

/-- The context that a significance trap leaves (R32). -/
def trapCtx (op : Word) (x : Ctx) : Ctx :=
  { x with sigpc := x.pc, sigop := op, pc := x.sigvec, replaying := false, stall := none, asleep := false
           sigmode := { x.sigmode with inh := true } }

theorem sigTrap_eq (s : State) (op : Word) : sigTrap s op = s.modCtx (trapCtx op) := rfl

@[simp] theorem gval_trapCtx (op : Word) (x : Ctx) (r : Reg) : gval (trapCtx op x) r = gval x r := rfl
@[simp] theorem gcount_trapCtx (op : Word) (x : Ctx) (r : Reg) : gcount (trapCtx op x) r = gcount x r := rfl
@[simp] theorem gval_setSticky (x : Ctx) (r : Reg) : gval (setSticky x) r = gval x r := rfl
@[simp] theorem gcount_setSticky (x : Ctx) (r : Reg) : gcount (setSticky x) r = gcount x r := rfl

/-- MODE 1, or MODE 2 with INH set: STICKY alone. -/
theorem sigEvent_goesOn (h : s.ctx.sigmode.mode = 1 ∨ s.ctx.sigmode.mode = 2 ∧ s.ctx.sigmode.inh = true) :
    sigEvent s e vec = done (s.modCtx setSticky) := by
  rcases h with hm | ⟨hm, hi⟩
  · simp [sigEvent, hm]
  · simp [sigEvent, hm, hi]

/-- The state that an event aborts in: SIGOP and SIGPC written (log entry 107). -/
def sigNoted (s : State) (e : SigElem) (vec : Bool) : State :=
  (s.modCtx setSticky).modCtx fun y => { y with sigop := sigOpBits e vec, sigpc := y.pc }

/-- MODE 3, or MODE 2 with INH clear and no handler: the task is aborted. -/
theorem sigEvent_aborts
    (h : s.ctx.sigmode.mode = 3 ∨ s.ctx.sigmode.mode = 2 ∧ s.ctx.sigmode.inh = false ∧ s.ctx.sigvec = 0) :
    sigEvent s e vec = .next (abortCtx (sigNoted s e vec) s.core.cur .sigAbort) := by
  rcases h with hm | ⟨hm, hi, hv⟩
  · simp only [sigEvent, hm, if_true]
    rfl
  · have h3 : ¬ (2 : BitVec 2) = 3 := by decide
    simp only [sigEvent, hm, hi, hv, h3, if_false, if_true, and_self]
    rfl

end

/-! ### SRET (R150, R169) -/

/-- The context that SRET leaves outside a replay. -/
def sretCtx (x : Ctx) : Ctx :=
  { x with sigmode := { x.sigmode with inh := false }, stall := none, asleep := false, pc := x.sigpc + 4 }

theorem execSret_resumes (hi : s.ctx.sigmode.inh = true) (hr : repAct s.ctx.rep = false) :
    execSret s = .next (s.modCtx sretCtx) := by
  simp only [execSret, hi, if_true]
  refine congrArg Host.Outcome.next ?_
  have hx : repAct (s.ctxAt s.core.cur).rep = false := hr
  simp [State.modCtx, State.modCtxAt, hx, sretCtx]

theorem execSret_illegal (hi : s.ctx.sigmode.inh = false) : execSret s = trapOut s .illegal := by
  simp [execSret, hi]

/-! ### FADD as a checked form (R90, R111) -/

/-- The element that FADD raises its event for. -/
def faddElem (s : State) (a b : Reg) (p : Prec) (r : Rnd) : SigElem :=
  let x := fopnd s.ctx p a
  let y := fopnd s.ctx p b
  ⟨0, (faddR (precFmt p) (rndOf s.ctx r false) x y).count, fmtP (precFmt p), [x, y], [x.c, y.c]⟩

/-- The state with FADD's result in gd. -/
def faddPut (s : State) (d a b : Reg) (p : Prec) (r : Rnd) : State :=
  putF s d (faddR (precFmt p) (rndOf s.ctx r false) (fopnd s.ctx p a) (fopnd s.ctx p b))

section
variable {d a b : Reg} {p : Prec} {r : Rnd}

theorem fadd_meets (hm : s.ctx.sigmode.mode ≠ 0) (h : sigMeets s.ctx.sigthr (faddElem s a b p r) = true) :
    exec (.fadd d a b p r) s = sigEvent (faddPut s d a b p r) (faddElem s a b p r) false := by
  rw [exec_fadd]
  refine checked_meets (s := faddPut s d a b p r) ?_ ?_
  · simpa [faddPut, putF, State.setGC_eq] using hm
  · simpa [faddPut, putF, State.setGC_eq, faddElem] using h

end

end Sys2Proof.Machine
end

section
open Sys2Proof Sys2Proof.Machine

/-- Settles O25: FADD's event by MODE, INH and the handler; SRET by INH. -/
theorem significanceTrapEntry : Obligations.SignificanceTrapEntry := by
  unfold Obligations.SignificanceTrapEntry
  refine ⟨fun s d a b p r => ?_, fun s hi hr => ?_, fun s hi => (exec_sret s).trans (execSret_illegal hi)⟩
  · intro f x y q e hmeets
    have hctx : (faddPut s d a b p r).ctx = Machine.setGC s.ctx d (BitVec.ofNat 64 q.bits) q.count := State.ctx_modCtx s _
    refine ⟨fun hm hi hv => ?_, fun h => ?_, fun h => ?_⟩
    · refine ⟨_, (fadd_meets (by rw [hm]; decide) hmeets).trans
        (sigEvent_traps (by simpa [hctx] using hm) (by simpa [hctx] using hi) (by simpa [hctx] using hv)), ?_⟩
      have ht : (sigTrap ((faddPut s d a b p r).modCtx setSticky) (sigOpBits (faddElem s a b p r) false)).ctx =
          trapCtx (sigOpBits e false) (setSticky (Machine.setGC s.ctx d (BitVec.ofNat 64 q.bits) q.count)) := by
        rw [sigTrap_eq, State.ctx_modCtx, State.ctx_modCtx, hctx]
        rfl
      refine ⟨fun hd => ?_, ?_, ?_, ?_, ?_, ?_, ?_, fun k hk => ?_, ?_⟩
      · rw [State.gr, State.grc, ht]
        exact ⟨gval_setGC s.ctx d _ _ hd, gcount_setGC s.ctx d _ _ hd⟩
      · rw [ht]; simp [trapCtx, setSticky]
      · rw [ht]; rfl
      · rw [ht]; simp [trapCtx, setSticky]
      · rw [ht]; rfl
      · rw [ht]; rfl
      · rw [ht]; simp [trapCtx, setSticky]
      · simp [State.gr, State.grc, ht, gval_setGC_ne _ _ _ _ _ hk, gcount_setGC_ne _ _ _ _ _ hk]
      · exact ((sameBytes_modCtx s _).trans (sameBytes_modCtx _ _)).trans (sameBytes_modCtx _ _)
    · have hm : s.ctx.sigmode.mode ≠ 0 := by
        rcases h with h | h
        · rw [h]; decide
        · rw [h.1]; decide
      exact (fadd_meets hm hmeets).trans (sigEvent_goesOn (by simpa [hctx] using h))
    · have hm : s.ctx.sigmode.mode ≠ 0 := by
        rcases h with h | h
        · rw [h]; decide
        · rw [h.1]; decide
      exact ⟨_, (fadd_meets hm hmeets).trans (sigEvent_aborts (by simpa [hctx] using h)), abortCtx_ctx_phase⟩
  · refine ⟨_, (exec_sret s).trans (execSret_resumes hi hr), ?_, ?_, ?_⟩
    · simp [sretCtx]
    · simp [sretCtx]
    · simp [sretCtx, AgreeButPc]

end

section
/-! PROOFS. The abortive trap (O26): what its record keeps of the display registers, what it leaves of its context and band;
and the discard of such a record with one reference kept. -/
namespace Sys2Proof.Machine

variable {s : State} {c : CtxNo}

/-! ### Display registers and releases undone (R29, R173) -/

theorem oneBit_getLsbD : ∀ n m : BitVec 2, (1#4 <<< n.toNat).getLsbD m.toNat = decide (m = n) := by decide

theorem setHeld_getLsbD (x : Ctx) (n m : BitVec 2) (b : Bool) :
    (setHeld x n b).held.getLsbD m.toNat = if m = n then b else x.held.getLsbD m.toNat := by
  have hm : m.toNat < 4 := m.isLt
  cases b
  · simp only [setHeld, Bool.false_eq_true, if_false, BitVec.getLsbD_and, BitVec.getLsbD_not, oneBit_getLsbD, hm]
    by_cases h : m = n <;> simp [h]
  · simp only [setHeld, if_true, BitVec.getLsbD_or, oneBit_getLsbD]
    by_cases h : m = n <;> simp [h]

theorem keepFref_d (x : Ctx) : (keepFref x).d = x.d := by
  unfold keepFref
  repeat' split
  all_goals rfl

/-- A display register of a context. -/
def dregOf (x : Ctx) (n : BitVec 2) : Word := x.d[n.toNat]'(by have := n.isLt; omega)

theorem dregOf_setHeld (x : Ctx) (n m : BitVec 2) (b : Bool) : dregOf (setHeld x n b) m = dregOf x m := rfl

theorem dregOf_setD (x : Ctx) (n m : BitVec 2) (w : Word) : dregOf (setD x n w) m = if m = n then w else dregOf x m := by
  unfold dregOf setD
  split
  · next h => simp [h]
  · next h =>
    have hn : n.toNat ≠ m.toNat := fun q => h (BitVec.eq_of_toNat_eq q.symm)
    simp [Vector.getElem_set_ne, hn]

section
variable {es : List Effect} {m : BitVec 2} {w : Word}

/-- A register that no discarded release names stays as it is. -/
theorem undoDrops_kept (h : ∀ e ∈ es, ∀ v, e.drops ≠ some (m, v)) : ∀ x : Ctx,
    dregOf (undoDrops x es) m = dregOf x m ∧ (undoDrops x es).held.getLsbD m.toNat = x.held.getLsbD m.toNat := by
  induction es with
  | nil => exact fun x => ⟨rfl, rfl⟩
  | cons e es ih =>
    intro x
    have ih := ih fun f hf => h f (.tail _ hf)
    simp only [undoDrops]
    split
    · exact ih x
    · next n v he =>
      have hn : m ≠ n := fun hm => h e (.head _) v (hm ▸ he)
      obtain ⟨hd, hh⟩ := ih (setHeld (setD x n v) n true)
      rw [hd, hh, dregOf_setHeld, dregOf_setD, setHeld_getLsbD, if_neg hn, if_neg hn]
      exact ⟨rfl, rfl⟩

/-- A register that a discarded release names, each time with one value, is as before it, its bit set. -/
theorem undoDrops_undone (hu : ∀ e ∈ es, ∀ v, e.drops = some (m, v) → v = w) : ∀ x : Ctx,
    ((∃ e ∈ es, e.drops = some (m, w)) ∨ (dregOf x m = w ∧ x.held.getLsbD m.toNat = true)) →
    dregOf (undoDrops x es) m = w ∧ (undoDrops x es).held.getLsbD m.toNat = true := by
  induction es with
  | nil =>
    rintro x (⟨e, he, -⟩ | h)
    · cases he
    · exact h
  | cons e es ih =>
    intro x h
    have ih := ih fun f hf => hu f (.tail _ hf)
    simp only [undoDrops]
    split
    · next he =>
      refine ih x (h.imp_left ?_)
      rintro ⟨f, hf, hd⟩
      rcases List.mem_cons.mp hf with rfl | hf
      · rw [he] at hd
        cases hd
      · exact ⟨f, hf, hd⟩
    · next n v he =>
      refine ih _ ?_
      rw [dregOf_setHeld, dregOf_setD, setHeld_getLsbD]
      by_cases hm : m = n
      · have hv : v = w := hu e (.head _) v (hm ▸ he)
        exact .inr (by simp [hm, hv])
      · rw [if_neg hm, if_neg hm]
        refine h.imp_left ?_
        rintro ⟨f, hf, hd⟩
        rcases List.mem_cons.mp hf with rfl | hf
        · rw [he] at hd
          cases hd
          exact absurd rfl hm
        · exact ⟨f, hf, hd⟩

end

/-! ### The record of an abortive trap (R29, R30) -/

theorem keptD_getElem (x : Ctx) (n : Fin 3) : (#v[x.d[1], x.d[2], x.d[3]])[n] = dregOf x (BitVec.ofNat 2 (n.val + 1)) :=
  match n with
  | 0 | 1 | 2 => rfl

theorem dregOf_ofNat (x : Ctx) (n : Fin 3) : dregOf x (BitVec.ofNat 2 (n.val + 1)) = x.d[n.val + 1] :=
  match n with
  | 0 | 1 | 2 => rfl

theorem toNat_ofNat_succ (n : Fin 3) : (BitVec.ofNat 2 (n.val + 1)).toNat = n.val + 1 :=
  match n with
  | 0 | 1 | 2 => rfl

theorem abortEnded_d : ((abortEnded s c).ctxAt c).d = (undoDrops (keepFref (s.ctxAt c)) (s.ctxAt c).hoop).d := by
  rw [abortEnded_ends.ctx, State.ctxAt_modCtxAt]
  rfl

theorem abortEnded_held : ((abortEnded s c).ctxAt c).held = (undoDrops (keepFref (s.ctxAt c)) (s.ctxAt c).hoop).held := by
  rw [abortEnded_ends.ctx, State.ctxAt_modCtxAt]
  rfl

theorem abortEnded_hoop : ((abortEnded s c).ctxAt c).hoop = [] := by
  rw [abortEnded_ends.ctx, State.ctxAt_modCtxAt]
  rfl

theorem wdStop_hoop (n : Nat) (x : Ctx) : (wdStop n x).hoop = x.hoop := by
  unfold wdStop
  split <;> rfl

section
variable {cause : Cause} {r : Record}

theorem abortCtx_inbox (h : (s.ctxAt c).task = some r) :
    (abortCtx s c cause).core.inbox = abortRecord s c cause r :: s.core.inbox := by
  have hi : (abortEnded s c).core.inbox = s.core.inbox := abortEnded_ends.inbox
  exact (abortCore_inbox h _).trans (congrArg _ hi)

theorem abortCtx_bandHeld (h : (s.ctxAt c).task = some r) : bandHeld (abortCtx s c cause).core r.band = true := by
  refine Eq.trans ?_ (bandHeld_holdBand (k := (abortEnded s c).core) (b := r.band) s.cyc)
  show bandHeld (abortCore s c cause (abortEnded s c).core) r.band = _
  simp only [abortCore, h]
  rfl

/-- Each register of the record, by the releases in the discarded open chunk. -/
theorem abortRecord_kept (n : Fin 3) : let x := s.ctxAt c; let m : BitVec 2 := BitVec.ofNat 2 (n.val + 1)
    let y := (abortEnded s c).ctxAt c
    ((∀ e ∈ x.hoop, ∀ v, e.drops ≠ some (m, v)) →
      (#v[y.d[1], y.d[2], y.d[3]])[n] = x.d[n.val + 1] ∧
        (y.held.extractLsb' 1 3).getLsbD n = (keepFref x).held.getLsbD (n.val + 1)) ∧
    (∀ w, (∃ e ∈ x.hoop, e.drops = some (m, w)) → (∀ e ∈ x.hoop, ∀ v, e.drops = some (m, v) → v = w) →
      (#v[y.d[1], y.d[2], y.d[3]])[n] = w ∧ (y.held.extractLsb' 1 3).getLsbD n = true) := by
  intro x m y
  have hd : (#v[y.d[1], y.d[2], y.d[3]])[n] = dregOf (undoDrops (keepFref x) x.hoop) m := by
    rw [keptD_getElem]
    simp only [dregOf, y, abortEnded_d]
    rfl
  have hh : (y.held.extractLsb' 1 3).getLsbD n = (undoDrops (keepFref x) x.hoop).held.getLsbD m.toNat := by
    rw [toNat_ofNat_succ, BitVec.getLsbD_extractLsb', abortEnded_held, Nat.add_comm]
    simp [x]
  rw [hd, hh]
  refine ⟨fun h => ?_, fun w hw hu => undoDrops_undone hu _ (.inl hw)⟩
  obtain ⟨h1, h2⟩ := undoDrops_kept h (keepFref x)
  rw [h1, h2, toNat_ofNat_succ, ← dregOf_ofNat]
  exact ⟨by simp only [dregOf, keepFref_d]; rfl, rfl⟩

end

/-! ### The discard of a record (R24, R31) -/

theorem exec_recordDiscard (b : BitVec 2) (s : State) : exec (.recordDiscard b) s = .next ((tryDiscard b s).getD s) := rfl

/-- A release that a core's interface sends for a reference to a scratchpad frame. -/
def releasePacket (s : State) (d : Word) : Packet :=
  ⟨⟨.core s.coreId, .core (dCore d)⟩, .ni, s.eids, false, false, ⟨0, 0, true⟩, 0, .op (.frameRel (dOffset d)), false⟩

theorem releaseKept_scratch {d : Word} (t : Tag) (h : dKind d = 1) :
    releaseKept s t d = { s with net := s.net ++ [releasePacket s d], eids := s.eids + 1 } := by
  simp only [releaseKept, counterOp, h, if_true]
  rfl

/-- The state in which a record that is no launch's has been discarded, its band decided and its references released. -/
def discarded (s : State) (b : BitVec 2) (r : Record) (cause : Cause) (com : Bool) : State :=
  (reportDiscard (releaseAllKept (s.modCore fun k => decideBand { k with inbox := k.inbox.erase r } b s.cyc) r)
    s.coreId (some cause) r.msgid com).clockUpdate

section
variable {b : BitVec 2} {r : Record} {cause : Cause} {com : Bool}

theorem tryDiscard_discards (hh : trappedHead s.core b = some r) (ht : r.trapped = some (cause, com))
    (hc : com = true ∨ r.retried = true) (hw : (counterWalks s (dieOf s.coreId) r.tag (keptRefs r)).isSome = true)
    (hl : r.launch = none) : tryDiscard b s = some (discarded s b r cause com) := by
  have hg : (com || r.retried) = true := by simpa using hc
  simp only [tryDiscard, hh, ht, hg, hw, hl, Bool.and_self, if_true]
  rfl

end

end Sys2Proof.Machine
end

section
open Sys2Proof Sys2Proof.Machine

/-- Settles O26: the parts of an abortive trap, its record's registers by the releases discarded; the discard sends the
release of the one reference kept. -/
theorem abortiveTrapEntry : Obligations.AbortiveTrapEntry := by
  unfold Obligations.AbortiveTrapEntry
  refine ⟨fun s c cause r h => ?_, fun s b r cause com w hh ht hc hw hk hl => ?_⟩
  · have hx : (abortCtx s c cause).ctxAt c = abortedCtx s.cyc ((abortEnded s c).ctxAt c) := abortAs_ctxAt
    refine ⟨?_, abortAs_phase, ?_, ?_, ⟨abortRecord s c cause r, ?_, rfl, rfl, rfl, rfl, rfl, _, _, rfl, abortRecord_kept⟩,
      abortCtx_bandHeld h, fun e he => abortAs_ctxAt_ne he⟩
    · rw [abortCtx, abortWith_records, h]
      rfl
    · rw [hx]
      rfl
    · rw [hx]
      exact (wdStop_hoop _ _).trans abortEnded_hoop
    · rw [abortCtx_inbox h]
      rfl
  · have hwalk : (counterWalks s (dieOf s.coreId) r.tag (keptRefs r)).isSome = true := by simp [counterWalks, hw, hk]
    have hmem := (trappedHead_mem hh).1
    refine ⟨discarded s b r cause com, ?_, ?_, ?_⟩
    · rw [exec_recordDiscard, tryDiscard_discards hh ht hc hwalk hl]
      rfl
    · have hlen := List.length_erase_add_one hmem
      simp only [discarded, clockUpdate_inbox, releaseAllKept, hw, List.foldl_cons, List.foldl_nil, releaseKept_scratch _ hk]
      exact (congrArg (· + 1) (decideBand_inbox_length _)).trans hlen
    · simp only [discarded, clockUpdate_net, releaseAllKept, hw, List.foldl_cons, List.foldl_nil, releaseKept_scratch _ hk]
      rfl

end

section
/-! PROOFS. EXIT over a struck word (O32): the read of LV at the end of a task kills the core where that word shows an
uncorrectable error (R33, R191), and then the context is free and not ending. -/
namespace Sys2Proof.Machine

/-- Context 0 of core 1 runs a task whose d0 names its depth-0 frame, at granule 0 of the frame area; slot 0 of that frame
lies in a word that radiation has struck beyond correction (log entry 57). -/
def exitStruck : State :=
  (State.reset.modCtxAt 0 fun x =>
    { x with phase := .running, task := some placedRecord, d := #v[frameDesc 1 (512 * 0x60) 8, 0, 0, 0] }).modCore
    fun k => { k with frames := [(0, 1)], flips := [⟨.scratch, 512 * 0x60 / 8, true⟩] }

/-- The phase of the current context that an answer leaves it in. -/
def outPhase : Out → Option Phase
  | .next t => some t.ctx.phase
  | .fault _ | .refused _ => none

theorem exitStruck_unbound : ∀ n, (headAt exitStruck.ctx n).bnd = false := by decide +kernel

theorem exitStruck_killed : outPhase (exec .exit exitStruck) = some .free := by decide +kernel

end Sys2Proof.Machine
end

section
open Sys2Proof Sys2Proof.Machine

/-- Refutes O32: EXIT of a task whose d0 frame lies in a struck word kills its core. Nothing in the clause on EXIT says that
no word is struck. -/
theorem not_eventsEndingsAndCommits : ¬ Obligations.EventsEndingsAndCommits := by
  unfold Obligations.EventsEndingsAndCommits
  intro h
  obtain ⟨-, -, -, -, -, -, hexit, -⟩ := h exitStruck 0 0
  obtain ⟨t, ht, hp, -⟩ := hexit (by decide +kernel) (by decide +kernel) exitStruck_unbound (by decide +kernel) (by decide +kernel)
    (by decide +kernel) (by decide +kernel)
  have hk := exitStruck_killed
  rw [ht] at hk
  have hfree : t.ctx.phase = .free := Option.some.inj hk
  rw [hp] at hfree
  cases hfree

end

section
/-! PROOFS. A route that its engine holds (O52): an access of the copy engine that replay has held back holds its route
behind it (R342, R350), also once no trace ring is in use any more, until the engine tries again. -/
namespace Sys2Proof.Machine

/-- The route from core 2 to core 1. -/
def heldRoute : Route := ⟨.core 2, .core 1⟩

/-- A load of one byte that context 0 of core 2 asks of core 1. -/
def heldLoad : Packet := ⟨heldRoute, .ctx 0, 40, false, false, ⟨0, 0, true⟩, 0, .op (.load [0]), false⟩

/-- The copy command that runs at core 2: replay has held an access of its block back at core 1. -/
def heldCopy : CpRun :=
  { own := 1, block := 0, fault := none, got := [], waits := [], wrote := false, checked := false, heldAt := some 1
    cmd := { dw := Vector.replicate 8 0, tag := ⟨0, 0, true⟩, frm := 0, sbase := 0, slimit := 0, reach := [], wide := false
             age := 0, seq := 0 } }

/-- That load is all there is in the mesh of a package as boot leaves it, where core 2 runs that command. -/
def routeHeld : State :=
  { State.reset with net := [heldLoad], booted := true, others := [(2, { Core.reset 2 with cprun := some heldCopy })] }

/-- What is in the mesh after an answer. -/
def outNet : Out → Option (List Packet)
  | .next t => some t.net
  | .fault _ | .refused _ => none

theorem routeHeld_deliverable : Deliverable routeHeld heldRoute 1 heldLoad [] (.load [0]) := by decide +kernel

theorem routeHeld_stays : outNet (exec (.remoteLoad heldRoute) routeHeld) = some [heldLoad] := by decide +kernel

end Sys2Proof.Machine
end

section
open Sys2Proof Sys2Proof.Machine

/-- Refutes O52: the head of a route is not performed while the engine of its source holds the route. Nothing in what is
asked of a deliverable request excludes that. -/
theorem not_requestsArePerformed : ¬ Obligations.RequestsArePerformed := by
  unfold Obligations.RequestsArePerformed
  intro h
  obtain ⟨hload, -⟩ := h routeHeld heldRoute 1 heldLoad [] (.load [0]) routeHeld_deliverable
  obtain ⟨t, ht, hb, -⟩ := hload [0] rfl
  have hs := routeHeld_stays
  rw [ht] at hs
  have hn : t.net = [heldLoad] := Option.some.inj hs
  rw [hn] at hb
  have hr : heldLoad.route = (answerTo heldLoad (.loadReply ([0].map (rd8 (routeHeld.coreAt 1).mem)))).route :=
    congrArg Packet.route (List.cons.inj hb).1
  exact absurd hr (by decide)

end

section
/-! PROOFS. Events of contexts (O50): the quantum, promotion, the watchdog, release, services, saves and restores, each by what
it leaves where its condition holds. -/
namespace Sys2Proof.Machine

variable {s : State} {c : CtxNo}

/-! ### The quantum (R187) -/

theorem rotate_some (h : nextReady s.core = some c) : rotate s = s.modCore fun k => { k with cur := c } := by
  simp [rotate, h]

theorem rotate_none (h : nextReady s.core = none) : rotate s = s.modCore fun k => { k with cur := k.turn, issued := 0 } := by
  simp [rotate, h]

/-- At the end of a quantum the next ready context has its turn. -/
theorem exec_quantum (h : 256 ≤ s.core.issued) : exec .issueQuantumExpiry s = .next (rotate s) := by
  show Host.Outcome.next (if 256 ≤ s.core.issued then rotate s else s) = _
  rw [if_pos h]

theorem exec_implicitCommit (h : 512 ≤ (s.ctxAt c).sinceCommit) : exec (.implicitCommit c) s = .next (s.modCtxAt c commitCtx) := by
  show Host.Outcome.next (if 512 ≤ (s.ctxAt c).sinceCommit then s.modCtxAt c commitCtx else s) = _
  rw [if_pos h]

/-! ### Promotion (R13) -/

theorem exec_recordPromotion {n : Nat} {r : Record} (hi : s.core.inbox[n]? = some r) (hs : r.since + 2 ^ 20 ≤ s.cyc)
    (hb : r.band ≠ 3) (hh : bandHeld s.core r.band = false) :
    exec (.recordPromotion n) s = .next (s.modCore fun k =>
      { k with inbox := k.inbox.set n { r with band := r.band + 1, since := s.cyc, front := 0 } }).clockUpdate := by
  show Host.Outcome.next ((tryPromote n s).getD s) = _
  simp only [tryPromote, hi]
  rw [if_pos ⟨hs, hb, hh⟩]
  rfl

/-! ### The watchdog (R18) -/

/-- The watchdog's trap is due at the next instruction of a context. -/
def watchdogDue (s : State) (c : CtxNo) : State := s.modCtxAt c fun y => { y with trapDue := some (.watchdog, false, []) }

theorem watchdogDue_ctxAt : (watchdogDue s c).ctxAt c = { s.ctxAt c with trapDue := some (.watchdog, false, []) } :=
  State.ctxAt_modCtxAt s c _

theorem exec_watchdog {r : Record} (ht : (s.ctxAt c).task = some r) (hp : (s.ctxAt c).phase = .running)
    (hd : (s.ctxAt c).trapDue = none) (hw : 2 ^ wdExp s.core r ≤ wdCount s.cyc (s.ctxAt c)) :
    exec (.watchdogExpiry c) s = .next (strike (watchdogDue s c) c) := by
  show Host.Outcome.next ((tryWatchdog c s).getD s) = _
  simp only [tryWatchdog, ht]
  rw [if_pos ⟨hp, hd, hw⟩]
  rfl

/-- A context that neither stalls nor waits goes on to its next instruction. -/
theorem strike_waits (ha : (s.ctxAt c).asleep = false) (hs : (s.ctxAt c).stall = none) (hp : (s.ctxAt c).pending = none) :
    strike s c = s := by
  unfold strike
  dsimp only
  split
  · rfl
  · rw [if_neg]
    simp [ha, hs, hp]

/-- A context that stalls or waits for an answer takes its trap at once (R275). -/
theorem strike_aborts {cause : Cause} {k : Bool} {adds : List Nat} (hd : (s.ctxAt c).trapDue = some (cause, k, adds))
    (hp : (s.ctxAt c).phase = .running)
    (hw : (s.ctxAt c).asleep = true ∨ (s.ctxAt c).stall.isSome = true ∨ (s.ctxAt c).pending.isSome = true) :
    strike s c = (abortWith s c cause k adds).clockUpdate := by
  simp only [strike, hd]
  rw [if_pos ⟨hp, hw⟩]

/-! ### Release (R160) -/

/-- The context that is released. -/
def releasedCtx (n : Nat) (x : Ctx) : Ctx := { wdStop n x with phase := .free, task := none, stall := none, asleep := false }

/-- The state in which a context has been released: the launch task that ended goes to the core's list of ends. -/
def released (s : State) (c : CtxNo) : State :=
  ((s.modCtxAt c (releasedCtx s.cyc)).modCore fun k =>
    { k with ends := k.ends ++ ((s.ctxAt c).task.bind fun r => r.launch).toList }).clockUpdate

theorem exec_contextRelease (hp : (s.ctxAt c).phase = .ending) (hl : (s.ctxAt c).lvDue = false)
    (hk : (s.ctxAt c).chunks = []) : exec (.contextRelease c) s = .next (released s c) := by
  show Host.Outcome.next ((tryRelease c s).getD s) = _
  simp only [tryRelease, hp, hl, hoopQuiet, hk]
  rfl

theorem released_ctxAt_all (e : CtxNo) : (released s c).ctxAt e = (s.modCtxAt c (releasedCtx s.cyc)).ctxAt e :=
  (clockUpdate_ctxAt _ e).trans (ctxAt_modCore_of_ctxs rfl e)

theorem released_ctxAt : (released s c).ctxAt c = releasedCtx s.cyc (s.ctxAt c) := by
  rw [released_ctxAt_all, State.ctxAt_modCtxAt]

theorem released_ctxAt_ne {e : CtxNo} (h : e ≠ c) : (released s c).ctxAt e = s.ctxAt e := by
  rw [released_ctxAt_all, State.ctxAt_modCtxAt_ne s c e _ h]

theorem released_ends :
    (released s c).core.ends = s.core.ends ++ ((s.ctxAt c).task.bind fun r => r.launch).toList := by
  rw [released, clockUpdate_ends]
  rfl

/-! ### Services (R28, R168, R370) -/

/-- A context that runs again. -/
def awake (x : Ctx) : Ctx := { x with phase := .running, stall := none, asleep := false }

@[simp] theorem awake_phase (x : Ctx) : (awake x).phase = .running := rfl
@[simp] theorem awake_pc (x : Ctx) : (awake x).pc = x.pc := rfl
@[simp] theorem awake_v (x : Ctx) : (awake x).v = x.v := rfl
@[simp] theorem awake_replaying (x : Ctx) : (awake x).replaying = x.replaying := rfl
@[simp] theorem gval_awake (x : Ctx) (q : Reg) : gval (awake x) q = gval x q := rfl

/-- The state in which a context runs on after its service, its registers as f gives them. -/
def ranOn (s : State) (c : CtxNo) (f : Ctx → Ctx) : State :=
  (s.modCtxAt c fun y => wdStart s.cyc (f (awake y))).clockUpdate

theorem resumeFrom_trap (code : BitVec 13) (upd : List (BitVec 3 × Word)) :
    resumeFrom s c (.trap code) upd = ranOn s c fun y => nextPc (updG upd y) := rfl

theorem wdStart_eq (n : Nat) (x : Ctx) : wdStart n x = { x with wdFrom := (wdStart n x).wdFrom } := by
  unfold wdStart
  split <;> rfl

@[simp] theorem wdStart_phase (n : Nat) (x : Ctx) : (wdStart n x).phase = x.phase := by rw [wdStart_eq]
@[simp] theorem wdStart_pc (n : Nat) (x : Ctx) : (wdStart n x).pc = x.pc := by rw [wdStart_eq]
@[simp] theorem wdStart_g (n : Nat) (x : Ctx) : (wdStart n x).g = x.g := by rw [wdStart_eq]
@[simp] theorem wdStart_v (n : Nat) (x : Ctx) : (wdStart n x).v = x.v := by rw [wdStart_eq]
@[simp] theorem wdStart_latch (n : Nat) (x : Ctx) : (wdStart n x).latch = x.latch := by rw [wdStart_eq]
@[simp] theorem wdStart_frm (n : Nat) (x : Ctx) : (wdStart n x).frm = x.frm := by rw [wdStart_eq]

@[simp] theorem gval_wdStart (n : Nat) (x : Ctx) (q : Reg) : gval (wdStart n x) q = gval x q := by simp [gval]

theorem ranOn_ctxAt (f : Ctx → Ctx) : (ranOn s c f).ctxAt c = wdStart s.cyc (f (awake (s.ctxAt c))) := by
  rw [ranOn, clockUpdate_ctxAt, State.ctxAt_modCtxAt]

theorem ranOn_ctxAt_ne {e : CtxNo} (f : Ctx → Ctx) (h : e ≠ c) : (ranOn s c f).ctxAt e = s.ctxAt e := by
  rw [ranOn, clockUpdate_ctxAt, State.ctxAt_modCtxAt_ne s c e _ h]

/-! A page fault's service: what each context that it looks at keeps. -/

/-- A context after services of page faults: its place and registers are as they were, and it is as it was or runs. -/
structure RunsOn (x y : Ctx) : Prop where
  pc : y.pc = x.pc
  g : y.g = x.g
  v : y.v = x.v
  gen : y.gen = x.gen
  phase : y.phase = x.phase ∨ y.phase = .running

theorem RunsOn.refl (x : Ctx) : RunsOn x x := ⟨rfl, rfl, rfl, rfl, .inl rfl⟩

theorem RunsOn.trans {x y z : Ctx} (h : RunsOn x y) (h' : RunsOn y z) : RunsOn x z where
  pc := h'.pc.trans h.pc
  g := h'.g.trans h.g
  v := h'.v.trans h.v
  gen := h'.gen.trans h.gen
  phase := h'.phase.elim (fun e => e ▸ h.phase) .inr

/-- The contexts of the core in focus after such services; no other core is touched. -/
structure Serves (s t : State) : Prop where
  coreId : t.coreId = s.coreId
  others : t.others = s.others
  ctx : ∀ e, RunsOn (s.ctxAt e) (t.ctxAt e)

theorem Serves.refl (s : State) : Serves s s := ⟨rfl, rfl, fun _ => .refl _⟩

theorem Serves.trans {s t u : State} (h : Serves s t) (h' : Serves t u) : Serves s u :=
  ⟨h'.coreId.trans h.coreId, h'.others.trans h.others, fun e => (h.ctx e).trans (h'.ctx e)⟩

theorem ranOn_serves (s : State) (c : CtxNo) : Serves s (ranOn s c id) := by
  refine ⟨rfl, rfl, fun e => ?_⟩
  by_cases he : e = c
  · subst he
    rw [ranOn_ctxAt, wdStart_eq]
    exact ⟨rfl, rfl, rfl, rfl, .inr rfl⟩
  · rw [ranOn_ctxAt_ne _ he]
    exact .refl _

section
variable {page : Nat} {space : BitVec 16}

/-- One context looked at by the service of a page. -/
def resumeOne (page : Nat) (space : BitVec 16) (s : State) (c : CtxNo) : State :=
  if faultedOn page space (s.ctxAt c) then ranOn s c id else s

theorem resumePage_eq (s : State) : resumePage page space s = ([0, 1, 2, 3] : List CtxNo).foldl (resumeOne page space) s := rfl

theorem resumeOne_serves (s : State) (c : CtxNo) : Serves s (resumeOne page space s c) := by
  unfold resumeOne
  split
  · exact ranOn_serves s c
  · exact .refl s

theorem resumeAll_serves (l : List CtxNo) : ∀ s, Serves s (l.foldl (resumeOne page space) s) := by
  induction l with
  | nil => exact Serves.refl
  | cons c l ih => exact fun s => (resumeOne_serves s c).trans (ih _)

theorem resumePage_serves (s : State) : Serves s (resumePage page space s) := by
  rw [resumePage_eq]
  exact resumeAll_serves _ s

/-- A context that runs goes on running. -/
theorem RunsOn.running {x y : Ctx} (h : RunsOn x y) (hx : x.phase = .running) : y.phase = .running :=
  h.phase.elim (fun e => e.trans hx) id

/-- A context that has faulted on the page runs once it has been looked at. -/
theorem resumeAll_running (e : CtxNo) : ∀ (l : List CtxNo) (s : State), e ∈ l → faultedOn page space (s.ctxAt e) = true →
    ((l.foldl (resumeOne page space) s).ctxAt e).phase = .running := by
  intro l
  induction l with
  | nil => intro s h; cases h
  | cons c l ih =>
    intro s hm hf
    by_cases hc : e = c
    · subst hc
      refine ((resumeAll_serves l _).ctx e).running ?_
      rw [resumeOne, if_pos hf, ranOn_ctxAt, wdStart_phase]
      rfl
    · have hx : (resumeOne page space s c).ctxAt e = s.ctxAt e := by
        unfold resumeOne
        split
        · exact ranOn_ctxAt_ne _ hc
        · rfl
      exact ih _ (List.mem_of_ne_of_mem hc hm) (by rw [hx]; exact hf)

theorem resumePage_running {e : CtxNo} (hf : faultedOn page space (s.ctxAt e) = true) :
    ((resumePage page space s).ctxAt e).phase = .running := by
  have hm : ∀ e : CtxNo, e ∈ ([0, 1, 2, 3] : List CtxNo) := by decide
  rw [resumePage_eq]
  exact resumeAll_running e _ s (hm e) hf

end

end Sys2Proof.Machine
end

section
/-! PROOFS. Services on every core, saves and restores (O50). -/
namespace Sys2Proof.Machine

variable {s : State} {c : CtxNo}

/-! ### The service of a page on every core (R370) -/

/-- What is done with another core in focus, and touches no further core, leaves the core in focus as it was. -/
theorem onCore_core_ne {d : CoreId} {f : State → State} (hd : d ≠ s.coreId) (hi : (f (s.focus d)).coreId = d)
    (ho : (f (s.focus d)).others = (s.focus d).others) : (s.onCore d f).core = s.core := by
  have hne : s.coreId ≠ d := fun h => hd h.symm
  have hx : (f (s.focus d)).coreAt s.coreId = (s.focus d).coreAt s.coreId := by
    simp only [State.coreAt, hi, ho, focus_coreId, if_neg hne]
  rw [State.onCore, focus_core, hx, coreAt_focus, coreAt_self]

theorem onCore_coreId (d : CoreId) (f : State → State) : (s.onCore d f).coreId = s.coreId := focus_coreId _ _

/-- The contexts of the core in focus after services here and on other cores. -/
structure ServesHere (s t : State) : Prop where
  coreId : t.coreId = s.coreId
  ctx : ∀ e, RunsOn (s.ctxAt e) (t.ctxAt e)

theorem Serves.here {s t : State} (h : Serves s t) : ServesHere s t := ⟨h.coreId, h.ctx⟩

theorem ServesHere.trans {s t u : State} (h : ServesHere s t) (h' : ServesHere t u) : ServesHere s u :=
  ⟨h'.coreId.trans h.coreId, fun e => (h.ctx e).trans (h'.ctx e)⟩

theorem onCore_resumePage (page : Nat) (space : BitVec 16) (d : CoreId) : ServesHere s (s.onCore d (resumePage page space)) := by
  by_cases hd : d = s.coreId
  · subst hd
    have h := resumePage_serves (page := page) (space := space) s
    rw [State.onCore, focus_self, ← h.coreId, focus_self]
    exact h.here
  · have h := resumePage_serves (page := page) (space := space) (s.focus d)
    have hc := onCore_core_ne hd (h.coreId.trans (focus_coreId s d)) h.others
    refine ⟨onCore_coreId d _, fun e => ?_⟩
    have he : (s.onCore d (resumePage page space)).ctxAt e = s.ctxAt e := by simp only [State.ctxAt, hc]
    rw [he]
    exact .refl _

theorem onCores_resumePage (page : Nat) (space : BitVec 16) (l : List (Nat × Core)) : ∀ s : State,
    ServesHere s (l.foldl (fun t p => t.onCore (BitVec.ofNat 12 p.1) (resumePage page space)) s) := by
  induction l with
  | nil => exact fun s => (Serves.refl s).here
  | cons p l ih => exact fun s => (onCore_resumePage page space _).trans (ih _)

section
variable {va : Word}

/-- The service of a page fault: every context here keeps its place and registers. -/
theorem serviced_pageFault (upd : List (BitVec 3 × Word)) : ServesHere s (serviced s c (.pageFault va) upd) :=
  (resumePage_serves s).here.trans (onCores_resumePage _ _ _ _)

/-- And those that have faulted on that page run. -/
theorem serviced_pageFault_running {e : CtxNo} (upd : List (BitVec 3 × Word))
    (hf : faultedOn (va.toNat / 65536) ((s.ctxAt c).gen.extractLsb' 0 16) (s.ctxAt e) = true) :
    ((serviced s c (.pageFault va) upd).ctxAt e).phase = .running :=
  ((onCores_resumePage _ _ s.others _).ctx e).running (resumePage_running hf)

theorem faultedOn_self (hp : (s.ctxAt c).phase = .suspended (.pageFault va)) :
    faultedOn (va.toNat / 65536) ((s.ctxAt c).gen.extractLsb' 0 16) (s.ctxAt c) = true := by
  simp [faultedOn, hp]

end

theorem exec_supervisorResume {w : Suspend} (upd : List (BitVec 3 × Word)) (hp : (s.ctxAt c).phase = .suspended w) :
    exec (.supervisorResume c upd) s = .next (serviced s c w upd) := by
  show execSupervisorResume c upd s = _
  simp only [execSupervisorResume, hp]

/-- The register of a service's result (R168) is not g0. -/
theorem serviceReg_ne : ∀ i : BitVec 3, (10 + i.setWidth 5 : Reg) ≠ 0 := by decide

/-! ### Saves and restores (R219, R289) -/

/-- A context none of whose heads is bound holds no bank. -/
theorem releaseHolds_unbound (h : ∀ n, (headAt (s.ctxAt c) n).bnd = false) : releaseHolds s c = s := by
  simp [releaseHolds, h]

/-- Whether a bank has no line transfer of a context going on. -/
theorem portsOver (h : ∀ e ∈ s.core.banks, e.2.taken ≤ s.cyc ∨ ∀ n, e.2.lastBy ≠ some (.head c n)) :
    (s.core.banks.all fun e => decide (e.2.taken ≤ s.cyc) ||
      (match e.2.lastBy with | some (.head d _) => !(decide (d = c)) | _ => true)) = true := by
  rw [List.all_eq_true]
  intro e he
  rcases h e he with h | h
  · simp [h]
  · split
    · next d n hb =>
      have hd : d ≠ c := fun hd => h n (hd ▸ hb)
      simp [hd]
    · simp

/-- The context that a save records. -/
def savedCtx (w : Suspend) (x : Ctx) : Ctx := { commitCtx x with phase := .saved w }

/-- The state in which a context has been saved. -/
def savedState (w : Suspend) (s : State) (c : CtxNo) : State :=
  ((s.modCtxAt c (savedCtx w)).modCore fun k => setSave k c (some (savedCtx w (s.ctxAt c)))).report (.saved s.coreId c)

theorem savedState_ctxAt (w : Suspend) : (savedState w s c).ctxAt c = savedCtx w (s.ctxAt c) :=
  (ctxAt_modCore_of_ctxs (s := s.modCtxAt c (savedCtx w)) (f := fun k => setSave k c (some (savedCtx w (s.ctxAt c)))) rfl c).trans
    (State.ctxAt_modCtxAt s c _)

theorem setSave_saves (k : Core) (y : Option Ctx) : (setSave k c y).saves[c.toFin] = y := by
  simp [setSave]

theorem savedState_saves (w : Suspend) : (savedState w s c).core.saves[c.toFin] = some (savedCtx w (s.ctxAt c)) :=
  setSave_saves _ _

theorem exec_contextSave {w : Suspend} (hp : (s.ctxAt c).phase = .suspended w) (hh : (s.ctxAt c).hoop = [])
    (hk : (s.ctxAt c).chunks = []) (hn : (s.ctxAt c).pending = none) (hu : ∀ n, (headAt (s.ctxAt c) n).bnd = false)
    (hb : ∀ e ∈ s.core.banks, e.2.taken ≤ s.cyc ∨ ∀ n, e.2.lastBy ≠ some (.head c n)) :
    exec (.contextSave c) s = .next (savedState w s c) := by
  show Host.Outcome.next ((trySave c s).getD s) = _
  have hx : (s.modCtxAt c commitCtx).ctxAt c = { s.ctxAt c with sinceCommit := 0 } := by
    rw [State.ctxAt_modCtxAt, commitCtx_empty hh]
  have hr : releaseHolds (s.modCtxAt c commitCtx) c = s.modCtxAt c commitCtx := by
    refine releaseHolds_unbound fun n => ?_
    rw [hx]
    exact hu n
  simp only [trySave, hp, hx, hoopQuiet, hk, hn, hr, State.modCtxAt_modCtxAt, State.ctxAt_modCtxAt]
  split
  · rfl
  · next hno => exact absurd (Bool.and_eq_true_iff.mpr ⟨rfl, portsOver hb⟩) hno

/-- The context that a restore writes. -/
def restoredCtx (w : Suspend) (r x : Ctx) : Ctx :=
  { r with h := r.h.map restoredHead, sinceCommit := 0, phase := .suspended w, trapDue := x.trapDue }

theorem exec_contextRestore {va : Word} {r : Ctx} (hp : (s.ctxAt c).phase = .saved (.pageFault va))
    (hr : s.core.saves[c.toFin] = some r) :
    exec (.contextRestore c) s = .next (ranOn ((s.modCore fun k => setSave k c none).modCtxAt c
      (restoredCtx (.pageFault va) r)) c id) := by
  show Host.Outcome.next ((tryRestore c s).getD s) = _
  have hr' : s.core.saves[c.toNat]'(by have := c.isLt; omega) = some r := hr
  simp only [tryRestore, hp, hr']
  rfl

theorem headAt_map (x : Ctx) (h : BitVec 2) (f : Head → Head) : headAt { x with h := x.h.map f } h = f (headAt x h) := by
  simp [headAt]

end Sys2Proof.Machine
end

section
/-! PROOFS. Dispatch and the decisions on a band (O50): the task that a record starts, the record that a band's release
lets wait again. -/
namespace Sys2Proof.Machine

variable {s : State} {c : CtxNo} {r : Record} {g : Nat}

/-! ### Activation (R14, R15, R17) -/

/-- The context of a new task before its registers are written (R14, R17). -/
def taskCtx (s : State) (c : CtxNo) (r : Record) (g : Nat) (x : Ctx) : Ctx :=
  { Ctx.reset s.coreId c with
    d := #v[frameDesc s.coreId (frameAt s.core g) (8 * entryGranules r.entry), (startD s.core r).1[0], (startD s.core r).1[1],
      (startD s.core r).1[2]]
    held := (startD s.core r).2.setWidth 4 <<< 1
    pc := r.entry.d0
    gen := x.gen, stackbase := x.stackbase, stacklimit := x.stacklimit
    tagbase := x.tagbase, scale5 := x.scale5, scale6 := x.scale6
    actSeq := x.actSeq + 1, lfsr := x.lfsr, phase := .running, task := some r
    wdFrom := some s.cyc }

/-- Whether a record is a message's, with a payload in the inbox (R15). -/
def carriesPayload (r : Record) : Bool := !(r.cls == 3 || r.cls == 4)

/-- The registers of a new task (R15). -/
def taskRegs (r : Record) (stack : Word) (y : Ctx) : Ctx :=
  let y1 := setGC y 4 (taskInfo r) 63
  let y2 := setGC y1 10 (if carriesPayload r then BitVec.ofNat 64 (apLocal + r.payOff) else r.arg) 63
  let y3 := setGC y2 11 (if carriesPayload r then BitVec.ofNat 64 r.payLen else 0) 63
  let y4 := setGC y3 12 (r.src.setWidth 64) 63
  setGC y4 2 stack 63

/-- The core of a new task: its frame allocated, slots 0 and 1 of it written. -/
def taskCore (r : Record) (g : Nat) (off : Nat) (bs : List Byte) (k : Core) : Core :=
  freshWords .scratch [off / 8, off / 8 + 1]
    { k with frames := k.frames ++ [(g, entryGranules r.entry)], mem := wrBytes k.mem off bs }

section
variable (off : Nat) (bs : List Byte) (k : Core)

theorem taskCore_ctxs : (taskCore r g off bs k).ctxs = k.ctxs := by unfold taskCore freshWords; split <;> rfl
theorem taskCore_inbox : (taskCore r g off bs k).inbox = k.inbox := by unfold taskCore freshWords; split <;> rfl

theorem taskCore_frames : (taskCore r g off bs k).frames = k.frames ++ [(g, entryGranules r.entry)] := by
  unfold taskCore freshWords
  split <;> rfl

theorem taskCore_mem : (taskCore r g off bs k).mem = wrBytes k.mem off bs := by
  unfold taskCore freshWords
  split <;> rfl

end

/-- Activation in its parts. -/
theorem activate_eq (s0 : State) : activate s0 c r g =
    let s := noteAccess s0 (.scratch s0.coreId) (activateSeen s0 c g)
    (s.modCore (taskCore r g (frameAt s.core g) (leBytes 16 0))).modCtxAt c fun x => taskRegs r x.stackbase (taskCtx s c r g x) := by
  unfold activate taskRegs taskCtx taskCore carriesPayload
  rfl

section
variable (stack : Word) (y : Ctx)

@[simp] theorem taskRegs_phase : (taskRegs r stack y).phase = y.phase := by simp [taskRegs]
@[simp] theorem taskRegs_task : (taskRegs r stack y).task = y.task := by simp [taskRegs]
@[simp] theorem taskRegs_pc : (taskRegs r stack y).pc = y.pc := by simp [taskRegs]
@[simp] theorem taskRegs_d : (taskRegs r stack y).d = y.d := by simp [taskRegs]
@[simp] theorem taskRegs_held : (taskRegs r stack y).held = y.held := by simp [taskRegs]
@[simp] theorem taskRegs_actSeq : (taskRegs r stack y).actSeq = y.actSeq := by simp [taskRegs]

theorem gval_taskRegs_2 : gval (taskRegs r stack y) 2 = stack := gval_setGC _ 2 _ _ (by decide)

theorem gval_taskRegs_12 : gval (taskRegs r stack y) 12 = r.src.setWidth 64 := by
  unfold taskRegs
  rw [gval_setGC_ne _ _ _ _ _ (by decide), gval_setGC _ 12 _ _ (by decide)]

theorem gval_taskRegs_11 : gval (taskRegs r stack y) 11 = if carriesPayload r then BitVec.ofNat 64 r.payLen else 0 := by
  unfold taskRegs
  iterate 2 rw [gval_setGC_ne _ _ _ _ _ (by decide)]
  rw [gval_setGC _ 11 _ _ (by decide)]

theorem gval_taskRegs_10 :
    gval (taskRegs r stack y) 10 = if carriesPayload r then BitVec.ofNat 64 (apLocal + r.payOff) else r.arg := by
  unfold taskRegs
  iterate 3 rw [gval_setGC_ne _ _ _ _ _ (by decide)]
  rw [gval_setGC _ 10 _ _ (by decide)]

theorem gval_taskRegs_4 : gval (taskRegs r stack y) 4 = taskInfo r := by
  unfold taskRegs
  iterate 4 rw [gval_setGC_ne _ _ _ _ _ (by decide)]
  rw [gval_setGC _ 4 _ _ (by decide)]

theorem gval_taskRegs_other {q : Reg} (h : q ∉ ([2, 4, 10, 11, 12] : List Reg)) : gval (taskRegs r stack y) q = gval y q := by
  simp only [List.mem_cons, List.not_mem_nil, or_false, not_or] at h
  obtain ⟨h2, h4, h10, h11, h12⟩ := h
  unfold taskRegs
  rw [gval_setGC_ne _ _ _ _ _ h2, gval_setGC_ne _ _ _ _ _ h12, gval_setGC_ne _ _ _ _ _ h11, gval_setGC_ne _ _ _ _ _ h10,
    gval_setGC_ne _ _ _ _ _ h4]

/-- A register written with count 63, where every count is. -/
theorem gcount_setGC_full {x : Ctx} (h : ∀ q, gcount x q = 63) (d : Reg) (w : Word) : ∀ q, gcount (setGC x d w 63) q = 63 := by
  intro q
  by_cases hq : q = d
  · subst hq
    by_cases h0 : q = 0
    · rw [h0, gcount_zero]
    · exact gcount_setGC x q w 63 h0
  · rw [gcount_setGC_ne x d q w 63 hq, h q]

theorem gcount_taskRegs (h : ∀ q, gcount y q = 63) : ∀ q, gcount (taskRegs r stack y) q = 63 :=
  gcount_setGC_full (gcount_setGC_full (gcount_setGC_full (gcount_setGC_full (gcount_setGC_full h _ _) _ _) _ _) _ _) _ _

end

theorem taskCtx_d (x : Ctx) : (taskCtx s c r g x).d =
    #v[frameDesc s.coreId (frameAt s.core g) (8 * entryGranules r.entry), (startD s.core r).1[0], (startD s.core r).1[1],
      (startD s.core r).1[2]] := rfl

theorem taskCtx_held (x : Ctx) : (taskCtx s c r g x).held = (startD s.core r).2.setWidth 4 <<< 1 := rfl

theorem gval_taskCtx (x : Ctx) (q : Reg) : gval (taskCtx s c r g x) q = 0 := by
  simp [gval, taskCtx, Ctx.reset]

theorem gcount_taskCtx (x : Ctx) (q : Reg) : gcount (taskCtx s c r g x) q = 63 := by
  simp [gcount, taskCtx, Ctx.reset]

/-- The display registers of a new task: as kept, else as captured, else as the entry says (R17). -/
theorem startD_eq {k : Core} {p : Vector Word 3 × BitVec 3}
    (h : r.kept = some p ∨ r.kept = none ∧ ((∃ b, r.cap = some b ∧ p = (b.dsc, b.cntd)) ∨
      r.cap = none ∧ p = (if r.entry.d1.getLsbD 22 = true then k.lb else Vector.replicate 3 0, 0))) : startD k r = p := by
  rcases h with h | ⟨hk, ⟨b, hb, rfl⟩ | ⟨hc, rfl⟩⟩
  · simp only [startD, h]
  · simp only [startD, hk, hb]
  · simp only [startD, hk, hc]
    split <;> rfl

/-! ### Dispatch (R12) -/

/-- The package once a record has left the inbox for a context. -/
def dispatched (s : State) (c : CtxNo) (r : Record) (g : Nat) : State :=
  (activate (s.modCore fun k => { k with inbox := k.inbox.erase r }) c r g).clockUpdate

theorem exec_dispatch (hs : s.stopped = false) (hk : s.core.killed = false) (hf : freeCtx s.core = some c)
    (hn : nextRecord s.core = some (r, g)) (hr : replayHolds s (.scratch s.coreId) (activateSeen s c g) = false) :
    exec .taskDispatch s = .next (dispatched s c r g) := by
  show Host.Outcome.next ((tryDispatch s).getD s) = _
  simp only [tryDispatch, hs, hk, hf, hn, hr]
  rfl

/-- A core that waits for frame space dispatches nothing (R12). -/
theorem exec_dispatch_waits (h : s.core.frameWait = true) : exec .taskDispatch s = .next s := by
  have hn : nextRecord s.core = none := by simp [nextRecord, h]
  show Host.Outcome.next ((tryDispatch s).getD s) = _
  simp only [tryDispatch, hn]
  split
  · rfl
  · cases freeCtx s.core <;> rfl

/-- The state that the new task's context and core are made in. -/
def dispatchSeen (s : State) (c : CtxNo) (r : Record) (g : Nat) : State :=
  let t := s.modCore fun k => { k with inbox := k.inbox.erase r }
  noteAccess t (.scratch t.coreId) (activateSeen t c g)

theorem dispatchSeen_core : (dispatchSeen s c r g).core = { s.core with inbox := s.core.inbox.erase r } := noteAccess_core _ _ _
theorem dispatchSeen_coreId : (dispatchSeen s c r g).coreId = s.coreId := noteAccess_coreId _ _ _

theorem dispatchSeen_frameAt : frameAt (dispatchSeen s c r g).core g = frameAt s.core g := by
  simp only [frameAt, dispatchSeen_core]

theorem dispatchSeen_startD : startD (dispatchSeen s c r g).core r = startD s.core r := by
  rw [dispatchSeen_core]
  rfl

theorem dispatchSeen_ctxAt (e : CtxNo) : (dispatchSeen s c r g).ctxAt e = s.ctxAt e := by
  simp [State.ctxAt, dispatchSeen_core]

theorem dispatched_eq : dispatched s c r g = (((dispatchSeen s c r g).modCore
    (taskCore r g (frameAt (dispatchSeen s c r g).core g) (leBytes 16 0))).modCtxAt c fun x =>
      taskRegs r x.stackbase (taskCtx (dispatchSeen s c r g) c r g x)).clockUpdate := by
  rw [dispatched, activate_eq]
  rfl

theorem dispatched_core_ctxs (e : CtxNo) :
    ((dispatchSeen s c r g).modCore (taskCore r g (frameAt (dispatchSeen s c r g).core g) (leBytes 16 0))).ctxAt e = s.ctxAt e :=
  (ctxAt_modCore_of_ctxs (taskCore_ctxs _ _ _) e).trans (dispatchSeen_ctxAt e)

theorem dispatched_ctxAt : (dispatched s c r g).ctxAt c =
    taskRegs r (s.ctxAt c).stackbase (taskCtx (dispatchSeen s c r g) c r g (s.ctxAt c)) := by
  rw [dispatched_eq, clockUpdate_ctxAt, State.ctxAt_modCtxAt, dispatched_core_ctxs]

theorem dispatched_ctxAt_ne {e : CtxNo} (h : e ≠ c) : (dispatched s c r g).ctxAt e = s.ctxAt e := by
  rw [dispatched_eq, clockUpdate_ctxAt, State.ctxAt_modCtxAt_ne _ c e _ h, dispatched_core_ctxs]

theorem dispatched_inbox : (dispatched s c r g).core.inbox = s.core.inbox.erase r := by
  rw [dispatched_eq, clockUpdate_inbox, State.modCtxAt_core_inbox, State.modCore_core, taskCore_inbox, dispatchSeen_core]

theorem dispatched_frames : (dispatched s c r g).core.frames = s.core.frames ++ [(g, entryGranules r.entry)] := by
  rw [dispatched_eq, clockUpdate_frames, State.modCtxAt_core_frames, State.modCore_core, taskCore_frames, dispatchSeen_core]

theorem dispatched_mem : (dispatched s c r g).core.mem = wrBytes s.core.mem (frameAt s.core g) (leBytes 16 0) := by
  rw [dispatched_eq, clockUpdate_mem, State.modCtxAt_core_mem, State.modCore_core, taskCore_mem, dispatchSeen_frameAt,
    dispatchSeen_core]

theorem taskCtx_dispatchSeen_d {p : Vector Word 3 × BitVec 3} (x : Ctx) (h : startD s.core r = p) :
    (taskCtx (dispatchSeen s c r g) c r g x).d =
      #v[frameDesc s.coreId (frameAt s.core g) (8 * entryGranules r.entry), p.1[0], p.1[1], p.1[2]] := by
  rw [taskCtx_d, dispatchSeen_coreId, dispatchSeen_frameAt, dispatchSeen_startD, h]

theorem taskCtx_dispatchSeen_held {p : Vector Word 3 × BitVec 3} (x : Ctx) (h : startD s.core r = p) :
    (taskCtx (dispatchSeen s c r g) c r g x).held = p.2.setWidth 4 <<< 1 := by
  rw [taskCtx_held, dispatchSeen_startD, h]

/-! ### The release of a band (R31) -/

section
variable {b : BitVec 2} {k : Core}

/-- A record of a band given free stays in the inbox, but for the time it waits from. -/
theorem freeBand_mem (n : Nat) (h : r ∈ k.inbox) : ∃ q ∈ (freeBand k b n).inbox, q = { r with since := q.since } := by
  unfold freeBand
  split
  · refine ⟨_, List.mem_map_of_mem h, ?_⟩
    split <;> rfl
  · exact ⟨r, h, rfl⟩

theorem decideBand_free (n : Nat) (h : ∀ q ∈ k.inbox, q.band = b → q.trapped = none) : decideBand k b n = freeBand k b n := by
  unfold decideBand
  rw [if_neg]
  rw [List.any_eq_true]
  rintro ⟨q, hq, hb⟩
  simp only [Bool.and_eq_true, decide_eq_true_eq] at hb
  simp [h q hq hb.1] at hb

/-- The record as its release leaves it. -/
def releasedRecord (r : Record) : Record := { r with trapped := none, retried := true }

/-- The core with that record in the place of the one that a trap returned. -/
def releasedIn (r : Record) (k : Core) : Core := { k with inbox := k.inbox.map fun x => if x = r then releasedRecord r else x }

theorem releasedRecord_mem (h : r ∈ k.inbox) : releasedRecord r ∈ (releasedIn r k).inbox :=
  List.mem_map.mpr ⟨r, h, if_pos rfl⟩

theorem releasedIn_trapped (h : ∀ q ∈ k.inbox, q ≠ r → q.band = b → q.trapped = none) :
    ∀ q ∈ (releasedIn r k).inbox, q.band = b → q.trapped = none := by
  intro q hq hb
  obtain ⟨x, hx, hxq⟩ := List.mem_map.mp hq
  by_cases hxr : x = r
  · rw [← hxq, if_pos hxr]
    rfl
  · rw [if_neg hxr] at hxq
    subst hxq
    exact h x hx hxr hb

theorem exec_bandRelease {cause : Cause} (hh : trappedHead s.core b = some r) (ht : r.trapped = some (cause, false))
    (hr : r.retried = false) (ho : ∀ q ∈ s.core.inbox, q ≠ r → q.band = b → q.trapped = none) :
    exec (.bandRelease b) s = .next (s.modCore fun k => freeBand (releasedIn r k) b s.cyc).clockUpdate := by
  show Host.Outcome.next ((tryBandRelease b s).getD s) = _
  have hd : decideBand (releasedIn r s.core) b s.cyc = freeBand (releasedIn r s.core) b s.cyc :=
    decideBand_free _ (releasedIn_trapped ho)
  have hm : (s.modCore fun k => decideBand (releasedIn r k) b s.cyc) = s.modCore fun k => freeBand (releasedIn r k) b s.cyc := by
    simp only [State.modCore, hd]
  rw [← hm]
  simp only [tryBandRelease, hh, ht, hr]
  rfl

end

end Sys2Proof.Machine
end

section
/-! PROOFS. The effect of each event of a context or band (O50), from the state it leaves. -/
namespace Sys2Proof.Machine

variable {s : State} {c : CtxNo} {r : Record}

/-- The registers of a new task, those that R15 names and the rest. -/
theorem dispatched_gval_other {g : Nat} {q : Reg} (h : q ∉ ([2, 4, 10, 11, 12] : List Reg)) :
    gval ((dispatched s c r g).ctxAt c) q = 0 := by
  rw [dispatched_ctxAt, gval_taskRegs_other _ _ h, gval_taskCtx]

theorem dispatched_gcount {g : Nat} (q : Reg) : gcount ((dispatched s c r g).ctxAt c) q = 63 := by
  rw [dispatched_ctxAt]
  exact gcount_taskRegs _ _ (gcount_taskCtx _) q

/-- The display registers of a new task and their held bits (R17). -/
theorem dispatched_display {g : Nat} {p : Vector Word 3 × BitVec 3} (h : startD s.core r = p) :
    let x := (dispatched s c r g).ctxAt c
    x.d = #v[frameDesc s.coreId (frameAt s.core g) (8 * entryGranules r.entry), p.1[0], p.1[1], p.1[2]] ∧
      x.held = p.2.setWidth 4 <<< 1 := by
  dsimp only
  rw [dispatched_ctxAt, taskRegs_d, taskRegs_held]
  exact ⟨taskCtx_dispatchSeen_d _ h, taskCtx_dispatchSeen_held _ h⟩

/-- The watchdog's trap waits for the next instruction of a context that goes on (R18). -/
theorem watchdog_waits (ht : (s.ctxAt c).task = some r) (hp : (s.ctxAt c).phase = .running)
    (hd : (s.ctxAt c).trapDue = none) (hw : 2 ^ wdExp s.core r ≤ wdCount s.cyc (s.ctxAt c))
    (ha : (s.ctxAt c).asleep = false) (hs : (s.ctxAt c).stall = none) (hq : (s.ctxAt c).pending = none) :
    exec (.watchdogExpiry c) s = .next (watchdogDue s c) := by
  rw [exec_watchdog ht hp hd hw, strike_waits] <;> rw [watchdogDue_ctxAt] <;> assumption

/-- The watchdog in a context that stalls or waits ends its task at once (R18). -/
theorem watchdog_ends (ht : (s.ctxAt c).task = some r) (hp : (s.ctxAt c).phase = .running)
    (hd : (s.ctxAt c).trapDue = none) (hw : 2 ^ wdExp s.core r ≤ wdCount s.cyc (s.ctxAt c))
    (hs : (s.ctxAt c).asleep = true ∨ (s.ctxAt c).stall.isSome = true ∨ (s.ctxAt c).pending.isSome = true) :
    Completes (.watchdogExpiry c) s fun t => (t.ctxAt c).phase = .ending ∧
      t.records = s.records ++
        [.fault s.coreId c .watchdog (s.ctxAt c).pc r.msgid (s.ctxAt c).committed false [] none] := by
  refine ⟨(abortWith (watchdogDue s c) c .watchdog false []).clockUpdate, ?_, ?_, ?_⟩
  · rw [exec_watchdog ht hp hd hw]
    refine congrArg _ (strike_aborts ?_ ?_ ?_) <;> rw [watchdogDue_ctxAt]
    · exact hp
    · exact hs
  · rw [clockUpdate_ctxAt]
    exact abortAs_phase
  · rw [clockUpdate_records, abortWith_records, watchdogDue_ctxAt]
    simp only [ht]
    rfl

theorem contextRelease_frees (hp : (s.ctxAt c).phase = .ending) (hl : (s.ctxAt c).lvDue = false)
    (hk : (s.ctxAt c).chunks = []) :
    Completes (.contextRelease c) s fun t => (t.ctxAt c).phase = .free ∧ (t.ctxAt c).task = none ∧
      t.core.ends = s.core.ends ++ ((s.ctxAt c).task.bind fun r => r.launch).toList ∧
      ∀ e, e ≠ c → t.ctxAt e = s.ctxAt e := by
  refine ⟨_, exec_contextRelease hp hl hk, ?_, ?_, released_ends, fun e => released_ctxAt_ne⟩ <;> rw [released_ctxAt]
  · rfl
  · rfl

/-- The service of a TRAP goes on behind it, with one register changed (R168). -/
theorem supervisorResume_trap {code : BitVec 13} (i : BitVec 3) (v : Word) (hp : (s.ctxAt c).phase = .suspended (.trap code))
    (hr : (s.ctxAt c).replaying = false) :
    Completes (.supervisorResume c [(i, v)]) s fun t => let y := t.ctxAt c
      y.phase = .running ∧ y.pc = (s.ctxAt c).pc + 4 ∧ gval y (10 + i.setWidth 5) = v ∧
      (∀ q : Reg, q ≠ 10 + i.setWidth 5 → gval y q = gval (s.ctxAt c) q) ∧ y.v = (s.ctxAt c).v := by
  have hy : (serviced s c (.trap code) [(i, v)]).ctxAt c =
      wdStart s.cyc (nextPc (setGC (awake (s.ctxAt c)) (10 + i.setWidth 5) v 63)) := by
    rw [serviced, resumeFrom_trap, ranOn_ctxAt]
    rfl
  refine ⟨_, exec_supervisorResume _ hp, ?_, ?_, ?_, fun q hq => ?_, ?_⟩ <;> rw [hy]
  · simp
  · rw [wdStart_pc, nextPc_pc _ (by simp [hr]), setGC_pc, awake_pc]
  · rw [gval_wdStart, gval_nextPc, gval_setGC _ _ _ _ (serviceReg_ne i)]
  · rw [gval_wdStart, gval_nextPc, gval_setGC_ne _ _ _ _ _ hq, gval_awake]
  · simp

/-- The service of a page fault resumes every context that faulted on the page, where it stood (R370). -/
theorem supervisorResume_pageFault {va : Word} (hp : (s.ctxAt c).phase = .suspended (.pageFault va)) :
    Completes (.supervisorResume c []) s fun t => let y := t.ctxAt c
      y.phase = .running ∧ y.pc = (s.ctxAt c).pc ∧ y.g = (s.ctxAt c).g ∧ y.v = (s.ctxAt c).v ∧
      ∀ e : CtxNo, faultedOn (va.toNat / 65536) ((s.ctxAt c).gen.extractLsb' 0 16) (s.ctxAt e) = true →
        (t.ctxAt e).phase = .running ∧ (t.ctxAt e).pc = (s.ctxAt e).pc := by
  have h := serviced_pageFault (s := s) (c := c) (va := va) []
  exact ⟨_, exec_supervisorResume _ hp, serviced_pageFault_running [] (faultedOn_self hp), (h.ctx c).pc, (h.ctx c).g, (h.ctx c).v,
    fun e he => ⟨serviced_pageFault_running [] he, (h.ctx e).pc⟩⟩

/-- A save records the context as it stands, and tells the supervisors (R289). -/
theorem contextSave_records {w : Suspend} (hp : (s.ctxAt c).phase = .suspended w) (hh : (s.ctxAt c).hoop = [])
    (hk : (s.ctxAt c).chunks = []) (hn : (s.ctxAt c).pending = none) (hu : ∀ n, (headAt (s.ctxAt c) n).bnd = false)
    (hb : ∀ e ∈ s.core.banks, e.2.taken ≤ s.cyc ∨ ∀ n, e.2.lastBy ≠ some (.head c n)) :
    Completes (.contextSave c) s fun t => let y := t.ctxAt c
      y.phase = .saved w ∧ y.pc = (s.ctxAt c).pc ∧ y.g = (s.ctxAt c).g ∧ y.v = (s.ctxAt c).v ∧
      t.core.saves[c.toFin] = some y ∧ t.records = s.records ++ [.saved s.coreId c] := by
  have hs : savedCtx w (s.ctxAt c) = { s.ctxAt c with sinceCommit := 0, phase := .saved w } := by
    rw [savedCtx, commitCtx_empty hh]
  refine ⟨_, exec_contextSave hp hh hk hn hu hb, ?_⟩
  simp only [savedState_ctxAt]
  refine ⟨rfl, ?_, ?_, ?_, savedState_saves w, rfl⟩ <;> rw [hs]

/-- A restore writes what the save recorded, and the context goes on where it faulted (R289, R219). -/
theorem contextRestore_resumes {va : Word} {y : Ctx} (hp : (s.ctxAt c).phase = .saved (.pageFault va))
    (hr : s.core.saves[c.toFin] = some y) :
    Completes (.contextRestore c) s fun t => let x := t.ctxAt c
      x.phase = .running ∧ x.pc = y.pc ∧ x.g = y.g ∧ x.v = y.v ∧ x.latch = y.latch ∧ x.frm = y.frm ∧
      t.core.saves[c.toFin] = none ∧ ∀ h, headAt x h = restoredHead (headAt y h) := by
  refine ⟨_, exec_contextRestore hp hr, ?_⟩
  dsimp only
  rw [ranOn_ctxAt, State.ctxAt_modCtxAt]
  simp only [wdStart_phase, wdStart_pc, wdStart_g, wdStart_v, wdStart_latch, wdStart_frm]
  refine ⟨rfl, rfl, rfl, rfl, rfl, rfl, ?_, fun h => ?_⟩
  · rw [ranOn, clockUpdate_saves]
    exact setSave_saves _ _
  · rw [wdStart_eq]
    exact headAt_map y h restoredHead

/-- The release of a band lets its record wait again, its mark gone (R31). -/
theorem bandRelease_frees {b : BitVec 2} {cause : Cause} (hh : trappedHead s.core b = some r)
    (ht : r.trapped = some (cause, false)) (hr : r.retried = false)
    (ho : ∀ q ∈ s.core.inbox, q ≠ r → q.band = b → q.trapped = none) :
    Completes (.bandRelease b) s fun t => bandHeld t.core b = false ∧ t.records = s.records ∧
      ∃ q ∈ t.core.inbox, q.msgid = r.msgid ∧ q.trapped = none ∧ q.retried = true ∧ q.kept = r.kept := by
  obtain ⟨q, hq, hqr⟩ := freeBand_mem (b := b) s.cyc (releasedRecord_mem (k := s.core) (trappedHead_mem hh).1)
  refine ⟨_, exec_bandRelease hh ht hr ho, ?_, rfl, q, ?_, ?_⟩
  · rw [bandHeld, clockUpdate_heldBands]
    exact bandHeld_freeBand _
  · rw [clockUpdate_inbox]
    exact hq
  · rw [hqr]
    exact ⟨rfl, rfl, rfl, rfl⟩

/-- The discard of a record that keeps no references takes it out of the inbox and reports it (R31, R351). -/
theorem recordDiscard_reports {b : BitVec 2} {cause : Cause} {com : Bool} (hh : trappedHead s.core b = some r)
    (ht : r.trapped = some (cause, com)) (hc : com = true ∨ r.retried = true) (hk : r.kept = none) (hl : r.launch = none) :
    Completes (.recordDiscard b) s fun t => t.core.inbox.length + 1 = s.core.inbox.length ∧
      t.records = s.records ++ [.discarded s.coreId (some cause) r.msgid com] := by
  have hw : keptRefs r = [] := by simp [keptRefs, hk]
  refine ⟨discarded s b r cause com, ?_, ?_, ?_⟩
  · rw [exec_recordDiscard, tryDiscard_discards hh ht hc (by simp [hw, counterWalks]) hl]
    rfl
  · simp only [discarded, clockUpdate_inbox, releaseAllKept, hw, List.foldl_nil]
    exact (congrArg (· + 1) (decideBand_inbox_length _)).trans (List.length_erase_add_one (trappedHead_mem hh).1)
  · simp only [discarded, clockUpdate_records, releaseAllKept, hw, List.foldl_nil]
    rfl

end Sys2Proof.Machine
end

section
open Sys2Proof Sys2Proof.Machine

/-- Settles O50: each event by the state that it leaves where its condition holds. -/
theorem contextEvents : Obligations.ContextEvents := by
  unfold Obligations.ContextEvents
  intro s
  refine ⟨fun c => exec_implicitCommit, fun c hi hn => ?_, fun hi hn => ?_, fun c r g hs hk hf hn hr => ?_, exec_dispatch_waits,
    fun n r => exec_recordPromotion, fun c r ht hp hd hw => ⟨watchdog_waits ht hp hd hw, watchdog_ends ht hp hd hw⟩,
    fun c => contextRelease_frees, fun c code i v => supervisorResume_trap i v, fun c va => supervisorResume_pageFault,
    fun c w hp hh hk hn hu => contextSave_records hp hh hk hn fun n => (hu n).1, fun c va y => contextRestore_resumes,
    fun b r cause => bandRelease_frees, fun b r cause com => recordDiscard_reports⟩
  · rw [exec_quantum hi, rotate_some hn]
  · rw [exec_quantum hi, rotate_none hn]
  · refine ⟨dispatched s c r g, exec_dispatch hs hk hf hn hr, ?_, ?_, ?_, dispatched_inbox, dispatched_frames,
      fun p hp => dispatched_display (startD_eq hp), dispatched_mem, ?_, ?_, ?_, ?_, ?_, ?_, fun q => dispatched_gval_other,
      dispatched_gcount, fun e => dispatched_ctxAt_ne⟩ <;> rw [dispatched_ctxAt]
    · rw [taskRegs_phase]; rfl
    · rw [taskRegs_task]; rfl
    · rw [taskRegs_pc]; rfl
    · rw [taskRegs_actSeq]; rfl
    · exact gval_taskRegs_2 _ _
    · exact gval_taskRegs_4 _ _
    · exact gval_taskRegs_10 _ _
    · exact gval_taskRegs_11 _ _
    · exact gval_taskRegs_12 _ _

end

section
/-! PROOFS. The decoder and the encoder undo each other (O5, O6): a word is the encoding of some operands exactly if its
fields are these operands, format by format; each decoder then reads back what the encoder wrote, and what it reads
has the word. -/

set_option Elab.async false
namespace Sys2Proof

/-! ### Codes of fields (R40-R55) -/

@[simp] theorem Rnd.ofCode_eq_some {x : BitVec 3} {y : Rnd} : Rnd.ofCode x = some y ↔ x = y.code := by
  constructor
  · unfold Rnd.ofCode
    split <;> rintro ⟨⟩ <;> exact BitVec.eq_of_toNat_eq ‹_›
  · rintro rfl
    cases y <;> rfl

@[simp] theorem Prec.ofCode_eq_some {x : BitVec 1} {y : Prec} : Prec.ofCode x = some y ↔ x = y.code := by
  constructor
  · unfold Prec.ofCode
    split <;> rintro ⟨⟩ <;> exact BitVec.eq_of_toNat_eq ‹_›
  · rintro rfl
    cases y <;> rfl

@[simp] theorem FTy.ofCode_eq_some {x : BitVec 3} {y : FTy} : FTy.ofCode x = some y ↔ x = y.code := by
  constructor
  · unfold FTy.ofCode
    split <;> rintro ⟨⟩ <;> exact BitVec.eq_of_toNat_eq ‹_›
  · rintro rfl
    cases y <;> rfl

@[simp] theorem Wd.ofCode_eq_some {x : BitVec 3} {y : Wd} : Wd.ofCode x = some y ↔ x = y.code := by
  constructor
  · unfold Wd.ofCode
    split <;> rintro ⟨⟩ <;> exact BitVec.eq_of_toNat_eq ‹_›
  · rintro rfl
    cases y <;> rfl

@[simp] theorem Scope.ofCode_eq_some {x : BitVec 3} {y : Scope} : Scope.ofCode x = some y ↔ x = y.code := by
  constructor
  · unfold Scope.ofCode
    split <;> rintro ⟨⟩ <;> exact BitVec.eq_of_toNat_eq ‹_›
  · rintro rfl
    cases y <;> rfl

@[simp] theorem MemOrd.ofCode_eq_some {x : BitVec 2} {y : MemOrd} : MemOrd.ofCode x = some y ↔ x = y.code := by
  constructor
  · unfold MemOrd.ofCode
    split <;> rintro ⟨⟩ <;> exact BitVec.eq_of_toNat_eq ‹_›
  · rintro rfl
    cases y <;> rfl

@[simp] theorem Size.ofCode_eq_some {x : BitVec 2} {y : Size} : Size.ofCode x = some y ↔ x = y.code := by
  constructor
  · unfold Size.ofCode
    split <;> rintro ⟨⟩ <;> exact BitVec.eq_of_toNat_eq ‹_›
  · rintro rfl
    cases y <;> rfl

@[simp] theorem BarScope.ofCode_eq_some {x : BitVec 3} {y : BarScope} : BarScope.ofCode x = some y ↔ x = y.code := by
  constructor
  · unfold BarScope.ofCode
    split <;> rintro ⟨⟩ <;> exact BitVec.eq_of_toNat_eq ‹_›
  · rintro rfl
    cases y <;> rfl

@[simp] theorem Fmt.ofCode_eq_some {x : BitVec 5} {y : Fmt} : Fmt.ofCode x = some y ↔ x = y.code := by
  constructor
  · unfold Fmt.ofCode
    split <;> rintro ⟨⟩ <;> exact BitVec.eq_of_toNat_eq ‹_›
  · rintro rfl
    cases y <;> rfl

@[simp] theorem SysReg.ofCode_eq_some {x : BitVec 13} {y : SysReg} : SysReg.ofCode x = some y ↔ x = y.code := by
  constructor
  · unfold SysReg.ofCode
    split <;> rintro ⟨⟩ <;> exact BitVec.eq_of_toNat_eq ‹_›
  · rintro rfl
    cases y <;> rfl

theorem Wd.ofSz_eq_some {x : BitVec 2} {z : Wd} : Wd.ofSz x = some z ↔ x = z.sz := by
  rw [Wd.ofSz, Wd.ofCode_eq_some]
  revert x
  cases z <;> decide

theorem boundOf_eq_some {e : BitVec 1} {b : BitVec 3} {n : Option (BitVec 3)} :
    boundOf (e == 1) b = some n ↔ e = beOf n ∧ b = bndOf n := by
  obtain rfl | rfl : e = 0 ∨ e = 1 := by revert e; decide
  all_goals cases n <;> simp [boundOf, beOf, bndOf]

section
variable {w : IWord}

/-! ### Fields of a word -/

theorem fld_all : fld w 0 32 = w := by
  unfold fld
  exact BitVec.extractLsb'_eq_self

theorem fld_append {hi m lo n : Nat} (h : hi = lo + n) : fld w hi m ++ fld w lo n = fld w lo (m + n) := by
  subst h
  unfold fld
  rw [BitVec.extractLsb'_append_extractLsb'_eq_extractLsb']
  rfl

theorem append_eq_append_iff {m n : Nat} {a c : BitVec m} {b d : BitVec n} : a ++ b = c ++ d ↔ a = c ∧ b = d := by
  constructor
  · intro h
    have hhi := congrArg (BitVec.extractLsb' n m) h
    have hlo := congrArg (BitVec.extractLsb' 0 n) h
    rw [BitVec.extractLsb'_append_eq_left, BitVec.extractLsb'_append_eq_left] at hhi
    rw [BitVec.extractLsb'_append_eq_right, BitVec.extractLsb'_append_eq_right] at hlo
    exact ⟨hhi, hlo⟩
  · rintro ⟨rfl, rfl⟩
    rfl

theorem fld_eq_append_iff {lo hi m n : Nat} {a : BitVec m} {b : BitVec n} (h : hi = lo + n) :
    fld w lo (m + n) = a ++ b ↔ fld w hi m = a ∧ fld w lo n = b := by
  rw [← fld_append h, append_eq_append_iff]

/-- A field is 0 exactly if both of its parts are. -/
theorem fld_eq_zero_iff {lo hi m n k : Nat} (hhi : hi = lo + n) (hk : k = m + n) :
    fld w lo k = 0 ↔ fld w hi m = 0 ∧ fld w lo n = 0 := by
  subst hk
  rw [← fld_eq_append_iff hhi]
  exact iff_of_eq (congrArg _ BitVec.zero_append_zero.symm)

theorem fld_eq_of_toNat {lo n k : Nat} (h : (fld w lo n).toNat = k) : fld w lo n = BitVec.ofNat n k := by
  rw [← h, BitVec.ofNat_toNat, BitVec.setWidth_eq]

/-! Fields that the decoder reads as one and the encoder writes as several. -/

theorem fld_0_4 : fld w 0 4 = 0#4 ↔ fld w 3 1 = 0#1 ∧ fld w 0 3 = 0#3 := fld_eq_zero_iff rfl rfl
theorem fld_0_11 : fld w 0 11 = 0#11 ↔ fld w 10 1 = 0#1 ∧ fld w 0 10 = 0#10 := fld_eq_zero_iff rfl rfl
theorem fld_0_14 : fld w 0 14 = 0#14 ↔ fld w 11 3 = 0#3 ∧ fld w 0 11 = 0#11 := fld_eq_zero_iff rfl rfl
theorem fld_0_16 : fld w 0 16 = 0#16 ↔ fld w 11 5 = 0#5 ∧ fld w 0 11 = 0#11 := fld_eq_zero_iff rfl rfl
theorem fld_4_9 : fld w 4 9 = 0#9 ↔ fld w 10 3 = 0#3 ∧ fld w 4 6 = 0#6 := fld_eq_zero_iff rfl rfl
theorem fld_0_13 : fld w 0 13 = 0#13 ↔ fld w 4 9 = 0#9 ∧ fld w 0 4 = 0#4 := fld_eq_zero_iff rfl rfl
theorem fld_6_10 : fld w 6 10 = 0#10 ↔ fld w 11 5 = 0#5 ∧ fld w 6 5 = 0#5 := fld_eq_zero_iff rfl rfl
theorem fld_16_10 : fld w 16 10 = 0#10 ↔ fld w 21 5 = 0#5 ∧ fld w 16 5 = 0#5 := fld_eq_zero_iff rfl rfl
theorem fld_6_20 : fld w 6 20 = 0#20 ↔ fld w 16 10 = 0#10 ∧ fld w 6 10 = 0#10 := fld_eq_zero_iff rfl rfl
theorem fld_7_3 : fld w 7 3 = 0#3 ↔ fld w 8 2 = 0#2 ∧ fld w 7 1 = 0#1 := fld_eq_zero_iff rfl rfl
theorem fld_10_6 : fld w 10 6 = 0#6 ↔ fld w 11 5 = 0#5 ∧ fld w 10 1 = 0#1 := fld_eq_zero_iff rfl rfl
theorem fld_0_3 : fld w 0 3 = 0#3 ↔ fld w 1 2 = 0#2 ∧ fld w 0 1 = 0#1 := fld_eq_zero_iff rfl rfl
theorem fld_0_3_one : fld w 0 3 = 1#3 ↔ fld w 1 2 = 0#2 ∧ fld w 0 1 = 1#1 :=
  fld_eq_append_iff (m := 2) (n := 1) (a := 0) (b := 1) rfl

/-! One bit of a word. -/

theorem bit_eq {i : Nat} {b : Bool} (h : fld w i 1 = b1 b) : bit w i = b := by
  unfold bit
  rw [h]
  cases b <;> rfl

@[simp] theorem b1_bit {n : Nat} : b1 (bit w n) = fld w n 1 := by
  unfold bit
  generalize fld w n 1 = x
  revert x
  decide

@[simp] theorem ne_one_iff {x : BitVec 1} : ¬x = 1#1 ↔ x = 0#1 := by
  revert x
  decide

@[simp] theorem bit_eq_true {n : Nat} : bit w n = true ↔ fld w n 1 = 1#1 := by simp [bit]

@[simp] theorem bit_eq_false {n : Nat} : bit w n = false ↔ fld w n 1 = 0#1 := by
  rw [← Bool.not_eq_true, bit_eq_true, ne_one_iff]

@[simp] theorem boundOf_bit_eq_some {n : Nat} {b : BitVec 3} {o : Option (BitVec 3)} :
    boundOf (bit w n) b = some o ↔ fld w n 1 = beOf o ∧ b = bndOf o := boundOf_eq_some

/-! ### Words by their fields, format by format (R34-R55) -/

theorem encRR_eq_iff {op : BitVec 6} {d a b : BitVec 5} {fn : BitVec 11} :
    encRR op d a b fn = w ↔
      fld w 26 6 = op ∧ fld w 21 5 = d ∧ fld w 16 5 = a ∧ fld w 11 5 = b ∧ fld w 0 11 = fn := by
  constructor
  · rintro rfl
    simp
  · rintro ⟨rfl, rfl, rfl, rfl, rfl⟩
    simp (disch := rfl) only [encRR, fld_append]
    exact fld_all

theorem encRI_eq_iff {op : BitVec 6} {d a : BitVec 5} {imm : BitVec 16} :
    encRI op d a imm = w ↔
      fld w 26 6 = op ∧ fld w 21 5 = d ∧ fld w 16 5 = a ∧ fld w 0 16 = imm := by
  constructor
  · rintro rfl
    simp
  · rintro ⟨rfl, rfl, rfl, rfl⟩
    simp (disch := rfl) only [encRI, fld_append]
    exact fld_all

theorem encJL_eq_iff {op : BitVec 6} {x : BitVec 26} :
    encJL op x = w ↔
      fld w 26 6 = op ∧ fld w 0 26 = x := by
  constructor
  · rintro rfl
    simp
  · rintro ⟨rfl, rfl⟩
    simp (disch := rfl) only [encJL, fld_append]
    exact fld_all

theorem encBS_eq_iff {op : BitVec 6} {a : BitVec 5} {t : BitVec 6} {x : BitVec 15} :
    encBS op a t x = w ↔
      fld w 26 6 = op ∧ fld w 21 5 = a ∧ fld w 15 6 = t ∧ fld w 0 15 = x := by
  constructor
  · rintro rfl
    simp
  · rintro ⟨rfl, rfl, rfl, rfl⟩
    simp (disch := rfl) only [encBS, fld_append]
    exact fld_all

theorem encBM_eq_iff {op : BitVec 6} {v : BitVec 5} {c : BitVec 3} {x : BitVec 18} :
    encBM op v c x = w ↔
      fld w 26 6 = op ∧ fld w 21 5 = v ∧ fld w 18 3 = c ∧ fld w 0 18 = x := by
  constructor
  · rintro rfl
    simp
  · rintro ⟨rfl, rfl, rfl, rfl⟩
    simp (disch := rfl) only [encBM, fld_append]
    exact fld_all

theorem encShi_eq_iff {op : BitVec 6} {d a : BitVec 5} {z : BitVec 8} {k : BitVec 2} {n : BitVec 6} :
    encShi op d a z k n = w ↔
      fld w 26 6 = op ∧ fld w 21 5 = d ∧ fld w 16 5 = a ∧ fld w 8 8 = z ∧ fld w 6 2 = k ∧ fld w 0 6 = n := by
  constructor
  · rintro rfl
    simp
  · rintro ⟨rfl, rfl, rfl, rfl, rfl, rfl⟩
    simp (disch := rfl) only [encShi, fld_append]
    exact fld_all

theorem encLi_eq_iff {op : BitVec 6} {d : BitVec 5} {k : BitVec 1} {z q : BitVec 2} {imm : BitVec 16} :
    encLi op d k z q imm = w ↔
      fld w 26 6 = op ∧ fld w 21 5 = d ∧ fld w 20 1 = k ∧ fld w 18 2 = z ∧ fld w 16 2 = q ∧ fld w 0 16 = imm := by
  constructor
  · rintro rfl
    simp
  · rintro ⟨rfl, rfl, rfl, rfl, rfl, rfl⟩
    simp (disch := rfl) only [encLi, fld_append]
    exact fld_all

theorem encFP_eq_iff {op : BitVec 6} {d a b fn : BitVec 5} {p : BitVec 1} {r : BitVec 3} {z : BitVec 2} :
    encFP op d a b fn p r z = w ↔
      fld w 26 6 = op ∧ fld w 21 5 = d ∧ fld w 16 5 = a ∧ fld w 11 5 = b ∧ fld w 6 5 = fn ∧ fld w 5 1 = p ∧
        fld w 2 3 = r ∧ fld w 0 2 = z := by
  constructor
  · rintro rfl
    simp
  · rintro ⟨rfl, rfl, rfl, rfl, rfl, rfl, rfl, rfl⟩
    simp (disch := rfl) only [encFP, fld_append]
    exact fld_all

theorem encFM_eq_iff {op : BitVec 6} {d : BitVec 5} {n : BitVec 2} {fn : BitVec 3} {z : BitVec 5} {s : BitVec 11} :
    encFM op d n fn z s = w ↔
      fld w 26 6 = op ∧ fld w 21 5 = d ∧ fld w 19 2 = n ∧ fld w 16 3 = fn ∧ fld w 11 5 = z ∧ fld w 0 11 = s := by
  constructor
  · rintro rfl
    simp
  · rintro ⟨rfl, rfl, rfl, rfl, rfl, rfl⟩
    simp (disch := rfl) only [encFM, fld_append]
    exact fld_all

theorem encFP4_eq_iff {op : BitVec 6} {d a b c : BitVec 5} {neg : BitVec 2} {p : BitVec 1} {r : BitVec 3} :
    encFP4 op d a b c neg p r = w ↔
      fld w 26 6 = op ∧ fld w 21 5 = d ∧ fld w 16 5 = a ∧ fld w 11 5 = b ∧ fld w 6 5 = c ∧ fld w 4 2 = neg ∧
        fld w 3 1 = p ∧ fld w 0 3 = r := by
  constructor
  · rintro rfl
    simp
  · rintro ⟨rfl, rfl, rfl, rfl, rfl, rfl, rfl, rfl⟩
    simp (disch := rfl) only [encFP4, fld_append]
    exact fld_all

theorem encVV_eq_iff {op : BitVec 6} {d a b : BitVec 5} {s : BitVec 1} {m : BitVec 2} {u : BitVec 1} {t : BitVec 3}
    {fn : BitVec 4} :
    encVV op d a b s m u t fn = w ↔
      fld w 26 6 = op ∧ fld w 21 5 = d ∧ fld w 16 5 = a ∧ fld w 11 5 = b ∧ fld w 10 1 = s ∧ fld w 8 2 = m ∧
        fld w 7 1 = u ∧ fld w 4 3 = t ∧ fld w 0 4 = fn := by
  constructor
  · rintro rfl
    simp
  · rintro ⟨rfl, rfl, rfl, rfl, rfl, rfl, rfl, rfl, rfl⟩
    simp (disch := rfl) only [encVV, fld_append]
    exact fld_all

theorem encXA_eq_iff {op : BitVec 6} {d a b : BitVec 5} {fn : BitVec 4} {s : BitVec 3} {o z : BitVec 2} :
    encXA op d a b fn s o z = w ↔
      fld w 26 6 = op ∧ fld w 21 5 = d ∧ fld w 16 5 = a ∧ fld w 11 5 = b ∧ fld w 7 4 = fn ∧ fld w 4 3 = s ∧
        fld w 2 2 = o ∧ fld w 0 2 = z := by
  constructor
  · rintro rfl
    simp
  · rintro ⟨rfl, rfl, rfl, rfl, rfl, rfl, rfl, rfl⟩
    simp (disch := rfl) only [encXA, fld_append]
    exact fld_all

theorem encXT_eq_iff {op : BitVec 6} {d a : BitVec 5} {fn : BitVec 2} {imm : BitVec 14} :
    encXT op d a fn imm = w ↔
      fld w 26 6 = op ∧ fld w 21 5 = d ∧ fld w 16 5 = a ∧ fld w 14 2 = fn ∧ fld w 0 14 = imm := by
  constructor
  · rintro rfl
    simp
  · rintro ⟨rfl, rfl, rfl, rfl, rfl⟩
    simp (disch := rfl) only [encXT, fld_append]
    exact fld_all

theorem encXM_eq_iff {op : BitVec 6} {d a b c : BitVec 5} {fn f : BitVec 3} :
    encXM op d a b c fn f = w ↔
      fld w 26 6 = op ∧ fld w 21 5 = d ∧ fld w 16 5 = a ∧ fld w 11 5 = b ∧ fld w 6 5 = c ∧ fld w 3 3 = fn ∧
        fld w 0 3 = f := by
  constructor
  · rintro rfl
    simp
  · rintro ⟨rfl, rfl, rfl, rfl, rfl, rfl, rfl⟩
    simp (disch := rfl) only [encXM, fld_append]
    exact fld_all

theorem encXS_eq_iff {op : BitVec 6} {d a : BitVec 5} {fn s : BitVec 3} {i : BitVec 6} {k : BitVec 4} :
    encXS op d a fn s i k = w ↔
      fld w 26 6 = op ∧ fld w 21 5 = d ∧ fld w 16 5 = a ∧ fld w 13 3 = fn ∧ fld w 10 3 = s ∧ fld w 4 6 = i ∧
        fld w 0 4 = k := by
  constructor
  · rintro rfl
    simp
  · rintro ⟨rfl, rfl, rfl, rfl, rfl, rfl, rfl⟩
    simp (disch := rfl) only [encXS, fld_append]
    exact fld_all

theorem encXQ_eq_iff {op : BitVec 6} {d a z : BitVec 5} {q : BitVec 2} {fn : BitVec 3} {y : BitVec 6} :
    encXQ op d a z q fn y = w ↔
      fld w 26 6 = op ∧ fld w 21 5 = d ∧ fld w 16 5 = a ∧ fld w 11 5 = z ∧ fld w 9 2 = q ∧ fld w 6 3 = fn ∧
        fld w 0 6 = y := by
  constructor
  · rintro rfl
    simp
  · rintro ⟨rfl, rfl, rfl, rfl, rfl, rfl, rfl⟩
    simp (disch := rfl) only [encXQ, fld_append]
    exact fld_all

theorem encXH_eq_iff {op : BitVec 6} {d a : BitVec 5} {h : BitVec 2} {fn : BitVec 3} {z : BitVec 11} :
    encXH op d a h fn z = w ↔
      fld w 26 6 = op ∧ fld w 21 5 = d ∧ fld w 16 5 = a ∧ fld w 14 2 = h ∧ fld w 11 3 = fn ∧ fld w 0 11 = z := by
  constructor
  · rintro rfl
    simp
  · rintro ⟨rfl, rfl, rfl, rfl, rfl, rfl⟩
    simp (disch := rfl) only [encXH, fld_append]
    exact fld_all

theorem encMXR_eq_iff {op : BitVec 6} {d a : BitVec 5} {fn : BitVec 2} {c : BitVec 3} {r : BitVec 4}
    {h f e : BitVec 1} {b : BitVec 3} {z : BitVec 1} :
    encMXR op d a fn c r h f e b z = w ↔
      fld w 26 6 = op ∧ fld w 21 5 = d ∧ fld w 16 5 = a ∧ fld w 14 2 = fn ∧ fld w 11 3 = c ∧ fld w 7 4 = r ∧
        fld w 6 1 = h ∧ fld w 5 1 = f ∧ fld w 4 1 = e ∧ fld w 1 3 = b ∧ fld w 0 1 = z := by
  constructor
  · rintro rfl
    simp
  · rintro ⟨rfl, rfl, rfl, rfl, rfl, rfl, rfl, rfl, rfl, rfl, rfl⟩
    simp (disch := rfl) only [encMXR, fld_append]
    exact fld_all

theorem encMXW_eq_iff {op : BitVec 6} {d a : BitVec 5} {fn : BitVec 2} {c : BitVec 3} {l : BitVec 1}
    {z : BitVec 10} :
    encMXW op d a fn c l z = w ↔
      fld w 26 6 = op ∧ fld w 21 5 = d ∧ fld w 16 5 = a ∧ fld w 14 2 = fn ∧ fld w 11 3 = c ∧ fld w 10 1 = l ∧
        fld w 0 10 = z := by
  constructor
  · rintro rfl
    simp
  · rintro ⟨rfl, rfl, rfl, rfl, rfl, rfl, rfl⟩
    simp (disch := rfl) only [encMXW, fld_append]
    exact fld_all

theorem encXP_eq_iff {op : BitVec 6} {c : BitVec 5} {l : BitVec 4} {d a b : BitVec 5} {z : BitVec 2} :
    encXP op c l d a b z = w ↔
      fld w 26 6 = op ∧ fld w 21 5 = c ∧ fld w 17 4 = l ∧ fld w 12 5 = d ∧ fld w 7 5 = a ∧ fld w 2 5 = b ∧
        fld w 0 2 = z := by
  constructor
  · rintro rfl
    simp
  · rintro ⟨rfl, rfl, rfl, rfl, rfl, rfl, rfl⟩
    simp (disch := rfl) only [encXP, fld_append]
    exact fld_all

theorem encXY_eq_iff {op : BitVec 6} {d a : BitVec 5} {fn : BitVec 3} {s : BitVec 13} :
    encXY op d a fn s = w ↔
      fld w 26 6 = op ∧ fld w 21 5 = d ∧ fld w 16 5 = a ∧ fld w 13 3 = fn ∧ fld w 0 13 = s := by
  constructor
  · rintro rfl
    simp
  · rintro ⟨rfl, rfl, rfl, rfl, rfl⟩
    simp (disch := rfl) only [encXY, fld_append]
    exact fld_all

theorem encXV_eq_iff {op : BitVec 6} {v a b : BitVec 5} {fn m : BitVec 2} {u : BitVec 1} {z : BitVec 2}
    {e : BitVec 1} {n : BitVec 3} :
    encXV op v a b fn m u z e n = w ↔
      fld w 26 6 = op ∧ fld w 21 5 = v ∧ fld w 16 5 = a ∧ fld w 11 5 = b ∧ fld w 9 2 = fn ∧ fld w 7 2 = m ∧
        fld w 6 1 = u ∧ fld w 4 2 = z ∧ fld w 3 1 = e ∧ fld w 0 3 = n := by
  constructor
  · rintro rfl
    simp
  · rintro ⟨rfl, rfl, rfl, rfl, rfl, rfl, rfl, rfl, rfl, rfl⟩
    simp (disch := rfl) only [encXV, fld_append]
    exact fld_all

theorem encXVP_eq_iff {op : BitVec 6} {v : BitVec 5} {y : BitVec 2} {p : BitVec 3} {b : BitVec 5} {fn m : BitVec 2}
    {u : BitVec 1} {z : BitVec 2} {e : BitVec 1} {n : BitVec 3} :
    encXVP op v y p b fn m u z e n = w ↔
      fld w 26 6 = op ∧ fld w 21 5 = v ∧ fld w 19 2 = y ∧ fld w 16 3 = p ∧ fld w 11 5 = b ∧ fld w 9 2 = fn ∧
        fld w 7 2 = m ∧ fld w 6 1 = u ∧ fld w 4 2 = z ∧ fld w 3 1 = e ∧ fld w 0 3 = n := by
  constructor
  · rintro rfl
    simp
  · rintro ⟨rfl, rfl, rfl, rfl, rfl, rfl, rfl, rfl, rfl, rfl, rfl⟩
    simp (disch := rfl) only [encXVP, fld_append]
    exact fld_all

theorem encX3_eq_iff {op : BitVec 6} {d a b t fn r : BitVec 3} {z : BitVec 8} :
    encX3 op d a b t fn r z = w ↔
      fld w 26 6 = op ∧ fld w 23 3 = d ∧ fld w 20 3 = a ∧ fld w 17 3 = b ∧ fld w 14 3 = t ∧ fld w 11 3 = fn ∧
        fld w 8 3 = r ∧ fld w 0 8 = z := by
  constructor
  · rintro rfl
    simp
  · rintro ⟨rfl, rfl, rfl, rfl, rfl, rfl, rfl, rfl⟩
    simp (disch := rfl) only [encX3, fld_append]
    exact fld_all

theorem encCvt_eq_iff {op : BitVec 6} {d a b : BitVec 5} {s : BitVec 1} {m : BitVec 2} {u : BitVec 1}
    {t r : BitVec 3} {k : BitVec 1} :
    encCvt op d a b s m u t r k = w ↔
      fld w 26 6 = op ∧ fld w 21 5 = d ∧ fld w 16 5 = a ∧ fld w 11 5 = b ∧ fld w 10 1 = s ∧ fld w 8 2 = m ∧
        fld w 7 1 = u ∧ fld w 4 3 = t ∧ fld w 1 3 = r ∧ fld w 0 1 = k := by
  constructor
  · rintro rfl
    simp
  · rintro ⟨rfl, rfl, rfl, rfl, rfl, rfl, rfl, rfl, rfl, rfl⟩
    simp (disch := rfl) only [encCvt, fld_append]
    exact fld_all

/-! Words whose operands the decoder reads together (R54, R55). -/

theorem fields_of_vargs {op : BitVec 6} {x : VArgs} {t : BitVec 3} {fn : BitVec 4}
    (h : encVV op x.d x.a x.b (b1 x.s) x.m (b1 x.u) t fn = w) :
    fld w 26 6 = op ∧ vargs w = x ∧ fld w 4 3 = t ∧ fld w 0 4 = fn := by
  obtain ⟨hop, hd, ha, hb, hs, hm, hu, ht, hfn⟩ := encVV_eq_iff.mp h
  refine ⟨hop, ?_, ht, hfn⟩
  rw [vargs, hd, ha, hb, bit_eq hs, hm, bit_eq hu]

theorem fields_of_uargs {op : BitVec 6} {x : UArgs} {b : BitVec 5} {s : BitVec 1} {t : BitVec 3} {fn : BitVec 4}
    (h : encVV op x.d x.a b s x.m (b1 x.u) t fn = w) :
    fld w 26 6 = op ∧ uargs w = x ∧ fld w 11 5 = b ∧ fld w 10 1 = s ∧ fld w 4 3 = t ∧ fld w 0 4 = fn := by
  obtain ⟨hop, hd, ha, hb, hs, hm, hu, ht, hfn⟩ := encVV_eq_iff.mp h
  refine ⟨hop, ?_, hb, hs, ht, hfn⟩
  rw [uargs, hd, ha, hm, bit_eq hu]

theorem fields_of_encCvt {op : BitVec 6} {x : UArgs} {dst src : Fmt} {r : BitVec 3} {k : BitVec 1}
    (h : encCvt op x.d x.a dst.code (fldN src.code 3 1) x.m (b1 x.u) (fldN src.code 0 3) r k = w) :
    fld w 26 6 = op ∧ uargs w = x ∧ Fmt.ofCode (fld w 11 5) = some dst ∧
      Fmt.ofCode ((fld w 10 1 ++ fld w 4 3).setWidth 5) = some src ∧ fld w 1 3 = r ∧ fld w 0 1 = k := by
  obtain ⟨hop, hd, ha, hb, hs, hm, hu, ht, hr, hk⟩ := encCvt_eq_iff.mp h
  refine ⟨hop, ?_, Fmt.ofCode_eq_some.mpr hb, ?_, hr, hk⟩
  · rw [uargs, hd, ha, hm, bit_eq hu]
  · rw [Fmt.ofCode_eq_some, hs, ht]
    cases src <;> rfl

/-! ### The decoder of each major opcode (R38) -/

theorem decodeRaw_int (hop : fld w 26 6 = 0x01) : decodeRaw w = decodeInt w := by
  rw [decodeRaw, hop]
  rfl

theorem decodeRaw_shi (hop : fld w 26 6 = 0x06) : decodeRaw w = decodeShi w := by
  rw [decodeRaw, hop]
  rfl

theorem decodeRaw_li (hop : fld w 26 6 = 0x09) : decodeRaw w = decodeLi w := by
  rw [decodeRaw, hop]
  rfl

theorem decodeRaw_bmask (hop : fld w 26 6 = 0x14) : decodeRaw w = decodeBmask w := by
  rw [decodeRaw, hop]
  rfl

theorem decodeRaw_fp (hop : fld w 26 6 = 0x20) : decodeRaw w = decodeFp w := by
  rw [decodeRaw, hop]
  rfl

theorem decodeRaw_fma (hop : fld w 26 6 = 0x21) : decodeRaw w = decodeFma w := by
  rw [decodeRaw, hop]
  rfl

theorem decodeRaw_amo (hop : fld w 26 6 = 0x22) : decodeRaw w = decodeAmo w := by
  rw [decodeRaw, hop]
  rfl

theorem decodeRaw_frame (hop : fld w 26 6 = 0x23) : decodeRaw w = decodeFrame w := by
  rw [decodeRaw, hop]
  rfl

theorem decodeRaw_frmgmt (hop : fld w 26 6 = 0x24) : decodeRaw w = decodeFrmgmt w := by
  rw [decodeRaw, hop]
  rfl

theorem decodeRaw_tags (hop : fld w 26 6 = 0x25) : decodeRaw w = decodeTags w := by
  rw [decodeRaw, hop]
  rfl

theorem decodeRaw_msg (hop : fld w 26 6 = 0x26) : decodeRaw w = decodeMsg w := by
  rw [decodeRaw, hop]
  rfl

theorem decodeRaw_sync (hop : fld w 26 6 = 0x27) : decodeRaw w = decodeSync w := by
  rw [decodeRaw, hop]
  rfl

theorem decodeRaw_queue (hop : fld w 26 6 = 0x28) : decodeRaw w = decodeQueue w := by
  rw [decodeRaw, hop]
  rfl

theorem decodeRaw_head (hop : fld w 26 6 = 0x29) : decodeRaw w = decodeHead w := by
  rw [decodeRaw, hop]
  rfl

theorem decodeRaw_matrix (hop : fld w 26 6 = 0x2A) : decodeRaw w = decodeMatrix w := by
  rw [decodeRaw, hop]
  rfl

theorem decodeRaw_copy (hop : fld w 26 6 = 0x2B) : decodeRaw w = decodeCopy w := by
  rw [decodeRaw, hop]
  rfl

theorem decodeRaw_sys (hop : fld w 26 6 = 0x2D) : decodeRaw w = decodeSys w := by
  rw [decodeRaw, hop]
  rfl

theorem decodeRaw_vfarith (hop : fld w 26 6 = 0x2E) : decodeRaw w = decodeVfarith w := by
  rw [decodeRaw, hop]
  rfl

theorem decodeRaw_viarith (hop : fld w 26 6 = 0x2F) : decodeRaw w = decodeViarith w := by
  rw [decodeRaw, hop]
  rfl

theorem decodeRaw_vfmag (hop : fld w 26 6 = 0x30) : decodeRaw w = decodeVfmag w := by
  rw [decodeRaw, hop]
  rfl

theorem decodeRaw_vcmp (hop : fld w 26 6 = 0x31) : decodeRaw w = decodeVcmp w := by
  rw [decodeRaw, hop]
  rfl

theorem decodeRaw_vmask (hop : fld w 26 6 = 0x32) : decodeRaw w = decodeVmask w := by
  rw [decodeRaw, hop]
  rfl

theorem decodeRaw_vperm (hop : fld w 26 6 = 0x33) : decodeRaw w = decodeVperm w := by
  rw [decodeRaw, hop]
  rfl

theorem decodeRaw_vred (hop : fld w 26 6 = 0x34) : decodeRaw w = decodeVred w := by
  rw [decodeRaw, hop]
  rfl

theorem decodeRaw_vcvt (hop : fld w 26 6 = 0x35) : decodeRaw w = decodeVcvt w := by
  rw [decodeRaw, hop]
  rfl

theorem decodeRaw_vld (hop : fld w 26 6 = 0x36) : decodeRaw w = decodeVld w := by
  rw [decodeRaw, hop]
  rfl

theorem decodeRaw_vst (hop : fld w 26 6 = 0x37) : decodeRaw w = decodeVst w := by
  rw [decodeRaw, hop]
  rfl

theorem decodeRaw_vgs (hop : fld w 26 6 = 0x38) : decodeRaw w = decodeVgs w := by
  rw [decodeRaw, hop]
  rfl

theorem decodeRaw_mm3 (hop : fld w 26 6 = 0x39) : decodeRaw w = decodeMm3 w := by
  rw [decodeRaw, hop]
  rfl

theorem decodeRaw_vsig (hop : fld w 26 6 = 0x3A) : decodeRaw w = decodeVsig w := by
  rw [decodeRaw, hop]
  rfl

theorem decodeRaw_vmov (hop : fld w 26 6 = 0x3B) : decodeRaw w = decodeVmov w := by
  rw [decodeRaw, hop]
  rfl

/-- The decoder reads back what the encoder wrote, group by group of instructions that share a format. -/
theorem decodeRaw_of_encode {i : Instr} (h : encode i = some w) : decodeRaw w = some i := by
  cases i with
  | add | sub | and | or | xor | andn | orn | sll | srl | sra | rol | ror | slt | sltu | min | max | minu | maxu
    | mul | mulhi | mulhin | mulhix | quo | quon | rmd | rmdn =>
    obtain ⟨hop, rfl, rfl, rfl, hfn⟩ := encRR_eq_iff.mp (Option.some.inj h)
    rw [decodeRaw_int hop, decodeInt, hfn]
    rfl
  | clz | ctz | popc | bswap | sextb | sexth | sextw =>
    obtain ⟨hop, rfl, rfl, hb, hfn⟩ := encRR_eq_iff.mp (Option.some.inj h)
    rw [decodeRaw_int hop, decodeInt, hfn, hb]
    rfl
  | addi | andi | ori | xori | slti | sltiu | beq | bne | blt | bge | bltu | bgeu | jalr | lb | lbu | lh | lhu |
    lw | lwu | ld | sb | sh | sw | sd =>
    obtain ⟨hop, rfl, rfl, rfl⟩ := encRI_eq_iff.mp (Option.some.inj h)
    rw [decodeRaw, hop]
    rfl
  | slli | srli | srai =>
    obtain ⟨hop, rfl, rfl, hz, hk, rfl⟩ := encShi_eq_iff.mp (Option.some.inj h)
    rw [decodeRaw_shi hop, decodeShi, hk, hz]
    rfl
  | liz =>
    obtain ⟨hop, rfl, hk, hz, rfl, rfl⟩ := encLi_eq_iff.mp (Option.some.inj h)
    rw [decodeRaw_li hop, decodeLi, hz, bit_eq (b := false) hk]
    rfl
  | lik =>
    obtain ⟨hop, rfl, hk, hz, rfl, rfl⟩ := encLi_eq_iff.mp (Option.some.inj h)
    rw [decodeRaw_li hop, decodeLi, hz, bit_eq (b := true) hk]
    rfl
  | adpc =>
    obtain ⟨hop, rfl, ha, rfl⟩ := encRI_eq_iff.mp (Option.some.inj h)
    rw [decodeRaw, hop, ha]
    rfl
  | jal =>
    obtain ⟨hop, rfl⟩ := encJL_eq_iff.mp (Option.some.inj h)
    rw [decodeRaw, hop]
    rfl
  | bsig =>
    obtain ⟨hop, rfl, rfl, rfl⟩ := encBS_eq_iff.mp (Option.some.inj h)
    rw [decodeRaw, hop]
    rfl
  | bmaskNone | bmaskAny | bmaskAll | bmaskNonec | bmaskAnyc | bmaskAllc =>
    obtain ⟨hop, rfl, hc, rfl⟩ := encBM_eq_iff.mp (Option.some.inj h)
    rw [decodeRaw_bmask hop, decodeBmask, hc]
    rfl
  | fadd | fsub | fmul | fdiv =>
    obtain ⟨hop, rfl, rfl, rfl, hfn, hp, hr, hz⟩ := encFP_eq_iff.mp (Option.some.inj h)
    rw [decodeRaw_fp hop, decodeFp, hz, Prec.ofCode_eq_some.mpr hp, hfn, Rnd.ofCode_eq_some.mpr hr]
    rfl
  | fsqrt | fcvti | fcvtu | fcvtf | fcvtfu | fcvtp | frint =>
    obtain ⟨hop, rfl, rfl, hb, hfn, hp, hr, hz⟩ := encFP_eq_iff.mp (Option.some.inj h)
    rw [decodeRaw_fp hop, decodeFp, hz, Prec.ofCode_eq_some.mpr hp, hfn, hb, Rnd.ofCode_eq_some.mpr hr]
    rfl
  | fmin | fmax | feq | flt | fle | fcps | fcpsn | fcpsx | fsetsig =>
    obtain ⟨hop, rfl, rfl, rfl, hfn, hp, hr, hz⟩ := encFP_eq_iff.mp (Option.some.inj h)
    rw [decodeRaw_fp hop, decodeFp, hz, Prec.ofCode_eq_some.mpr hp, hfn, hr]
    rfl
  | fclass | fsig | fmvi =>
    obtain ⟨hop, rfl, rfl, hb, hfn, hp, hr, hz⟩ := encFP_eq_iff.mp (Option.some.inj h)
    rw [decodeRaw_fp hop, decodeFp, hz, Prec.ofCode_eq_some.mpr hp, hfn, hb, hr]
    rfl
  | fma | fms | fnma | fnms =>
    obtain ⟨hop, rfl, rfl, rfl, rfl, hneg, hp, hr⟩ := encFP4_eq_iff.mp (Option.some.inj h)
    rw [decodeRaw_fma hop, decodeFma, Prec.ofCode_eq_some.mpr hp, Rnd.ofCode_eq_some.mpr hr, hneg]
    rfl
  | aadd | aand | aor | axor | amin | amax | aminu | amaxu | aswp | acas | afadd =>
    obtain ⟨hop, rfl, rfl, rfl, hfn, hs, ho, hz⟩ := encXA_eq_iff.mp (Option.some.inj h)
    rw [decodeRaw_amo hop, decodeAmo, Scope.ofCode_eq_some.mpr hs, MemOrd.ofCode_eq_some.mpr ho,
      Size.ofCode_eq_some.mpr hz, hfn]
    rfl
  | ldf | stf | ldfa | stfr | fadr =>
    obtain ⟨hop, rfl, rfl, hfn, hz, rfl⟩ := encFM_eq_iff.mp (Option.some.inj h)
    rw [decodeRaw_frame hop, decodeFrame, hz, hfn]
    rfl
  | fkeep =>
    obtain ⟨hop, hd, hn, hfn, hz, hs⟩ := encFM_eq_iff.mp (Option.some.inj h)
    rw [decodeRaw_frmgmt hop, decodeFrmgmt, fld_0_16.mpr ⟨hz, hs⟩, hfn, hd, hn]
    rfl
  | fref | frel =>
    obtain ⟨hop, hd, rfl, hfn, hz, hs⟩ := encFM_eq_iff.mp (Option.some.inj h)
    rw [decodeRaw_frmgmt hop, decodeFrmgmt, fld_0_16.mpr ⟨hz, hs⟩, hfn, hd]
    rfl
  | dspl | dsps =>
    obtain ⟨hop, rfl, rfl, hfn, hz, hs⟩ := encFM_eq_iff.mp (Option.some.inj h)
    rw [decodeRaw_frmgmt hop, decodeFrmgmt, fld_0_16.mpr ⟨hz, hs⟩, hfn]
    rfl
  | tsave | trestore | vtsave | vtrestore =>
    obtain ⟨hop, rfl, rfl, hfn, rfl⟩ := encXT_eq_iff.mp (Option.some.inj h)
    rw [decodeRaw_tags hop, decodeTags, hfn]
    rfl
  | send | sendm =>
    obtain ⟨hop, rfl, rfl, rfl, rfl, hfn, hf⟩ := encXM_eq_iff.mp (Option.some.inj h)
    rw [decodeRaw_msg hop, decodeMsg, hfn, hf]
    rfl
  | cdec =>
    obtain ⟨hop, hd, rfl, rfl, hc, hfn, hf⟩ := encXM_eq_iff.mp (Option.some.inj h)
    rw [decodeRaw_msg hop, decodeMsg, hfn, hf, hd, hc]
    rfl
  | spawn =>
    obtain ⟨hop, rfl, rfl, rfl, rfl, hfn, hf⟩ := encXM_eq_iff.mp (Option.some.inj h)
    obtain ⟨hf, hk⟩ := fld_0_3.mp hf
    rw [decodeRaw_msg hop, decodeMsg, hfn, hf, bit_eq (b := false) hk]
    rfl
  | spawnCap =>
    obtain ⟨hop, rfl, rfl, rfl, rfl, hfn, hf⟩ := encXM_eq_iff.mp (Option.some.inj h)
    obtain ⟨hf, hk⟩ := fld_0_3_one.mp hf
    rw [decodeRaw_msg hop, decodeMsg, hfn, hf, bit_eq (b := true) hk]
    rfl
  | exit | wfe =>
    obtain ⟨hop, hd, ha, hb, hc, hfn, hf⟩ := encXM_eq_iff.mp (Option.some.inj h)
    rw [decodeRaw_msg hop, decodeMsg, hfn, hf, fld_6_20.mpr ⟨fld_16_10.mpr ⟨hd, ha⟩, fld_6_10.mpr ⟨hb, hc⟩⟩]
    rfl
  | commit =>
    obtain ⟨hop, hd, ha, hb, hc, hfn, hf⟩ := encXM_eq_iff.mp (Option.some.inj h)
    obtain ⟨hf, hk⟩ := fld_0_3.mp hf
    rw [decodeRaw_msg hop, decodeMsg, hfn, hf, fld_6_20.mpr ⟨fld_16_10.mpr ⟨hd, ha⟩, fld_6_10.mpr ⟨hb, hc⟩⟩,
      bit_eq (b := false) hk]
    rfl
  | commitW =>
    obtain ⟨hop, hd, ha, hb, hc, hfn, hf⟩ := encXM_eq_iff.mp (Option.some.inj h)
    obtain ⟨hf, hk⟩ := fld_0_3_one.mp hf
    rw [decodeRaw_msg hop, decodeMsg, hfn, hf, fld_6_20.mpr ⟨fld_16_10.mpr ⟨hd, ha⟩, fld_6_10.mpr ⟨hb, hc⟩⟩,
      bit_eq (b := true) hk]
    rfl
  | sev =>
    obtain ⟨hop, hd, rfl, hb, hc, hfn, hf⟩ := encXM_eq_iff.mp (Option.some.inj h)
    rw [decodeRaw_msg hop, decodeMsg, hfn, hf, hd, fld_6_10.mpr ⟨hb, hc⟩]
    rfl
  | fenceR | fenceW | fenceRw =>
    obtain ⟨hop, hd, ha, hfn, hs, hi, hk⟩ := encXS_eq_iff.mp (Option.some.inj h)
    rw [decodeRaw_sync hop, decodeSync, hfn, fld_16_10.mpr ⟨hd, ha⟩, fld_4_9.mpr ⟨hs, hi⟩, hk]
    rfl
  | xfence =>
    obtain ⟨hop, hd, ha, hfn, hs, hi, hk⟩ := encXS_eq_iff.mp (Option.some.inj h)
    rw [decodeRaw_sync hop, decodeSync, hfn, fld_16_10.mpr ⟨hd, ha⟩, fld_0_13.mpr ⟨fld_4_9.mpr ⟨hs, hi⟩, hk⟩]
    rfl
  | arrive =>
    obtain ⟨hop, rfl, ha, hfn, hs, rfl, hk⟩ := encXS_eq_iff.mp (Option.some.inj h)
    rw [decodeRaw_sync hop, decodeSync, hfn, ha, hk, BarScope.ofCode_eq_some.mpr hs]
    rfl
  | wait =>
    obtain ⟨hop, hd, rfl, hfn, hs, rfl, hk⟩ := encXS_eq_iff.mp (Option.some.inj h)
    rw [decodeRaw_sync hop, decodeSync, hfn, hd, hk, BarScope.ofCode_eq_some.mpr hs]
    rfl
  | btest =>
    obtain ⟨hop, rfl, rfl, hfn, hs, rfl, hk⟩ := encXS_eq_iff.mp (Option.some.inj h)
    rw [decodeRaw_sync hop, decodeSync, hfn, hk, BarScope.ofCode_eq_some.mpr hs]
    rfl
  | qpush =>
    obtain ⟨hop, hd, rfl, hz, rfl, hfn, hy⟩ := encXQ_eq_iff.mp (Option.some.inj h)
    rw [decodeRaw_queue hop, decodeQueue, hz, hy, hfn, hd]
    rfl
  | qpop | qcnt =>
    obtain ⟨hop, rfl, ha, hz, rfl, hfn, hy⟩ := encXQ_eq_iff.mp (Option.some.inj h)
    rw [decodeRaw_queue hop, decodeQueue, hz, hy, hfn, ha]
    rfl
  | qtry =>
    obtain ⟨hop, rfl, rfl, hz, rfl, hfn, hy⟩ := encXQ_eq_iff.mp (Option.some.inj h)
    rw [decodeRaw_queue hop, decodeQueue, hz, hy, hfn]
    rfl
  | hbind | seek | wrs =>
    obtain ⟨hop, hd, rfl, rfl, hfn, hz⟩ := encXH_eq_iff.mp (Option.some.inj h)
    rw [decodeRaw_head hop, decodeHead, hz, hfn, hd]
    rfl
  | hfree | hwait | rwd =>
    obtain ⟨hop, hd, ha, rfl, hfn, hz⟩ := encXH_eq_iff.mp (Option.some.inj h)
    rw [decodeRaw_head hop, decodeHead, hz, hfn, fld_16_10.mpr ⟨hd, ha⟩]
    rfl
  | rds | hstat =>
    obtain ⟨hop, rfl, ha, rfl, hfn, hz⟩ := encXH_eq_iff.mp (Option.some.inj h)
    rw [decodeRaw_head hop, decodeHead, hz, hfn, ha]
    rfl
  | mxc =>
    obtain ⟨hop, hd, rfl, hfn, hc, hl, hz⟩ := encMXW_eq_iff.mp (Option.some.inj h)
    rw [decodeRaw_matrix hop, decodeMatrix, hfn, hd, fld_0_14.mpr ⟨hc, fld_0_11.mpr ⟨hl, hz⟩⟩]
    rfl
  | mxr =>
    obtain ⟨hop, rfl, rfl, hfn, rfl, rfl, hh, hf, he, hb, hz⟩ := encMXR_eq_iff.mp (Option.some.inj h)
    have hbnd : boundOf (bit w 4) (fld w 1 3) = some _ := boundOf_eq_some.mpr ⟨he, hb⟩
    rw [decodeRaw_matrix hop, decodeMatrix, hfn, bit_eq (b := false) hz, bit_eq hh, bit_eq hf, hbnd]
    rfl
  | mxw =>
    obtain ⟨hop, hd, ha, hfn, rfl, hl, hz⟩ := encMXW_eq_iff.mp (Option.some.inj h)
    rw [decodeRaw_matrix hop, decodeMatrix, hfn, fld_16_10.mpr ⟨hd, ha⟩, hz, bit_eq hl]
    rfl
  | mxs =>
    obtain ⟨hop, rfl, ha, hfn, rfl, hl, hz⟩ := encMXW_eq_iff.mp (Option.some.inj h)
    rw [decodeRaw_matrix hop, decodeMatrix, hfn, ha, fld_0_11.mpr ⟨hl, hz⟩]
    rfl
  | cpc =>
    obtain ⟨hop, hd, rfl, hfn, hz⟩ := encXT_eq_iff.mp (Option.some.inj h)
    rw [decodeRaw_copy hop, decodeCopy, hz, hfn, hd]
    rfl
  | cpw =>
    obtain ⟨hop, hd, ha, hfn, hz⟩ := encXT_eq_iff.mp (Option.some.inj h)
    rw [decodeRaw_copy hop, decodeCopy, hz, hfn, fld_16_10.mpr ⟨hd, ha⟩]
    rfl
  | cps =>
    obtain ⟨hop, rfl, ha, hfn, hz⟩ := encXT_eq_iff.mp (Option.some.inj h)
    rw [decodeRaw_copy hop, decodeCopy, hz, hfn, ha]
    rfl
  | rep =>
    obtain ⟨hop, rfl, rfl, rfl, rfl, rfl, hz⟩ := encXP_eq_iff.mp (Option.some.inj h)
    rw [decodeRaw, hop, hz]
    rfl
  | srr =>
    obtain ⟨hop, rfl, ha, hfn, hs⟩ := encXY_eq_iff.mp (Option.some.inj h)
    rw [decodeRaw_sys hop, decodeSys, hfn, ha, SysReg.ofCode_eq_some.mpr hs]
    rfl
  | srw =>
    obtain ⟨hop, hd, rfl, hfn, hs⟩ := encXY_eq_iff.mp (Option.some.inj h)
    rw [decodeRaw_sys hop, decodeSys, hfn, hd, SysReg.ofCode_eq_some.mpr hs]
    rfl
  | srx =>
    obtain ⟨hop, rfl, rfl, hfn, hs⟩ := encXY_eq_iff.mp (Option.some.inj h)
    rw [decodeRaw_sys hop, decodeSys, hfn, SysReg.ofCode_eq_some.mpr hs]
    rfl
  | trap =>
    obtain ⟨hop, hd, ha, hfn, rfl⟩ := encXY_eq_iff.mp (Option.some.inj h)
    rw [decodeRaw_sys hop, decodeSys, hfn, fld_16_10.mpr ⟨hd, ha⟩]
    rfl
  | sret | eret | iflush =>
    obtain ⟨hop, hd, ha, hfn, hs⟩ := encXY_eq_iff.mp (Option.some.inj h)
    rw [decodeRaw_sys hop, decodeSys, hfn, fld_16_10.mpr ⟨hd, ha⟩, hs]
    rfl
  | vfadd | vfsub | vfmul | vfdiv | vfmin | vfmax =>
    obtain ⟨hop, hx, ht, hfn⟩ := fields_of_vargs (Option.some.inj h)
    rw [decodeRaw_vfarith hop, decodeVfarith, hfn, hx, FTy.ofCode_eq_some.mpr ht]
    rfl
  | vfsqrt | vfabs | vfneg =>
    obtain ⟨hop, hx, hb, hs, ht, hfn⟩ := fields_of_uargs (Option.some.inj h)
    rw [decodeRaw_vfarith hop, decodeVfarith, hfn, fld_10_6.mpr ⟨hb, hs⟩, hx, FTy.ofCode_eq_some.mpr ht]
    rfl
  | vadd | vsub | vmul | vmulh | vand | vor | vxor | vsll | vsrl | vsra | vmin | vmax | vminu | vmaxu | vadds |
    vsubs =>
    obtain ⟨hop, hx, ht, hfn⟩ := fields_of_vargs (Option.some.inj h)
    rw [decodeRaw_viarith hop, decodeViarith, hfn, hx, Wd.ofCode_eq_some.mpr ht]
    rfl
  | vfma | vfms | vfnma | vfnms | vdot2 =>
    obtain ⟨hop, hx, ht, hfn⟩ := fields_of_vargs (Option.some.inj h)
    rw [decodeRaw_vfmag hop, decodeVfmag, hfn, hx, FTy.ofCode_eq_some.mpr ht]
    rfl
  | vfeq | vflt | vfle =>
    obtain ⟨hop, hx, ht, hfn⟩ := fields_of_vargs (Option.some.inj h)
    rw [decodeRaw_vcmp hop, decodeVcmp, hfn, hx, FTy.ofCode_eq_some.mpr ht]
    rfl
  | veq | vne | vlt | vltu =>
    obtain ⟨hop, hx, ht, hfn⟩ := fields_of_vargs (Option.some.inj h)
    rw [decodeRaw_vcmp hop, decodeVcmp, hfn, hx, Wd.ofCode_eq_some.mpr ht]
    rfl
  | mand | mor | mxor | mandn =>
    obtain ⟨hop, rfl, rfl, rfl, hs, hm, hu, ht, hfn⟩ := encVV_eq_iff.mp (Option.some.inj h)
    rw [decodeRaw_vmask hop, decodeVmask, hfn, fld_7_3.mpr ⟨hm, hu⟩, bit_eq hs, Wd.ofCode_eq_some.mpr ht]
    rfl
  | mnot | mpop | mfirst =>
    obtain ⟨hop, rfl, rfl, hb, hs, hm, hu, ht, hfn⟩ := encVV_eq_iff.mp (Option.some.inj h)
    rw [decodeRaw_vmask hop, decodeVmask, hfn, fld_7_3.mpr ⟨hm, hu⟩, hb, bit_eq hs, Wd.ofCode_eq_some.mpr ht]
    rfl
  | mset =>
    obtain ⟨hop, rfl, ha, rfl, hs, hm, hu, ht, hfn⟩ := encVV_eq_iff.mp (Option.some.inj h)
    rw [decodeRaw_vmask hop, decodeVmask, hfn, fld_7_3.mpr ⟨hm, hu⟩, bit_eq (b := true) hs, ha,
      Wd.ofCode_eq_some.mpr ht]
    rfl
  | vslideup | vslidedn | vbcast =>
    obtain ⟨hop, hx, rfl, hs, ht, hfn⟩ := fields_of_uargs (Option.some.inj h)
    rw [decodeRaw_vperm hop, decodeVperm, hfn, hx, bit_eq (b := true) hs, Wd.ofCode_eq_some.mpr ht]
    rfl
  | vperm =>
    obtain ⟨hop, hx, rfl, hs, ht, hfn⟩ := fields_of_uargs (Option.some.inj h)
    rw [decodeRaw_vperm hop, decodeVperm, hfn, hx, bit_eq (b := false) hs, Wd.ofCode_eq_some.mpr ht]
    rfl
  | vsel =>
    obtain ⟨hop, hx, ht, hfn⟩ := fields_of_vargs (Option.some.inj h)
    rw [decodeRaw_vperm hop, decodeVperm, hfn, hx, Wd.ofCode_eq_some.mpr ht]
    rfl
  | vcompress =>
    obtain ⟨hop, hx, hb, hs, ht, hfn⟩ := fields_of_uargs (Option.some.inj h)
    rw [decodeRaw_vperm hop, decodeVperm, hfn, hx, hb, bit_eq hs, Wd.ofCode_eq_some.mpr ht]
    rfl
  | vrsum | vrmax | vrmin =>
    obtain ⟨hop, rfl, rfl, hb, hs, rfl, hu, ht, hfn⟩ := encVV_eq_iff.mp (Option.some.inj h)
    rw [decodeRaw_vred hop, decodeVred, hfn, fld_10_6.mpr ⟨hb, hs⟩, bit_eq (b := false) hu, FTy.ofCode_eq_some.mpr ht]
    rfl
  | vradd | vrand =>
    obtain ⟨hop, rfl, rfl, hb, hs, rfl, hu, ht, hfn⟩ := encVV_eq_iff.mp (Option.some.inj h)
    rw [decodeRaw_vred hop, decodeVred, hfn, fld_10_6.mpr ⟨hb, hs⟩, bit_eq (b := false) hu, Wd.ofCode_eq_some.mpr ht]
    rfl
  | vcvt =>
    obtain ⟨hop, hx, hdst, hsrc, hr, hk⟩ := fields_of_encCvt (Option.some.inj h)
    rw [decodeRaw_vcvt hop, decodeVcvt, hsrc, hdst, Rnd.ofCode_eq_some.mpr hr, hx, bit_eq (b := false) hk]
    rfl
  | vcvts =>
    obtain ⟨hop, hx, hdst, hsrc, hr, hk⟩ := fields_of_encCvt (Option.some.inj h)
    rw [decodeRaw_vcvt hop, decodeVcvt, hsrc, hdst, Rnd.ofCode_eq_some.mpr hr, hx, bit_eq (b := true) hk]
    rfl
  | vld =>
    obtain ⟨hop, rfl, rfl, hb, hfn, rfl, hu, hz, he, hn⟩ := encXV_eq_iff.mp (Option.some.inj h)
    rw [decodeRaw_vld hop, decodeVld, fld_0_4.mpr ⟨he, hn⟩, Wd.ofSz_eq_some.mpr hz, hfn, hb, bit_eq hu]
    rfl
  | vlds =>
    obtain ⟨hop, rfl, rfl, rfl, hfn, rfl, hu, hz, he, hn⟩ := encXV_eq_iff.mp (Option.some.inj h)
    rw [decodeRaw_vld hop, decodeVld, fld_0_4.mpr ⟨he, hn⟩, Wd.ofSz_eq_some.mpr hz, hfn, bit_eq hu]
    rfl
  | vldp =>
    obtain ⟨hop, rfl, hy, rfl, hb, hfn, rfl, hu, hz, he, hn⟩ := encXVP_eq_iff.mp (Option.some.inj h)
    rw [decodeRaw_vld hop, decodeVld, fld_0_4.mpr ⟨he, hn⟩, Wd.ofSz_eq_some.mpr hz, hfn, hy, hb, bit_eq hu]
    rfl
  | vst =>
    obtain ⟨hop, rfl, rfl, hb, hfn, rfl, hu, hz, he, hn⟩ := encXV_eq_iff.mp (Option.some.inj h)
    have hbnd : boundOf (bit w 3) (fld w 0 3) = some _ := boundOf_eq_some.mpr ⟨he, hn⟩
    rw [decodeRaw_vst hop, decodeVst, bit_eq (b := false) hu, hbnd, Wd.ofSz_eq_some.mpr hz, hfn, hb]
    rfl
  | vsts =>
    obtain ⟨hop, rfl, rfl, rfl, hfn, rfl, hu, hz, he, hn⟩ := encXV_eq_iff.mp (Option.some.inj h)
    have hbnd : boundOf (bit w 3) (fld w 0 3) = some _ := boundOf_eq_some.mpr ⟨he, hn⟩
    rw [decodeRaw_vst hop, decodeVst, bit_eq (b := false) hu, hbnd, Wd.ofSz_eq_some.mpr hz, hfn]
    rfl
  | vstp =>
    obtain ⟨hop, rfl, hy, rfl, hb, hfn, rfl, hu, hz, he, hn⟩ := encXVP_eq_iff.mp (Option.some.inj h)
    have hbnd : boundOf (bit w 3) (fld w 0 3) = some _ := boundOf_eq_some.mpr ⟨he, hn⟩
    rw [decodeRaw_vst hop, decodeVst, bit_eq (b := false) hu, hbnd, Wd.ofSz_eq_some.mpr hz, hfn, hy, hb]
    rfl
  | vgather =>
    obtain ⟨hop, rfl, rfl, rfl, hfn, rfl, hu, hz, he, hn⟩ := encXV_eq_iff.mp (Option.some.inj h)
    rw [decodeRaw_vgs hop, decodeVgs, fld_0_4.mpr ⟨he, hn⟩, Wd.ofSz_eq_some.mpr hz, hfn, bit_eq hu]
    rfl
  | vscatter =>
    obtain ⟨hop, rfl, rfl, rfl, hfn, rfl, hu, hz, he, hn⟩ := encXV_eq_iff.mp (Option.some.inj h)
    rw [decodeRaw_vgs hop, decodeVgs, fld_0_4.mpr ⟨he, hn⟩, Wd.ofSz_eq_some.mpr hz, hfn, bit_eq (b := false) hu]
    rfl
  | madd3 | msub3 | mmul3 | mfma3 =>
    obtain ⟨hop, rfl, rfl, rfl, ht, hfn, hr, hz⟩ := encX3_eq_iff.mp (Option.some.inj h)
    rw [decodeRaw_mm3 hop, decodeMm3, hz, FTy.ofCode_eq_some.mpr ht, hfn, Rnd.ofCode_eq_some.mpr hr]
    rfl
  | mmin3 | mmax3 =>
    obtain ⟨hop, rfl, rfl, rfl, ht, hfn, hr, hz⟩ := encX3_eq_iff.mp (Option.some.inj h)
    rw [decodeRaw_mm3 hop, decodeMm3, hz, FTy.ofCode_eq_some.mpr ht, hfn, hr]
    rfl
  | vsigm =>
    obtain ⟨hop, hx, rfl, hs, ht, hfn⟩ := fields_of_uargs (Option.some.inj h)
    rw [decodeRaw_vsig hop, decodeVsig, hfn, hx, bit_eq (b := true) hs, FTy.ofCode_eq_some.mpr ht]
    rfl
  | vsigr | vsigw =>
    obtain ⟨hop, hx, hb, hs, ht, hfn⟩ := fields_of_uargs (Option.some.inj h)
    rw [decodeRaw_vsig hop, decodeVsig, hfn, hx, fld_10_6.mpr ⟨hb, hs⟩, FTy.ofCode_eq_some.mpr ht]
    rfl
  | vsplat =>
    obtain ⟨hop, rfl, ha, rfl, hs, rfl, hu, ht, hfn⟩ := encVV_eq_iff.mp (Option.some.inj h)
    rw [decodeRaw_vmov hop, decodeVmov, hfn, bit_eq (b := true) hs, ha, bit_eq hu, Wd.ofCode_eq_some.mpr ht]
    rfl
  | vins | vext =>
    obtain ⟨hop, rfl, rfl, rfl, hs, hm, hu, ht, hfn⟩ := encVV_eq_iff.mp (Option.some.inj h)
    rw [decodeRaw_vmov hop, decodeVmov, hfn, bit_eq (b := true) hs, fld_7_3.mpr ⟨hm, hu⟩, Wd.ofCode_eq_some.mpr ht]
    rfl
  | vmovv =>
    obtain ⟨hop, hx, hb, hs, ht, hfn⟩ := fields_of_uargs (Option.some.inj h)
    rw [decodeRaw_vmov hop, decodeVmov, hfn, hx, fld_10_6.mpr ⟨hb, hs⟩, Wd.ofCode_eq_some.mpr ht]
    rfl
  | _ => cases h

/-! ### What decodes has the word (R34, R56) -/

/-- Every instruction that o can be has the word w. -/
def Yields (o : Option Instr) (w : IWord) : Prop := ∀ i, o = some i → encode i = some w

theorem yields_none : Yields none w := fun _ h => nomatch h

@[simp] theorem yields_some {i : Instr} : Yields (some i) w ↔ encode i = some w :=
  ⟨fun h => h i rfl, fun h _ e => Option.some.inj e ▸ h⟩

@[simp] theorem yields_when {b : Bool} {o : Option Instr} : Yields (when b o) w ↔ (b = true → Yields o w) := by
  cases b
  · exact iff_of_true yields_none (fun h => nomatch h)
  · exact ⟨fun h _ => h, fun h => h rfl⟩

@[simp] theorem yields_bind {α : Type} {o : Option α} {f : α → Option Instr} :
    Yields (o.bind f) w ↔ ∀ x, o = some x → Yields (f x) w := by
  cases o
  · exact iff_of_true yields_none (fun _ h => nomatch h)
  · exact ⟨fun h _ e => Option.some.inj e ▸ h, fun h => h _ rfl⟩

@[simp] theorem yields_map {α : Type} {o : Option α} {f : α → Instr} :
    Yields (o.map f) w ↔ ∀ x, o = some x → Yields (some (f x)) w := by
  rw [Option.map_eq_bind, yields_bind]
  rfl

@[simp] theorem yields_ite {c : Prop} [Decidable c] {o p : Option Instr} :
    Yields (if c then o else p) w ↔ (c → Yields o w) ∧ (¬c → Yields p w) := by
  split <;> simp [*]

theorem fmt_code_parts {x : BitVec 1} {t : BitVec 3} {f : Fmt} (h : (x ++ t).setWidth 5 = f.code) :
    x = fldN f.code 3 1 ∧ t = fldN f.code 0 3 := by
  rw [← h]
  clear h
  unfold fldN
  revert x t
  decide

theorem yields_decodeInt (hop : fld w 26 6 = 0x01) : Yields (decodeInt w) w := by
  unfold decodeInt
  split
  case h_34 => exact yields_none
  all_goals
    have hfn := fld_eq_of_toNat ‹(fld w 0 11).toNat = _›
    simp [encode, encRR_eq_iff, hop, hfn]

theorem yields_decodeShi (hop : fld w 26 6 = 0x06) : Yields (decodeShi w) w := by
  unfold decodeShi
  split
  case h_4 => exact yields_none
  all_goals
    have hfn := fld_eq_of_toNat ‹(fld w 6 2).toNat = _›
    simp [encode, encShi_eq_iff, hop, hfn]

theorem yields_decodeLi (hop : fld w 26 6 = 0x09) : Yields (decodeLi w) w := by
  simp +contextual [decodeLi, encode, encLi_eq_iff, hop, ne_one_iff]

theorem yields_decodeBmask (hop : fld w 26 6 = 0x14) : Yields (decodeBmask w) w := by
  unfold decodeBmask
  split
  case h_7 => exact yields_none
  all_goals
    have hfn := fld_eq_of_toNat ‹(fld w 18 3).toNat = _›
    simp +contextual [encode, encBM_eq_iff, hop, hfn]

theorem yields_decodeFp (hop : fld w 26 6 = 0x20) : Yields (decodeFp w) w := by
  simp only [decodeFp, yields_when, yields_bind]
  intro hz p hp
  split
  case h_24 => exact yields_none
  all_goals
    have hfn := fld_eq_of_toNat ‹(fld w 6 5).toNat = _›
    simp +contextual [encode, encFP_eq_iff, hop, hfn, beq_iff_eq.mp hz, Prec.ofCode_eq_some.mp hp]

theorem yields_decodeFma (hop : fld w 26 6 = 0x21) : Yields (decodeFma w) w := by
  simp only [decodeFma, yields_bind]
  intro p hp r hr
  split
  case h_5 => exact yields_none
  all_goals
    have hfn := fld_eq_of_toNat ‹(fld w 4 2).toNat = _›
    simp +contextual [encode, encFP4_eq_iff, hop, hfn, Prec.ofCode_eq_some.mp hp, Rnd.ofCode_eq_some.mp hr]

theorem yields_decodeAmo (hop : fld w 26 6 = 0x22) : Yields (decodeAmo w) w := by
  simp only [decodeAmo, yields_bind]
  intro s hs o ho z hz
  split
  case h_12 => exact yields_none
  all_goals
    have hfn := fld_eq_of_toNat ‹(fld w 7 4).toNat = _›
    simp +contextual [encode, encXA_eq_iff, hop, hfn, Scope.ofCode_eq_some.mp hs,
      MemOrd.ofCode_eq_some.mp ho, Size.ofCode_eq_some.mp hz]

theorem yields_decodeFrame (hop : fld w 26 6 = 0x23) : Yields (decodeFrame w) w := by
  simp only [decodeFrame, yields_when]
  intro hz
  split
  case h_6 => exact yields_none
  all_goals
    have hfn := fld_eq_of_toNat ‹(fld w 16 3).toNat = _›
    simp +contextual [encode, encFM_eq_iff, hop, hfn, beq_iff_eq.mp hz]

theorem yields_decodeFrmgmt (hop : fld w 26 6 = 0x24) : Yields (decodeFrmgmt w) w := by
  simp only [decodeFrmgmt, yields_when, beq_iff_eq, BitVec.ofNat_eq_ofNat, fld_0_16]
  rintro ⟨hz, hs⟩
  split
  case h_6 => exact yields_none
  all_goals
    have hfn := fld_eq_of_toNat ‹(fld w 16 3).toNat = _›
    simp +contextual [encode, encFM_eq_iff, hop, hfn, hz, hs]

theorem yields_decodeTags (hop : fld w 26 6 = 0x25) : Yields (decodeTags w) w := by
  unfold decodeTags
  split
  case h_5 => exact yields_none
  all_goals
    have hfn := fld_eq_of_toNat ‹(fld w 14 2).toNat = _›
    simp +contextual [encode, encXT_eq_iff, hop, hfn]

theorem yields_decodeMsg (hop : fld w 26 6 = 0x26) : Yields (decodeMsg w) w := by
  unfold decodeMsg
  split
  case h_9 => exact yields_none
  all_goals
    have hfn := fld_eq_of_toNat ‹(fld w 3 3).toNat = _›
    simp +contextual [encode, encXM_eq_iff, hop, hfn, apply_ite some, fld_6_20, fld_16_10, fld_6_10, fld_0_3, fld_0_3_one]

theorem yields_decodeSync (hop : fld w 26 6 = 0x27) : Yields (decodeSync w) w := by
  unfold decodeSync
  split
  case h_6 => exact yields_none
  case h_1 =>
    have hfn := fld_eq_of_toNat ‹(fld w 13 3).toNat = _›
    simp only [yields_when, Bool.and_eq_true, beq_iff_eq, BitVec.ofNat_eq_ofNat, fld_16_10, fld_4_9]
    rintro ⟨⟨hd, ha⟩, hs, hi⟩
    split
    case h_4 => exact yields_none
    all_goals
      have hk := fld_eq_of_toNat ‹(fld w 0 4).toNat = _›
      simp [encode, encXS_eq_iff, hop, hfn, hd, ha, hs, hi, hk]
  all_goals
    have hfn := fld_eq_of_toNat ‹(fld w 13 3).toNat = _›
    simp +contextual [encode, encXS_eq_iff, hop, hfn, fld_16_10, fld_0_13, fld_4_9]

theorem yields_decodeQueue (hop : fld w 26 6 = 0x28) : Yields (decodeQueue w) w := by
  simp only [decodeQueue, yields_when, Bool.and_eq_true, beq_iff_eq]
  rintro ⟨hz, hy⟩
  split
  case h_5 => exact yields_none
  all_goals
    have hfn := fld_eq_of_toNat ‹(fld w 6 3).toNat = _›
    simp +contextual [encode, encXQ_eq_iff, hop, hfn, hz, hy]

theorem yields_decodeHead (hop : fld w 26 6 = 0x29) : Yields (decodeHead w) w := by
  simp only [decodeHead, yields_when]
  intro hz
  split
  case h_9 => exact yields_none
  all_goals
    have hfn := fld_eq_of_toNat ‹(fld w 11 3).toNat = _›
    simp +contextual [encode, encXH_eq_iff, hop, hfn, fld_16_10, beq_iff_eq.mp hz]

theorem yields_decodeMatrix (hop : fld w 26 6 = 0x2a) : Yields (decodeMatrix w) w := by
  unfold decodeMatrix
  split
  case h_5 => exact yields_none
  all_goals
    have hfn := fld_eq_of_toNat ‹(fld w 14 2).toNat = _›
    simp +contextual [encode, encMXW_eq_iff, encMXR_eq_iff, hop, hfn, fld_0_14, fld_0_11, fld_16_10]

theorem yields_decodeCopy (hop : fld w 26 6 = 0x2b) : Yields (decodeCopy w) w := by
  simp only [decodeCopy, yields_when]
  intro hz
  split
  case h_4 => exact yields_none
  all_goals
    have hfn := fld_eq_of_toNat ‹(fld w 14 2).toNat = _›
    simp +contextual [encode, encXT_eq_iff, hop, hfn, fld_16_10, beq_iff_eq.mp hz]

theorem yields_decodeSys (hop : fld w 26 6 = 0x2d) : Yields (decodeSys w) w := by
  unfold decodeSys
  split
  case h_8 => exact yields_none
  all_goals
    have hfn := fld_eq_of_toNat ‹(fld w 13 3).toNat = _›
    simp +contextual [encode, encXY_eq_iff, hop, hfn, fld_16_10]

theorem yields_decodeVfarith (hop : fld w 26 6 = 0x2e) : Yields (decodeVfarith w) w := by
  unfold decodeVfarith
  split
  case h_10 => exact yields_none
  all_goals
    have hfn := fld_eq_of_toNat ‹(fld w 0 4).toNat = _›
    simp +contextual [encode, encVV_eq_iff, hop, hfn, vargs, uargs, fld_10_6]

theorem yields_decodeViarith (hop : fld w 26 6 = 0x2f) : Yields (decodeViarith w) w := by
  unfold decodeViarith
  split
  case h_17 => exact yields_none
  all_goals
    have hfn := fld_eq_of_toNat ‹(fld w 0 4).toNat = _›
    simp [encode, encVV_eq_iff, hop, hfn, vargs]

theorem yields_decodeVfmag (hop : fld w 26 6 = 0x30) : Yields (decodeVfmag w) w := by
  unfold decodeVfmag
  split
  case h_6 => exact yields_none
  all_goals
    have hfn := fld_eq_of_toNat ‹(fld w 0 4).toNat = _›
    simp [encode, encVV_eq_iff, hop, hfn, vargs]

theorem yields_decodeVcmp (hop : fld w 26 6 = 0x31) : Yields (decodeVcmp w) w := by
  unfold decodeVcmp
  split
  case h_8 => exact yields_none
  all_goals
    have hfn := fld_eq_of_toNat ‹(fld w 0 4).toNat = _›
    simp [encode, encVV_eq_iff, hop, hfn, vargs]

theorem yields_decodeVmask (hop : fld w 26 6 = 0x32) : Yields (decodeVmask w) w := by
  unfold decodeVmask
  split
  case h_9 => exact yields_none
  all_goals
    have hfn := fld_eq_of_toNat ‹(fld w 0 4).toNat = _›
    simp +contextual [encode, encVV_eq_iff, hop, hfn, fld_7_3]

theorem yields_decodeVperm (hop : fld w 26 6 = 0x33) : Yields (decodeVperm w) w := by
  unfold decodeVperm
  split
  case h_7 => exact yields_none
  all_goals
    have hfn := fld_eq_of_toNat ‹(fld w 0 4).toNat = _›
    simp +contextual [encode, encVV_eq_iff, hop, hfn, vargs, uargs]

theorem yields_decodeVred (hop : fld w 26 6 = 0x34) : Yields (decodeVred w) w := by
  unfold decodeVred
  split
  case h_6 => exact yields_none
  all_goals
    have hfn := fld_eq_of_toNat ‹(fld w 0 4).toNat = _›
    simp +contextual [encode, encVV_eq_iff, hop, hfn, fld_10_6]

theorem yields_decodeVcvt (hop : fld w 26 6 = 0x35) : Yields (decodeVcvt w) w := by
  simp only [decodeVcvt, yields_bind, apply_ite some, yields_ite, yields_some, Fmt.ofCode_eq_some, Rnd.ofCode_eq_some]
  intro src hsrc dst hdst r hr
  obtain ⟨hhi, hlo⟩ := fmt_code_parts hsrc
  simp [encode, encCvt_eq_iff, uargs, hop, hhi, hlo, hdst, hr]

theorem yields_decodeVld (hop : fld w 26 6 = 0x36) : Yields (decodeVld w) w := by
  simp only [decodeVld, yields_when, yields_bind]
  intro hz z hs
  split
  case h_4 => exact yields_none
  all_goals
    have hfn := fld_eq_of_toNat ‹(fld w 9 2).toNat = _›
    simp +contextual [encode, encXV_eq_iff, encXVP_eq_iff, hop, hfn, fld_0_4.mp (beq_iff_eq.mp hz), Wd.ofSz_eq_some.mp hs]

theorem yields_decodeVst (hop : fld w 26 6 = 0x37) : Yields (decodeVst w) w := by
  simp only [decodeVst, yields_when, yields_bind, boundOf_bit_eq_some, Bool.not_eq_true', bit_eq_false]
  rintro hu n ⟨he, hn⟩ z hs
  split
  case h_4 => exact yields_none
  all_goals
    have hfn := fld_eq_of_toNat ‹(fld w 9 2).toNat = _›
    simp +contextual [encode, encXV_eq_iff, encXVP_eq_iff, hop, hfn, hu, he, hn, Wd.ofSz_eq_some.mp hs]

theorem yields_decodeVgs (hop : fld w 26 6 = 0x38) : Yields (decodeVgs w) w := by
  simp only [decodeVgs, yields_when, yields_bind]
  intro hz z hs
  split
  case h_3 => exact yields_none
  all_goals
    have hfn := fld_eq_of_toNat ‹(fld w 9 2).toNat = _›
    simp +contextual [encode, encXV_eq_iff, hop, hfn, fld_0_4.mp (beq_iff_eq.mp hz), Wd.ofSz_eq_some.mp hs]

theorem yields_decodeMm3 (hop : fld w 26 6 = 0x39) : Yields (decodeMm3 w) w := by
  simp only [decodeMm3, yields_when, yields_bind]
  intro hz t ht
  split
  case h_7 => exact yields_none
  all_goals
    have hfn := fld_eq_of_toNat ‹(fld w 11 3).toNat = _›
    simp +contextual [encode, encX3_eq_iff, hop, hfn, beq_iff_eq.mp hz, FTy.ofCode_eq_some.mp ht]

theorem yields_decodeVsig (hop : fld w 26 6 = 0x3a) : Yields (decodeVsig w) w := by
  unfold decodeVsig
  split
  case h_4 => exact yields_none
  all_goals
    have hfn := fld_eq_of_toNat ‹(fld w 0 4).toNat = _›
    simp +contextual [encode, encVV_eq_iff, hop, hfn, uargs, fld_10_6]

theorem yields_decodeVmov (hop : fld w 26 6 = 0x3b) : Yields (decodeVmov w) w := by
  unfold decodeVmov
  split
  case h_5 => exact yields_none
  all_goals
    have hfn := fld_eq_of_toNat ‹(fld w 0 4).toNat = _›
    simp +contextual [encode, encVV_eq_iff, hop, hfn, uargs, fld_7_3, fld_10_6]

/-- No bit of a word that decodes is ignored (R34). -/
theorem yields_decodeRaw : Yields (decodeRaw w) w := by
  unfold decodeRaw
  split
  case h_60 => exact yields_none
  all_goals
    have hop := fld_eq_of_toNat ‹(fld w 26 6).toNat = _›
    simp [hop, encode, encRI_eq_iff, encJL_eq_iff, encBS_eq_iff, encXP_eq_iff, yields_decodeInt, yields_decodeShi,
      yields_decodeLi, yields_decodeBmask, yields_decodeFp, yields_decodeFma, yields_decodeAmo, yields_decodeFrame,
      yields_decodeFrmgmt, yields_decodeTags, yields_decodeMsg, yields_decodeSync, yields_decodeQueue,
      yields_decodeHead, yields_decodeMatrix, yields_decodeCopy, yields_decodeSys, yields_decodeVfarith,
      yields_decodeViarith, yields_decodeVfmag, yields_decodeVcmp, yields_decodeVmask, yields_decodeVperm,
      yields_decodeVred, yields_decodeVcvt, yields_decodeVld, yields_decodeVst, yields_decodeVgs, yields_decodeMm3,
      yields_decodeVsig, yields_decodeVmov]

end

/-- The encoder has a word for exactly the rows of the table that have one. -/
theorem isSome_encode (i : Instr) : (encode i).isSome = i.hasWord := by
  cases i <;> rfl

end Sys2Proof
end

section
open Sys2Proof

/-- Settles O5: the fields of the word are the operands, and a well-formed instruction passes the last check. -/
theorem decodeOfEncode : Obligations.DecodeOfEncode := by
  unfold Obligations.DecodeOfEncode
  intro i w hwf h
  rw [decode, decodeRaw_of_encode h]
  exact Option.filter_some_pos hwf

/-- Settles O6: each decoder accepts a word only where every bit is a field of the instruction or has its fixed value. -/
theorem wordHasOneMeaning : Obligations.WordHasOneMeaning := by
  unfold Obligations.WordHasOneMeaning
  intro w i h
  obtain ⟨hraw, hwf⟩ := Option.filter_eq_some_iff.mp h
  have henc := yields_decodeRaw i hraw
  exact ⟨hwf, by rw [← isSome_encode, henc]; rfl, henc⟩

end

section
/-! PROOFS. A step that issues (O2): with the agenda empty, the current context ready and no engine fault due, a step is
`issue`, and what it issues is what its fetch, or the body of its replay, gives. -/
namespace Sys2Proof.Machine

variable {s t : State} {w : IWord}

theorem step_of_ready (ha : s.agenda = []) (hr : ready s.ctx = true) : step s = andThen endStep (issue s) := by
  simp only [step, ha, goOn, takeTurn, hr, if_true]

theorem issue_of_undue {i : Issue} (hd : s.ctx.trapDue = none) (hi : issueOf s = (i, t)) :
    issue s = andThen (afterIssue s s.core.cur (classOf s.ctx) i.queue) (issueAs exec (countIssue t) i) := by
  simp only [issue, takeDue, hd, hi]

/-- Outside a replay the word fetched at the PC is what is decoded (R34, R102). -/
theorem issueOf_of_word (hr : s.ctx.replaying = false)
    (hf : (if issuedYet s.ctx then refetch s s.ctx.pc else fetchAt s s.ctx.pc) = (.word w, t)) :
    issueOf s = (runOr (decode w), t) := by
  simp only [issueOf, hr, Bool.false_eq_true, if_false, hf]

/-- In a replay the captured word with its registers raised is issued, and nothing is fetched (R148, R149). -/
theorem issueOf_of_replay (hr : s.ctx.replaying = true) (hw : s.ctx.body[repPos s.ctx.rep]? = some w) :
    issueOf s = (runOr (raised s.ctx.rep w), s) := by
  simp only [issueOf, hr, if_true, hw]

theorem step_of_issue {i : Issue} (ha : s.agenda = []) (hr : ready s.ctx = true) (hd : s.ctx.trapDue = none)
    (hi : issueOf s = (i, t)) :
    step s = andThen endStep (andThen (afterIssue s s.core.cur (classOf s.ctx) i.queue) (issueAs exec (countIssue t) i)) := by
  rw [step_of_ready ha hr, issue_of_undue hd hi]

end Sys2Proof.Machine
end

section
open Sys2Proof Sys2Proof.Machine

/-- Settles O2: the step is that of what `issueOf` answers, for a word fetched and for a word of a replay. -/
theorem stepRunsTheDecodedWord : Obligations.StepRunsTheDecodedWord := by
  unfold Obligations.StepRunsTheDecodedWord
  refine ⟨fun s t w i ha hr hd hp hf hi => ?_, fun s t w ha hr hd hp hf hi => ?_, fun s w i ha hr hd hp hw hi => ?_⟩
  · rw [step_of_issue ha hr hd (issueOf_of_word hp hf), hi]
    rfl
  · rw [step_of_issue ha hr hd (issueOf_of_word hp hf), hi]
    rfl
  · rw [step_of_issue ha hr hd (issueOf_of_replay hp hw), hi]
    rfl

/-- Settles O4: each word is decoded. -/
theorem wordsDecodeAsTheSpecWritesThem : Obligations.WordsDecodeAsTheSpecWritesThem := by
  unfold Obligations.WordsDecodeAsTheSpecWritesThem
  decide

end

section
/-! PROOFS. The registers as written (O7) and the conditional branches (O12). -/
namespace Sys2Proof.Machine

/-- A write that leaves the current context as it is leaves the state as it is. -/
theorem modCtx_id (s : State) : s.modCtx (fun x => x) = s := by
  unfold State.modCtx State.modCtxAt State.ctxAt
  rw [Vector.set_getElem_self]


/-- A conditional branch goes to its target exactly where its comparison holds. -/
theorem branchIf_eq {s : State} {t : Bool} {c : Prop} [Decidable c] {x : BitVec 16} (h : t = true ↔ c) :
    branchIf t x s = .next (if c then s.jump (s.ctx.pc + 4 * x.signExtend 64) else s.advance) := by
  unfold branchIf
  by_cases hc : c
  · rw [if_pos (h.mpr hc), if_pos hc]
    rfl
  · rw [if_neg (mt h.mp hc), if_neg hc]
    rfl

end Sys2Proof.Machine
end

section
open Sys2Proof Sys2Proof.Machine

/-- Settles O7: by whether the register written is g0, and whether the register read is the one written. -/
theorem g0IsHardWired : Obligations.G0IsHardWired := by
  unfold Obligations.G0IsHardWired
  refine ⟨fun s w c => ?_, fun s => ⟨rfl, rfl⟩, fun s d r w c hd => ?_⟩
  · exact modCtx_id s
  · simp only [State.gr, State.grc, State.setGC_eq, State.ctx_modCtx]
    split
    next hr =>
      subst hr
      exact ⟨gval_setGC _ _ _ _ hd, gcount_setGC _ _ _ _ hd⟩
    next hr => exact ⟨gval_setGC_ne _ _ _ _ _ hr, gcount_setGC_ne _ _ _ _ _ hr⟩

/-- Settles O12: each branch is `branchIf` of its comparison. -/
theorem branchesGoWhereTheySay : Obligations.BranchesGoWhereTheySay := by
  unfold Obligations.BranchesGoWhereTheySay
  intro s a b x
  refine ⟨⟨branchIf_eq ?_, branchIf_eq ?_, branchIf_eq ?_, branchIf_eq ?_, branchIf_eq ?_, branchIf_eq ?_⟩, rfl⟩
  · exact beq_iff_eq
  · exact bne_iff_ne
  · exact BitVec.slt_iff_toInt_lt
  · rw [Bool.not_eq_true', ← Bool.not_eq_true, BitVec.slt_iff_toInt_lt, not_lt]
  · exact BitVec.ult_iff_toNat_lt
  · rw [Bool.not_eq_true', ← Bool.not_eq_true, BitVec.ult_iff_toNat_lt, not_lt]

end

section
/-! PROOFS. TRAP, IFLUSH and REP (O39): the suspension that TRAP comes to, REPSTATE at the first step of a replay, what the
fetches of a REP leave as it was. -/
namespace Sys2Proof.Machine

variable {s t u : State}

/-! ### TRAP (R168) -/

theorem exec_trap_quiet (c : BitVec 13) (h : Quiet s) :
    exec (.trap c) s = .next (suspendCtx s.commit s.commit.core.cur (.trap c)) := afterFenceW_quiet h

theorem wdStop_eq (n : Nat) (x : Ctx) :
    wdStop n x = { x with wdAcc := (wdStop n x).wdAcc, wdFrom := (wdStop n x).wdFrom } := by
  unfold wdStop
  split <;> rfl

/-- What suspension makes of a context (R28). -/
def suspendedCtx (n : Nat) (v : Suspend) (x : Ctx) : Ctx :=
  { wdStop n x with phase := .suspended v, stall := none, asleep := false, pending := keptPending x }

theorem suspendCtx_ctxAt (c : CtxNo) (v : Suspend) : (suspendCtx s c v).ctxAt c = suspendedCtx s.cyc v (s.ctxAt c) :=
  State.ctxAt_modCtxAt s c fun k => { suspendedCtx s.cyc v k with pending := keptPending (s.ctxAt c) }

/-- A suspended context keeps its PC and its registers (R28). -/
theorem suspendedCtx_keeps (n : Nat) (v : Suspend) (x : Ctx) : (suspendedCtx n v x).phase = .suspended v ∧
    (suspendedCtx n v x).pc = x.pc ∧ ∀ r, gval (suspendedCtx n v x) r = gval x r := by
  unfold suspendedCtx
  rw [wdStop_eq]
  exact ⟨rfl, rfl, fun _ => rfl⟩

theorem suspendCtx_trap_records (c : CtxNo) (code : BitVec 13) : (suspendCtx s c (.trap code)).records =
    s.records ++ [.service s.coreId c code (s.ctxAt c).pc (Record.id (s.ctxAt c).task)] := rfl

theorem suspendCtx_sameBytes (c : CtxNo) (v : Suspend) : SameBytes s (suspendCtx s c v) := .of_eq rfl rfl rfl rfl rfl rfl

/-! ### REPSTATE at the first step (R150) -/

theorem repStart_toNat (c : BitVec 5) (l : BitVec 4) (d a b : BitVec 5) : (repStart c l d a b).toNat =
    c.toNat + l.toNat * 2 ^ 5 + d.toNat * 2 ^ 9 + a.toNat * 2 ^ 14 + b.toNat * 2 ^ 19 + 2 ^ 33 := by
  have hc := c.isLt
  have hl := l.isLt
  have hd := d.isLt
  have ha := a.isLt
  have hb := b.isLt
  rw [repStart, BitVec.toNat_ofNat]
  omega

theorem repStart_fields (c : BitVec 5) (l : BitVec 4) (d a b : BitVec 5) :
    (repStart c l d a b).extractLsb' 0 5 = c ∧ (repStart c l d a b).extractLsb' 5 4 = l ∧
      (repStart c l d a b).extractLsb' 9 5 = d ∧ (repStart c l d a b).extractLsb' 14 5 = a ∧
      (repStart c l d a b).extractLsb' 19 5 = b ∧ (repStart c l d a b).extractLsb' 24 9 = 0 ∧
      (repStart c l d a b).getLsbD 33 = true := by
  have hc := c.isLt
  have hl := l.isLt
  have hd := d.isLt
  have ha := a.isLt
  have hb := b.isLt
  have hn := repStart_toNat c l d a b
  refine ⟨?_, ?_, ?_, ?_, ?_, ?_, ?_⟩
  case refine_7 =>
    rw [← BitVec.testBit_toNat, hn, Nat.testBit_eq_decide_div_mod_eq, decide_eq_true_eq]
    omega
  all_goals
    apply BitVec.eq_of_toNat_eq
    rw [BitVec.extractLsb'_toNat, Nat.shiftRight_eq_div_pow, hn]
  case refine_6 =>
    show _ = 0
    omega
  all_goals omega

/-! ### What the fetches of a REP leave as it was -/

/-- The current context and every byte of memory are as they were. -/
structure FetchLeaves (s t : State) : Prop where
  ctx : t.ctx = s.ctx
  bytes : SameBytes s t

theorem FetchLeaves.refl (s : State) : FetchLeaves s s := ⟨rfl, .refl s⟩

theorem FetchLeaves.trans (h : FetchLeaves s t) (h' : FetchLeaves t u) : FetchLeaves s u :=
  ⟨h'.ctx.trans h.ctx, h.bytes.trans h'.bytes⟩

theorem noteAccess_leaves (s : State) (p : PortKey) (e : Seen) : FetchLeaves s (noteAccess s p e) := by
  rw [noteAccess_eq]
  exact ⟨rfl, .of_eq rfl rfl rfl rfl rfl rfl⟩

theorem consume_leaves (s : State) (m : Array) (ws : List Nat) : FetchLeaves s (s.consume m ws).1 := by
  unfold State.consume
  split
  · exact .refl s
  · exact ⟨rfl, .of_eq rfl rfl rfl rfl rfl rfl⟩

/-- A word is fetched from the own instruction store, at its port, or from a line in the instruction cache (R102, R197). -/
theorem fetchAt_leaves {a : Word} {w : IWord} (h : fetchAt s a = (.word w, t)) : FetchLeaves s t := by
  unfold fetchAt at h
  split at h
  · cases h
  split at h
  next off _ =>
    unfold seenAt at h
    split at h
    · cases h
    next v hv =>
      split at hv <;> cases hv
      split at h
      · cases h
      next v hc =>
        cases h
        have hl := consume_leaves (noteAccess s (.istore s.coreId) (ownSeen s 0 off)) .istore (wordsOf 4 [off])
        rw [hc] at hl
        exact (noteAccess_leaves s _ _).trans hl
  next va _ =>
    generalize translate s (ctxTag s.ctx) 0 .fetch va 4 = r at h
    obtain ⟨x, v⟩ := r
    split at h
    · cases h
      exact .refl s
    · cases x <;> cases h
  all_goals cases h

theorem capture_leaves {pc : Word} {n : Nat} {ws vs : List IWord} (h : capture s pc n ws = .inl (vs, u)) :
    FetchLeaves s u := by
  induction n generalizing s ws with
  | zero =>
    cases h
    exact .refl _
  | succ n ih =>
    simp only [capture] at h
    split at h
    case h_6 hf =>
      split at h
      · exact (fetchAt_leaves hf).trans (ih h)
      · cases h
    all_goals cases h

/-! ### The three instructions -/

theorem trap_suspends (c : BitVec 13) (h : Quiet s) :
    Completes (.trap c) s fun t => t.ctx.phase = .suspended (.trap c) ∧ t.ctx.pc = s.ctx.pc ∧
      t.records = s.records ++ [.service s.coreId s.core.cur c s.ctx.pc (Record.id s.ctx.task)] ∧
      (∀ r, t.gr r = s.gr r) ∧ SameBytes s t := by
  have hx : s.commit.ctx = { s.ctx with sinceCommit := 0 } := commit_ctx.trans (commitCtx_empty h.1)
  have ht : (suspendCtx s.commit s.commit.core.cur (.trap c)).ctx =
      suspendedCtx s.commit.cyc (.trap c) { s.ctx with sinceCommit := 0 } := by
    rw [← hx]
    exact suspendCtx_ctxAt s.commit.core.cur _
  obtain ⟨hp, hpc, hg⟩ := suspendedCtx_keeps s.commit.cyc (.trap c) { s.ctx with sinceCommit := 0 }
  refine ⟨_, exec_trap_quiet c h, by rw [ht, hp], by rw [ht, hpc], ?_, fun r => by rw [State.gr, ht, hg]; rfl, ?_⟩
  · rw [suspendCtx_trap_records, show s.commit.ctxAt s.commit.core.cur = { s.ctx with sinceCommit := 0 } from hx]
    rfl
  · exact (sameBytes_modCtx s commitCtx).trans (suspendCtx_sameBytes _ _)

/-- An instruction that is done changes of its context the place in the program alone (R36, R148). -/
theorem nextPc_eq (x : Ctx) : nextPc x = { x with
    pc := (nextPc x).pc, rep := (nextPc x).rep, body := (nextPc x).body, replaying := (nextPc x).replaying
    stall := none, asleep := false } := by
  unfold nextPc repNext
  dsimp only
  repeat' split
  all_goals rfl

theorem nextPc_agreeButPc (x : Ctx) : AgreeButPc x (nextPc x) := by
  rw [nextPc_eq]
  rfl

theorem iflush_empties (s : State) :
    Completes .iflush s fun t => t.core.icache = [] ∧ AgreeButPc s.ctx t.ctx ∧ SameBytes s t := by
  refine ⟨_, rfl, rfl, ?_, .of_eq rfl rfl rfl rfl rfl rfl⟩
  have hx : (s.modCore fun k => { k with icache := [] }).ctx = s.ctx := rfl
  rw [State.advance_eq, State.ctx_modCtx, hx]
  exact nextPc_agreeButPc s.ctx

/-- A replay starts at the word after the REP. -/
def repStarted (c : BitVec 5) (l : BitVec 4) (d a b : BitVec 5) (ws : List IWord) (x : Ctx) : Ctx :=
  { x with rep := repStart c l d a b, body := ws, caught := [], replaying := true, pc := x.pc + 4
           stall := none, asleep := false }

theorem exec_rep {c : BitVec 5} {l : BitVec 4} {d a b : BitVec 5} {ws : List IWord} (hi : s.ctx.sigmode.inh = false)
    (hc : capture s s.ctx.pc (l.toNat + 1 - s.ctx.caught.length) s.ctx.caught = .inl (ws, u)) :
    exec (.rep c l d a b) s = .next (u.modCtx (repStarted c l d a b ws)) := by
  show execRep c l d a b s = _
  unfold execRep
  rw [hi, hc]
  rfl

theorem rep_starts {c : BitVec 5} {l : BitVec 4} {d a b : BitVec 5} {ws : List IWord} (hi : s.ctx.sigmode.inh = false)
    (hc : capture s s.ctx.pc (l.toNat + 1 - s.ctx.caught.length) s.ctx.caught = .inl (ws, u)) :
    Completes (.rep c l d a b) s fun t => t.ctx.body = ws ∧ t.ctx.replaying = true ∧ t.ctx.pc = s.ctx.pc + 4 ∧
      t.ctx.rep.extractLsb' 0 5 = c ∧ t.ctx.rep.extractLsb' 5 4 = l ∧ t.ctx.rep.extractLsb' 9 5 = d ∧
      t.ctx.rep.extractLsb' 14 5 = a ∧ t.ctx.rep.extractLsb' 19 5 = b ∧ t.ctx.rep.extractLsb' 24 9 = 0 ∧
      t.ctx.rep.getLsbD 33 = true ∧ SameBytes s t := by
  obtain ⟨hctx, hbytes⟩ := capture_leaves hc
  obtain ⟨h0, h5, h9, h14, h19, h24, h33⟩ := repStart_fields c l d a b
  refine ⟨_, exec_rep hi hc, ?_⟩
  dsimp only
  rw [State.ctx_modCtx, hctx]
  exact ⟨rfl, rfl, rfl, h0, h5, h9, h14, h19, h24, h33, hbytes.trans (sameBytes_modCtx u _)⟩

theorem rep_inhibited {c : BitVec 5} {l : BitVec 4} {d a b : BitVec 5} (hi : s.ctx.sigmode.inh = true) :
    exec (.rep c l d a b) s = .next (abortCtx s s.core.cur .illegal) := by
  show execRep c l d a b s = _
  rw [execRep, if_pos hi]
  rfl

end Sys2Proof.Machine
end

section
open Sys2Proof Sys2Proof.Machine

/-- Settles O39: by the suspension that TRAP comes to, what the fetches of REP leave and the fields of REPSTATE. -/
theorem trapReturnAndReplay : Obligations.TrapReturnAndReplay := by
  unfold Obligations.TrapReturnAndReplay
  exact ⟨fun s c => trap_suspends c, iflush_empties, fun s u c l d a b ws => rep_starts, fun s c l d a b => rep_inhibited⟩

end

section
/-! PROOFS. The frame of the forms that write one general register (O15): each of them is one write of gd, after which the
context goes on. -/
namespace Sys2Proof.Machine

variable {s : State}

/-! ### One write of gd -/

/-- Each form that destG names writes a value and a count to gd, and its context goes on. -/
theorem exec_of_destG {i : Instr} {d : Reg} (h : destG i = some d)
    (hq : ∀ e q, i = .qcnt e q → ∀ c, waitsAt (s.ctxAt c) q = none) :
    ∃ w c, exec i s = .next (s.setGC d w c).advance := by
  cases i with
  | add | sub | and | or | xor | andn | orn | sll | srl | sra | rol | ror | slt | sltu | min | max | minu | maxu
    | mul | mulhi | mulhin | mulhix | quo | quon | rmd | rmdn | clz | ctz | popc | bswap | sextb | sexth | sextw
    | addi | andi | ori | xori | slli | srli | srai | slti | sltiu | liz | lik | adpc
    | fmin | fmax | feq | flt | fle | fclass | fcps | fcpsn | fcpsx | fcvti | fcvtu | fsig | fsetsig | fmvi
    | dspl | hstat | mxs | cps | mpop | mfirst | vext | vradd | vrand | vrmax | vrmin =>
    cases h
    exact ⟨_, _, rfl⟩
  | qcnt e q =>
    cases h
    have hr : queueRound none q s = s := queueRound_idle none q s (hq _ q rfl)
    refine ⟨BitVec.ofNat 64 (qAt s.core q).length, 63, ?_⟩
    show execQcnt _ q s = _
    rw [execQcnt, hr]
    rfl
  | _ => cases h

theorem setGC_eq_regs (x : Ctx) (d : Reg) (w : Word) (c : Count) :
    setGC x d w c = { x with g := (setGC x d w c).g, gc := (setGC x d w c).gc } := by
  unfold setGC
  split <;> rfl

/-- A write of gd before the context goes on leaves everything but gd and the place in the program (R37, R92). -/
theorem frameG_setGC (s : State) (d : Reg) (w : Word) (c : Count) : FrameG d s (s.setGC d w c).advance := by
  have hx : (s.setGC d w c).advance.ctx = nextPc (setGC s.ctx d w c) := by
    rw [State.advance_eq, State.ctx_modCtx, State.setGC_eq, State.ctx_modCtx]
  refine ⟨fun r hr => ?_, ?_, fun e he => ?_, rfl, .of_eq rfl rfl rfl rfl rfl rfl⟩
  · rw [State.gr, State.grc, hx, gval_nextPc, gcount_nextPc]
    exact ⟨gval_setGC_ne _ _ _ _ _ hr, gcount_setGC_ne _ _ _ _ _ hr⟩
  · rw [hx, nextPc_eq, setGC_eq_regs]
    rfl
  · exact (State.ctxAt_modCtxAt_ne _ _ _ _ he).trans (State.ctxAt_modCtxAt_ne _ _ _ _ he)

end Sys2Proof.Machine
end

section
open Sys2Proof Sys2Proof.Machine

/-- Settles O15: by the frame of one write of gd. -/
theorem frameOfRegisterForms : Obligations.FrameOfRegisterForms := by
  unfold Obligations.FrameOfRegisterForms
  intro i d h s hq
  obtain ⟨w, c, he⟩ := exec_of_destG h hq
  exact ⟨_, he, frameG_setGC s d w c⟩

end
